-- ==== Sys2Proof/Word.lean ====
section
/-! DEFINITION. The word types of the part. Registers are 32 or 64 bits wide (R6); memory is
bytes. -/

namespace Sys2Proof

/-- A byte of any memory of the part. -/
abbrev Byte := BitVec 8
/-- A 16-bit half word. -/
abbrev W16 := BitVec 16
/-- A 32-bit word: a vector lane, a scalar register, a change-log word. -/
abbrev W32 := BitVec 32
/-- A 64-bit word: a register, a staging word. -/
abbrev W64 := BitVec 64

end Sys2Proof
end

