-- ==== Sys2Proof/Syntax.lean ====
section
/-! DEFINITION. The commands of the part: one constructor per row of the opcode table, with the
row's operands. Every row is an operation or an event that the outside, the firmware or the time base
brings about; the operands are what the spec says the row carries. -/

namespace Sys2Proof

/-- Who makes an access to a BAR (R397): each requester has latches of its own. -/
inductive Requester where
  | host
  | monitor
  | firmware
  | slice (i : Fin 1024)
deriving DecidableEq, Repr

/-- Why a PTP domain is lost (R30). -/
inductive DomainLoss where
  | missedSyncs
  | announceTimeout
  | clockClass
deriving DecidableEq, Repr

/-- The frequency sources whose validity can change (R32). -/
inductive FreqSource where
  | syncE
  | ref10M
deriving DecidableEq, Repr

/-- A sheet by its physical place (R10): ream, quire and position 0 to 65. On a quire with fewer than 64
active sheets a position can carry two logical sheets (R12, R108); `second` names the second one. -/
structure SheetAt where
  ream : Fin 4
  quire : Fin 8
  pos : Fin 66
  second : Bool
deriving DecidableEq, Repr

/-- A quire by its place. -/
structure QuireAt where
  ream : Fin 4
  quire : Fin 8
deriving DecidableEq, Repr

/-- The level and unit of a counter (R383). -/
inductive CounterUnit where
  | sheet (s : SheetAt)
  | quire (q : QuireAt)
  | ream (r : Fin 4)
  | chip
deriving DecidableEq, Repr

/-- A hard-evidence cause (R341): the codes 0x10, 0x11 and 0x12 of R338. -/
inductive HardCause where
  | controlStructure
  | secondMismatch
  | reamLoss
deriving DecidableEq, Repr

/-- A stored value carried with its complement (R334), as an object that a use can find mismatched. -/
inductive CompObject where
  | deckle (slot : Fin 64) (offset : Nat)
  | sliceEntry (i : Fin 1024)
  | keyRam (slot : Fin 64)
  | event (i : Fin 4096)
  | floorCfg (r : Fin 4)
  | cellCtl (c : Fin 1024)
  | radioCfg
  | fabricKey (slot : Fin 64) (k : Fin 4)
  | route (i : Nat)
  | window (i : Nat)
  | rxq (i : Nat)
  | job (i : Nat)
  | mirror (i : Fin 64)
  | lock (n : Fin 16)
  | register (addr : Nat)
deriving DecidableEq, Repr

/-- What a furnish copy in flash is, as the boot ROM's checks of R366 find it. -/
structure FurnishCopy where
  magicOk : Bool
  formatOk : Bool
  partsOk : Bool
  version : Nat
  minVersion : Nat
  codeKeyOk : Bool
  codeSigOk : Bool
  recKeyOk : Bool
  recSigOk : Bool
deriving DecidableEq, Repr

/-- How the incarnation sectors of the flash behave at a start (R363). -/
inductive IncarnationOutcome where
  | ok
  | chosenSectorFails
  | bothFail
deriving DecidableEq, Repr

/-- The AVS bus of a compute die (R419). -/
abbrev AvsBus := Fin 2

/-- A monitor `counters` argument (R378). -/
inductive CounterBlock where
  | chip
  | ream (r : Fin 4)
  | quire (q : QuireAt)
  | sheet (s : SheetAt)
deriving DecidableEq, Repr

/-- What a patrol pass reads (R336): the pool of a quire, or HBM. -/
inductive PatrolTarget where
  | pool (q : QuireAt)
  | hbm
deriving DecidableEq, Repr

/-- The write that R403 watches: the mask register, or GLB_CTL.IRQ_EN by its value and complement
words. -/
inductive IrqTarget where
  | mask (v : W32)
  | glbCtl (v c : W64)
deriving DecidableEq, Repr

/-- A TLV of a FAPI CONFIG.request (R195): its tag and value bytes. -/
structure Tlv where
  tag : Nat
  value : List Byte
deriving DecidableEq, Repr

/-- A slot of a TDD pattern (R171). -/
inductive SlotKind where
  | downlink
  | special
  | uplink
deriving DecidableEq, Repr

/-- What a CONFIG.request says of a cell (R162, R170, R171, R195): its carrier, its TDD pattern (empty for FDD), its streams
in the stream table, and its vendor TLVs. -/
structure CellConfig where
  mu : Nat
  mhz : Nat
  tx : Nat
  rx : Nat
  categoryB : Bool
  prbs : Nat
  pattern : List SlotKind
  streams : List (Fin 4096)
  tlvs : List Tlv
deriving DecidableEq, Repr

/-- The body of a furnish record (R369), its complement words apart. -/
inductive FurnishBody where
  | reg (offset : Nat) (words : List W64)
  | table (target : W64) (v0 v1 : W64)
  | map (v0 v1 : W64)
  | cell (cell : Nat) (slot : Nat) (cfg : CellConfig)
  | unknown (type : W16)
deriving DecidableEq, Repr

/-- A configuration record: its body, and whether each complement word matches its value word. -/
structure FurnishRecord where
  body : FurnishBody
  complementOk : Bool
deriving DecidableEq, Repr

/-- The fields of an FX instruction word beside its operation (R77). -/
structure FxOps where
  dst : Fin 32
  src1 : Fin 32
  src2 : Fin 32
  s : Bool
  rm : Fin 8
deriving DecidableEq, Repr

/-- What a matrix instruction's drain makes ready (R109): a bank, or felt lines. -/
inductive DrainTarget where
  | bank (b : Fin 4)
  | lines (first count : Nat)
deriving DecidableEq, Repr

/-- What a read of one felt word finds (R73, R95). -/
inductive FeltRead where
  | clean
  | corrected (addr : Nat)
  | uncorrectable (addr : Nat)
deriving DecidableEq, Repr

/-- The causes of SHEET_ERR.LAST_CAUSE (R97). -/
inductive SheetCause where
  | feltUncorrectable (addr : Nat)
  | repeatedResidue
  | coreParity
  | vectorParity
  | accParity
  | tapParity
deriving DecidableEq, Repr

/-- A deckle register of a slot (R305). -/
inductive DeckleReg where
  | ctl
  | quota
  | limits
  | shp
  | fab (f : Fin 2)
  | radio
  | win (w : Fin 16)
deriving DecidableEq, Repr

/-- Whose mailboxes (R302): those of a slice's page, or the host physical function's. -/
inductive MbxSide where
  | host
  | slice (i : Fin 1024)
deriving DecidableEq, Repr

/-- A request that reaches a lent window (R271, R272). -/
inductive LendKind where
  | connect
  | engineWrite (off : Nat) (data : List Byte)
  | read (off n : Nat)
  | otherWrite
deriving DecidableEq, Repr

/-- The end of a lent window that a recall deadline falls on (R274). -/
inductive LendSide where
  | lender
  | borrower
deriving DecidableEq, Repr

/-- A flit as it arrives at a fabric port (R311): what the forward error correction corrected, whether the CRC
over its 252 bytes holds, its fields, and for a packet start whether the destination is this part. -/
structure Flit where
  corrected : Nat
  uncorrectable : Bool
  crcOk : Bool
  vc : Fin 4
  type : Fin 4
  seq : Fin 4096
  ackSeq : Fin 4096
  creditVc : Fin 4
  credits : Fin 1024
  mine : Bool
deriving DecidableEq, Repr

/-- What a fabric request asks of its target (R318, R320, R325). -/
inductive FabricOp where
  | read (offset n : Nat)
  | gather (offset : Nat) (lines : List Nat)
  | store (offset : Nat) (data : List Byte)
  | atomic (offset aop : Nat) (op0 op1 : W64)
  | message (length token task : Nat)
deriving DecidableEq, Repr

/-- A fabric request as it arrives (R315 to R317): its source chip and incarnation, the request's own number at
the source, its job, its window (or receive queue), its key, and what it asks. -/
structure FabricRequest where
  src : W16
  inc : W32
  id : Nat
  job : W32
  target : Nat
  key : W32
  op : FabricOp
deriving DecidableEq, Repr

/-- The replies of a receiver (R317, R325). -/
inductive FabricFail where
  | torn
  | denied
  | noMap
  | sealed_
  | uncorrectable
deriving DecidableEq, Repr

/-- A reply to a read: its data, or a failure. -/
inductive ReadReply where
  | data (bytes : List Byte)
  | failed (why : FabricFail)
deriving DecidableEq, Repr

/-- A reply to a record: READY for a reservation, done with the old value of an atomic, or a failure. -/
inductive RecordReply where
  | ready
  | done (old : W64)
  | failed (why : FabricFail)
deriving DecidableEq, Repr

/-- A request whose target has not replied (R328). -/
inductive DeadTarget where
  | read (sheet : SheetAt) (tag : Nat)
  | record (ream : Fin 4) (rec : Nat)
deriving DecidableEq, Repr


/-- A PTP message of an enabled domain (R30): a Sync with its origin time where the master is one-step, a Follow_Up, a
Delay_Resp with the master's receipt time, or an Announce with its grandmaster clock class. Times are nanoseconds since the
PTP epoch. -/
inductive PtpMsg where
  | sync (origin : Option Nat)
  | followUp (origin : Nat)
  | delayResp (receipt : Nat)
  | announce (clockClass : Nat)
deriving DecidableEq, Repr

/-- A received PRB: the exponent of block floating point (0 without compression) and its samples' mantissas, I and Q. -/
structure UPrb where
  exp : Nat
  vals : List (Int × Int)
deriving DecidableEq, Repr

/-- A section of a U-plane frame: its first PRB, its udCompHdr (method, width) where the frame carries one, its PRBs. -/
structure USection where
  start : Nat
  comp : Option (Nat × Nat)
  prbs : List UPrb
deriving DecidableEq, Repr

/-- An eCPRI frame (R152, R155): common header revision and concatenation bit, message type, eAxC identifier, the U-plane
header's symbol, and its sections. -/
structure Ecpri where
  revision : Nat
  concat : Bool
  type : Nat
  eaxc : W16
  frameId : BitVec 8
  subframe : Nat
  slotId : Nat
  symbol : Nat
  sections : List USection
deriving DecidableEq, Repr

/-- What a received frame carries (R149). -/
inductive FrameBody where
  | ptp (domain : Nat) (msg : PtpMsg)
  | ecpri (e : Ecpri)
  | other (data : List Byte)
deriving DecidableEq, Repr

/-- A received Ethernet frame (R148, R149): FEC codewords corrected and uncorrectable since the frame before, its check
sequence, the number of 802.1Q tags, its length with the check sequence, that it is a pause frame, destination, VLAN
identifier (0 untagged), chip time at the MAC/PCS boundary in 2⁻¹⁶ ns, and what it carries. -/
structure RxFrame where
  corrected : Nat
  uncorrectable : Nat
  fcsOk : Bool
  tags : Nat
  length : Nat
  pause : Bool
  dmac : BitVec 48
  vid : BitVec 12
  boundary : Nat
  body : FrameBody
deriving DecidableEq, Repr



/-- A PDU of a DL_TTI.request (R177, R182): a PDSCH with the rate-matched length of each of its code blocks and its precoding,
a PDCCH with its candidates, or another. -/
inductive DlPdu where
  | pdsch (index : Nat) (blocks : List Nat) (pmIdx : Nat)
  | pdcch (candidates : Nat)
  | other
deriving DecidableEq, Repr

/-- A PUSCH of an UL_TTI.request (R179, R181, R190): the UE and its HARQ process, the new-data indicator, base graph 2, the
lifting size, the soft-buffer length, for each code block the highest position this transmission writes, the transport
block's bytes, the UCI bits it carries, and the symbol of the slot that is its last. -/
structure Pusch where
  ue : Nat
  process : Nat
  newData : Bool
  bg2 : Bool
  zc : Nat
  ncb : Nat
  blocks : List Nat
  rv : Nat
  tbBytes : Nat
  uciBits : Nat
  last : Fin 14
deriving DecidableEq, Repr

/-- A PDU of an UL_TTI.request (R181, R186, R187): a PUSCH, a PRACH occasion, a PUCCH of a format with its UCI bits, or an
SRS. -/
inductive UlPdu where
  | pusch (p : Pusch)
  | prach (last : Fin 14)
  | pucch (ue format bits : Nat) (last : Fin 14)
  | srs (ue : Nat) (last : Fin 14)
deriving DecidableEq, Repr

/-- Measurements of R193 in their resolutions: power in 0.1 dBFS, SINR or SNR in 0.5 dB, timing advance in TA units. -/
structure Measures where
  power : Int
  sinr : Int
  advance : Int
deriving DecidableEq, Repr

/-- What ends a job of the coding strip (R180, R183, R186, R187) on engine 0 to 15 (decoders), 16 to 27 (encoders), 28 to 31
(polar units) or 32 to 35 (detectors); and the results that sheets hand to the same indications: the SRS SNR, and the
interference values of a slot (R193, R194). A decode gives the new LLR of each position received, whether its buffer read
without an uncorrectable error, whether the CRC passed, the iterations it took, and its decoded bytes. -/
inductive JobResult where
  | decoded (engine : Fin 16) (llrs : List (Nat × Int)) (readOk passed : Bool) (iterations : Nat) (data : List Byte)
      (m : Measures)
  | encoded (engine : Fin 12)
  | polarEncoded (engine : Fin 4)
  | uci (engine : Fin 4) (passed : Bool) (payload : List Byte) (m : Measures)
  | prach (engine : Fin 4) (found : List (Nat × Measures))
  | pucch (engine : Fin 4) (dtx : Bool) (payload : List Byte) (confidence : Fin 2) (m : Measures)
  | srs (cell : Fin 1024) (snr : List Int)
  | interference (cell : Fin 1024) (values : List Int)
deriving DecidableEq, Repr

/-- An item of a mirror record set (R214): a configuration, an entry of the HARQ process table with its transport block size
and buffer identities, the soft values of a buffer at positions written, a lost marker, or a release notice. A buffer is
named by UE, process and code block. -/
inductive MirrorItem where
  | config (cfg : CellConfig)
  | process (ue process : Nat) (newData : Bool) (rv tbBytes blocks : Nat)
  | soft (ue process block : Nat) (values : List (Nat × Int))
  | lost (ue process block : Nat)
  | release (ue process block : Nat)
deriving DecidableEq, Repr

/-- What a peer chip sends beside records (R213, R215, R218): a heartbeat with its incarnation and cell epochs, the acknowledgement of
one with the acknowledger's epochs, the answer to a standby request, the acknowledgement of a mirror record set, or that
the home releases a cell. -/
inductive PeerMsg where
  | heartbeat (inc : W32) (epochs : List (Fin 1024 × W32))
  | heartbeatAck (epochs : List (Fin 1024 × W32))
  | standbyAnswer (cell : Fin 1024) (accepted : Bool)
  | mirrored (cell : Fin 1024) (frame : Fin 1024) (slot : Nat)
  | released (cell : Fin 1024)
deriving DecidableEq, Repr

/-- An event entry that firmware arms for a cell (R216): its index and its two words. -/
structure ArmedEvent where
  index : Fin 4096
  w0 : W64
  w1 : W64
deriving DecidableEq, Repr

/-- How a recovery step that moves data ends (R352): its local fill is done; the buddy's live half, its step and its bytes by
offset (others 0); the buddy's stamped pages by offset, each with its step and bytes; or the buddy cannot be reached. -/
inductive RcvOutcome where
  | filled
  | buddy (live : W32) (data : List (Nat × List Byte))
  | stamped (pages : List (Nat × W32 × List Byte))
  | unreachable
deriving DecidableEq, Repr

/-- The commands (the rows of spec/opcode_table.json, in its order). -/
inductive Instr where
  /-- REGISTER_WRITE (R6): A host, firmware or monitor write to a register that has no row of its own updates its fields under the access words. -/
  | registerWrite (r : Requester) (addr : Nat) (size8 : Bool) (v : W64)
  /-- VALUE_WORD_WRITE (R7): A write to the value word of a complemented pair is held for the requester until the complement arrives. -/
  | valueWordWrite (r : Requester) (addr : Nat) (v : W64)
  /-- COMPLEMENT_WORD_WRITE (R7): A write to the complement word compares the pair and either applies the new value or keeps the old one and raises INTEGRITY. -/
  | complementWordWrite (r : Requester) (addr : Nat) (v : W64)
  /-- LOW_HALF_READ (R397): A 32-bit read of the low half of a 64-bit register reads it in full and latches the high half for the requester. -/
  | lowHalfRead (r : Requester) (addr : Nat)
  /-- HIGH_HALF_READ (R397): A 32-bit read of the high half returns the latched half, or otherwise reads the register in full. -/
  | highHalfRead (r : Requester) (addr : Nat)
  /-- LOW_HALF_WRITE (R397): A 32-bit write of the low half is held until the matching high-half write. -/
  | lowHalfWrite (r : Requester) (addr : Nat) (v : W32)
  /-- HIGH_HALF_WRITE (R397): A 32-bit write of the high half writes both halves together, or writes with a low half of 0. -/
  | highHalfWrite (r : Requester) (addr : Nat) (v : W32)
  /-- UNSUPPORTED_REQUEST (R397): A BAR access that is not 4 or 8 bytes and naturally aligned completes with Unsupported Request and has no effect. -/
  | unsupportedRequest (r : Requester) (addr : Nat) (size : Nat)
  /-- UNASSIGNED_ACCESS (R398): An access to an unassigned BAR offset reads 0 or is ignored and is counted in UNMAPPED_CNT. -/
  | unassignedAccess (r : Requester) (addr : Nat) (isWrite : Bool)
  /-- CHANGE_LOG_SPILL (R375): Firmware spills change-log entries in order from the on-chip ring to the HBM ring. -/
  | changeLogSpill
  /-- LOSS_OF_REAM (R13): A lost ream is isolated, its cells move to shadows, and the chip declares itself failed. -/
  | lossOfReam (ream : Fin 4)
  /-- RT_OFFSET_WRITE (R27): A complemented write to RT_OFFSET is ignored while cells are admitted, refused out of range, or else steps radio time. -/
  | rtOffsetWrite (r : Requester) (v c : W32)
  /-- CHIP_TIME_SLEW (R28): Each phase-accumulator step slews chip time by at most 1 ns toward the servo's estimate. -/
  | chipTimeSlew (corr : Int)
  /-- CT_SEC_READ (R43): A read of CT_SEC latches CT_NS, RT_NOW and RT_VIEW for that requester. -/
  | ctSecRead (r : Requester)
  /-- DELAY_REQ_SEND (R29): The PTP slave sends a Delay_Req at 16 per second in egress class 1. -/
  | delayReqSend (d : Fin 2)
  /-- DOMAIN_GOOD (R30): A domain becomes good after its conditions have held for 16 consecutive Sync intervals, driving timing-state transitions. -/
  | domainGood (d : Fin 2)
  /-- DOMAIN_LOST (R30): A domain is lost after LOSS_INTERVALS missed Syncs, an Announce timeout or a clock class above CLASS_MAX, driving timing-state transitions. -/
  | domainLost (d : Fin 2) (why : DomainLoss)
  /-- ACQUIRE_LOCK (R31): After the servo phase error has stayed within 100 ns for 64 s, ACQUIRING moves to LOCKED_A or LOCKED_B and radio time becomes valid. -/
  | acquireLock
  /-- WTR_EXPIRY (R31): When domain A has been good for WTR seconds with REVERT set, LOCKED_B moves hitlessly to LOCKED_A. -/
  | wtrExpiry
  /-- PPS_IN_EDGE (R29): A rising edge on PPS_IN is time-stamped into PPS_IN_STAMP and serves as a phase source. -/
  | ppsInEdge
  /-- PPS_IN_MISSING (R31): When PPS_IN has been missing for 3 s, the PPS state moves to HOLDOVER. -/
  | ppsInMissing
  /-- HOLDOVER_LIMIT_EXPIRY (R32): When the applicable holdover limit expires, the timing state moves to FREERUN. -/
  | holdoverLimitExpiry
  /-- FREQUENCY_SOURCE_CHANGE (R32): A change in the validity of the selected SyncE or REF_10M_IN source changes frequency steering and the holdover limit. -/
  | frequencySourceChange (src : FreqSource) (valid : Bool)
  /-- PPS_OUT_PULSE (R29): At each chip-time second the part drives a PPS_OUT pulse of the configured width. -/
  | ppsOutPulse
  /-- FRAME_TRANSMIT (R164): When a sub-port may send, the egress scheduler sends a frame from the first class holding an eligible frame. -/
  | frameTransmit (port : Fin 4) (sub : Fin 4) (placed : List (Nat × List Byte))
  /-- TSQ_HI_READ (R44): A read of TSQ_HI latches the head entry of the transmit time-stamp queue. -/
  | tsqHiRead (r : Requester) (port : Fin 4)
  /-- TSQ_LO_READ (R44): A read of TSQ_LO returns the rest of the latched entry and pops it. -/
  | tsqLoRead (r : Requester) (port : Fin 4)
  /-- EVT_WRITE_ENTRY (R37): EVT_CMD write copies the staged words into an event entry after the range, action and complement checks. -/
  | evtWriteEntry (r : Requester) (index : Fin 4096)
  /-- EVT_READ_ENTRY (R44): EVT_CMD read-back copies an event entry into the staging registers. -/
  | evtReadEntry (r : Requester) (index : Fin 4096)
  /-- EVT_DISARM (R44): EVT_CMD disarm stops an event entry from firing. -/
  | evtDisarm (r : Requester) (index : Fin 4096)
  /-- EVENT_FIRE (R39): An armed event entry whose instant is reached fires its action, in index order and at most 32 per fine tick. -/
  | eventFire
  /-- WINDOW_FINALISE (R156): Within 1 µs after a window closes, the unit zero-fills missing PRBs, writes the bitmap and marks the window's radio token complete. -/
  | windowFinalise (stream : Fin 4096) (w : Fin 4)
  /-- SPLIT_REDUCTION_COMBINE (R64): When every task of a command has committed, the held partials of each destination are combined in the fixed tree and converted. -/
  | splitReductionCombine (cmd : Nat)
  /-- SCALAR_INSTRUCTION (R70): An RV32IMC instruction executes on the control core, with scalar felt accesses ordered against FX instructions. -/
  | scalarInstruction (sheet : SheetAt) (word : W32)
  /-- CSR_WRITE (R76): A write to an FX control and status register takes effect for later instructions in program order. -/
  | csrWrite (sheet : SheetAt) (csr : BitVec 12) (v : W32)
  /-- FX_VADD (R78): Lane-wise sum of two vector registers, rounded once. -/
  | fxVadd (sheet : SheetAt) (o : FxOps)
  /-- FX_VSUB (R78): Lane-wise difference of two vector registers. -/
  | fxVsub (sheet : SheetAt) (o : FxOps)
  /-- FX_VMUL (R78): Lane-wise product of two vector registers. -/
  | fxVmul (sheet : SheetAt) (o : FxOps)
  /-- FX_VFMA (R78): Lane-wise fused multiply-add into vd, rounded once. -/
  | fxVfma (sheet : SheetAt) (o : FxOps)
  /-- FX_VMIN (R78): Lane-wise IEEE minimumNumber. -/
  | fxVmin (sheet : SheetAt) (o : FxOps)
  /-- FX_VMAX (R78): Lane-wise IEEE maximumNumber. -/
  | fxVmax (sheet : SheetAt) (o : FxOps)
  /-- FX_VCMPLT (R78): Lane-wise less-than comparison into all-ones or zero. -/
  | fxVcmplt (sheet : SheetAt) (o : FxOps)
  /-- FX_VCMPEQ (R78): Lane-wise equality comparison into all-ones or zero. -/
  | fxVcmpeq (sheet : SheetAt) (o : FxOps)
  /-- FX_VSEL (R78): Lane-wise select by v0. -/
  | fxVsel (sheet : SheetAt) (o : FxOps)
  /-- FX_VAND (R78): Lane-wise bitwise AND. -/
  | fxVand (sheet : SheetAt) (o : FxOps)
  /-- FX_VOR (R78): Lane-wise bitwise OR. -/
  | fxVor (sheet : SheetAt) (o : FxOps)
  /-- FX_VXOR (R78): Lane-wise bitwise XOR. -/
  | fxVxor (sheet : SheetAt) (o : FxOps)
  /-- FX_VSHL (R78): Lane-wise left shift. -/
  | fxVshl (sheet : SheetAt) (o : FxOps)
  /-- FX_VSHRA (R78): Lane-wise arithmetic right shift. -/
  | fxVshra (sheet : SheetAt) (o : FxOps)
  /-- FX_VCVT (R56): Lane-wise conversion between FP32 and INT32. -/
  | fxVcvt (sheet : SheetAt) (o : FxOps)
  /-- FX_VRSUM (R78): Sum of the 64 lanes in the fixed tree into lane 0. -/
  | fxVrsum (sheet : SheetAt) (o : FxOps)
  /-- FX_VRMAX (R78): Largest lane into lane 0. -/
  | fxVrmax (sheet : SheetAt) (o : FxOps)
  /-- FX_VPERM (R78): Lane permutation by index vector. -/
  | fxVperm (sheet : SheetAt) (o : FxOps)
  /-- FX_VFN (R58): Function-unit evaluation of exp, reciprocal, activations and the like per lane. -/
  | fxVfn (sheet : SheetAt) (o : FxOps)
  /-- FX_VCMUL (R87): Lane-wise CI16 complex product scaled by 2^-15. -/
  | fxVcmul (sheet : SheetAt) (o : FxOps)
  /-- FX_VCMULC (R87): Lane-wise CI16 product with the conjugate of vs2. -/
  | fxVcmulc (sheet : SheetAt) (o : FxOps)
  /-- FX_VCMAG (R87): Lane-wise I squared plus Q squared into INT32. -/
  | fxVcmag (sheet : SheetAt) (o : FxOps)
  /-- FX_VSCALE (R78): Lane-wise scaling by a power of two. -/
  | fxVscale (sheet : SheetAt) (o : FxOps)
  /-- FX_VMVXS (R78): Moves lane 0 into a scalar register. -/
  | fxVmvxs (sheet : SheetAt) (o : FxOps)
  /-- FX_VLD (R78): Loads one felt line into a vector register. -/
  | fxVld (sheet : SheetAt) (o : FxOps) (found : FeltRead)
  /-- FX_VST (R78): Stores one vector register into a felt line. -/
  | fxVst (sheet : SheetAt) (o : FxOps)
  /-- FX_VLD2 (R78): Loads two felt lines into an even register pair in one cycle. -/
  | fxVld2 (sheet : SheetAt) (o : FxOps)
  /-- FX_VLDX (R78): Converting load of 64 elements of FMT_A into lane type FMT_D. -/
  | fxVldx (sheet : SheetAt) (o : FxOps)
  /-- FX_VSTX (R49): Converting store of 64 lanes into FMT_D, with MX scale computation. -/
  | fxVstx (sheet : SheetAt) (o : FxOps)
  /-- FX_VGATH (R78): Gathers 32-bit felt words at per-lane offsets. -/
  | fxVgath (sheet : SheetAt) (o : FxOps)
  /-- FX_VSCAT (R78): Scatters 32-bit lanes to felt at per-lane offsets, the highest lane winning. -/
  | fxVscat (sheet : SheetAt) (o : FxOps)
  /-- FELT_FORM (R77): A custom-1 felt form performs a custom-0 vector operation with source lines read from felt addresses. -/
  | feltForm (sheet : SheetAt) (f : Fin 32) (o : FxOps)
  /-- FX_TAPLD (R78): Loads 16 filter taps from felt into a tap bank. -/
  | fxTapld (sheet : SheetAt) (o : FxOps)
  /-- FX_TAPMV (R86): Applies a polyphase FIR filter to the window and moves it forward, refilling from felt. -/
  | fxTapmv (sheet : SheetAt) (o : FxOps)
  /-- FX_DEMAP (R87): Computes scaled max-log LLRs of 64 symbols and writes them to felt. -/
  | fxDemap (sheet : SheetAt) (o : FxOps)
  /-- FX_CBXUPK (R87): Unpacks five CBX12 PRBs into CI16 lanes with their GAIN fields. -/
  | fxCbxupk (sheet : SheetAt) (o : FxOps)
  /-- FX_CBXPK (R87): Packs 60 CI16 lanes into five CBX12 PRBs. -/
  | fxCbxpk (sheet : SheetAt) (o : FxOps)
  /-- FX_MMA (R81): Matrix multiply-accumulate of STEPS groups into an accumulator bank in packed, sheet or joined mode. -/
  | fxMma (sheet : SheetAt) (o : FxOps) (residue : Fin 3)
  /-- FX_ACCRD (R84): Writes an accumulator bank to felt converted to FMT_D. -/
  | fxAccrd (sheet : SheetAt) (o : FxOps)
  /-- FX_ACCLD (R84): Loads an accumulator bank from felt and sets its type. -/
  | fxAccld (sheet : SheetAt) (o : FxOps)
  /-- FX_ACCZ (R84): Zeroes an accumulator bank. -/
  | fxAccz (sheet : SheetAt) (o : FxOps)
  /-- FX_ACCMV (R84): Moves four bank rows into a vector register. -/
  | fxAccmv (sheet : SheetAt) (o : FxOps)
  /-- MATRIX_DRAIN_COMPLETE (R109): A matrix instruction's drain ends and its bank or felt destination becomes ready. -/
  | matrixDrainComplete (sheet : SheetAt) (target : DrainTarget)
  /-- JOINED_STEP_FIRE (R105): The quire fires a joined step once all 64 sheets have issued their n-th joined instruction and the held tiles are ready. -/
  | joinedStepFire (q : QuireAt) (mismatches : Fin 3)
  /-- FX_DMA (R278): Issues the transfer or engine request described by a felt descriptor of the named KIND. -/
  | fxDma (sheet : SheetAt) (o : FxOps)
  /-- FX_PREF (R281): Issues a prefetch with snapshot semantics that drops, rather than faults on, unreadable lines. -/
  | fxPref (sheet : SheetAt) (o : FxOps)
  /-- COPY_IN (R279): Copies strided rows from an input slot into felt, optionally with run-ahead. -/
  | copyIn (sheet : SheetAt) (tag : Nat)
  /-- GATHER_IN (R279): Gathers listed 64-byte lines from an input slot into felt. -/
  | gatherIn (sheet : SheetAt) (tag : Nat)
  /-- POOL_IN (R279): Copies bytes from the context's pool space into felt, waiting for earlier PREF_POOL fills. -/
  | poolIn (sheet : SheetAt) (tag : Nat)
  /-- PREF_POOL (R279): Prefetches strided rows from an input slot into the context's pool space. -/
  | prefPool (sheet : SheetAt) (tag : Nat)
  /-- DMA_FILL_COMPLETE (R80): A transfer's fill of a destination line completes and marks it ready, or holds 0 after a drop. -/
  | dmaFillComplete (sheet : SheetAt) (tag line inc : Nat)
  /-- FX_TFENCE (R88): Orders earlier committed drains of the context before the task's later reads. -/
  | fxTfence (sheet : SheetAt) (o : FxOps)
  /-- FX_FENCE (R88): Waits for every older FX instruction, fills included, to complete. -/
  | fxFence (sheet : SheetAt) (o : FxOps)
  /-- FX_WAITRDY (R80): Waits until every line of a felt range is ready. -/
  | fxWaitrdy (sheet : SheetAt) (o : FxOps)
  /-- FX_MKRDY (R80): Marks a felt range ready. -/
  | fxMkrdy (sheet : SheetAt) (o : FxOps)
  /-- FX_CLRRDY (R80): Marks a felt range not ready. -/
  | fxClrrdy (sheet : SheetAt) (o : FxOps)
  /-- FX_WAITEV (R88): Begins a wait for a message, a nonzero input word or a completion token. -/
  | fxWaitev (sheet : SheetAt) (o : FxOps)
  /-- WAITEV_COMPLETE (R88): The awaited event occurs and FX.WAITEV completes with rd set to 0. -/
  | waitevComplete (sheet : SheetAt)
  /-- FX_STREC (R90): Creates a commit record placing stager bytes into an output slot. -/
  | fxStrec (sheet : SheetAt) (o : FxOps)
  /-- FX_STRED (R90): Creates a split-reduction partial for a reduction slot and destination. -/
  | fxStred (sheet : SheetAt) (o : FxOps)
  /-- FX_COMMIT (R91): Ends the task and waits for older instructions and a free commit slot. -/
  | fxCommit (sheet : SheetAt) (o : FxOps)
  /-- COMMIT_BEGIN (R91): The commit copies records and stager bytes into the slot, ORs flags and writes the commit record. -/
  | commitBegin (sheet : SheetAt)
  /-- COMMIT_DRAIN_COMPLETE (R91): The quire finishes draining a committed slot to its destinations and frees it. -/
  | commitDrainComplete (sheet : SheetAt)
  /-- FX_RTWAIT (R89): A radio task begins waiting for a radio-time instant, or completes at once when due or past. -/
  | fxRtwait (sheet : SheetAt) (o : FxOps)
  /-- RTWAIT_COMPLETE (R89): The awaited radio-time instant arrives and FX.RTWAIT completes. -/
  | rtwaitComplete (sheet : SheetAt)
  /-- FX_RAND (R78): Fills lanes with generator words for a non-rounding purpose. -/
  | fxRand (sheet : SheetAt) (o : FxOps)
  /-- FX_CNTRD (R390): Reads half of a sheet performance counter when the deckle and counter permit. -/
  | fxCntrd (sheet : SheetAt) (o : FxOps)
  /-- FX_STMSG (R320): Creates a fabric record of a STORE, ATOMIC, MESSAGE, FENCE or POP from a felt descriptor. -/
  | fxStmsg (sheet : SheetAt) (o : FxOps)
  /-- KILL_REQUEST (R92): A kill request stops a task that has not begun its commit and starts the sheet's release. -/
  | killRequest (sheet : SheetAt)
  /-- SHEET_RELEASE_COMPLETE (R92): The sheet finishes its release and reports itself free. -/
  | sheetReleaseComplete (sheet : SheetAt)
  /-- FELT_UNCORRECTABLE_ERROR (R95): An uncorrectable felt, parity or repeated residue error makes the sheet kill its task and report to its quire. -/
  | feltUncorrectableError (sheet : SheetAt) (cause : SheetCause)
  /-- PATROL_SCRUB (R73): The patrol scrubber reads one felt ECC word every 256 cycles. -/
  | patrolScrub (sheet : SheetAt) (found : FeltRead)
  /-- SCRUB_NOW (R97): SHEET_CTL.SCRUB_NOW starts a patrol pass at once. -/
  | scrubNow (r : Requester) (sheet : SheetAt)
  /-- SHEET_RETIRE (R97): SHEET_CTL.RETIRE retires the sheet at its next task boundary and maps a spare when free. -/
  | sheetRetire (sheet : SheetAt)
  /-- SHEET_RETURN (R96): A returning sheet zeroes its state, clears tags, increments its incarnation and runs self-test. -/
  | sheetReturn (sheet : SheetAt)
  /-- SQ_TAIL_WRITE (R114): A doorbell write of a new SQ tail makes the part fetch entries up to it, or is ignored as bad. -/
  | sqTailWrite (slice : Fin 1024) (q : Fin 64) (v : W32)
  /-- COMMAND_FETCH (R118): The intake fetches an SQ entry and its descriptor and applies the intake checks in order. -/
  | commandFetch (slot : Fin 64) (q : Fin 64)
  /-- FETCH_ABORT (R114): A host-aborted fetch of an SQ entry stops fetching from that SQ until the next accepted doorbell. -/
  | fetchAbort (slot : Fin 64) (q : Fin 64)
  /-- CQ_HEAD_WRITE (R123): A write of a new CQ head frees entries and releases held completions, or is ignored as bad. -/
  | cqHeadWrite (slice : Fin 1024) (q : Fin 64) (v : W32)
  /-- TASK_PLACE (R126): A ream places a command's tasks on per-sheet queues, honouring BARRIER and WAIT_TOKEN. -/
  | taskPlace (cmd : Nat)
  /-- TASK_STEAL (R127): An idle sheet with an empty queue steals the tail half of the longest queue of its gang. -/
  | taskSteal (sheet : SheetAt)
  /-- LOAD_BALANCE_CHECK (R128): Once per microsecond the ream scheduler moves queued tasks to an empty quire of the gang. -/
  | loadBalanceCheck (ream : Fin 4)
  /-- DEADLINE_EXPIRY (R131): A class 1 to 3 command's deadline passes; LATE is set and with ABORT_LATE the command is killed and ends in TIMEOUT. -/
  | deadlineExpiry (cmd : Nat)
  /-- COMMAND_COMPLETE (R112): When every task has committed and drained, the command completes and applies its deferred requests. -/
  | commandComplete (cmd : Nat)
  /-- PROGRAM_LOAD (R124): Built-in command that verifies and loads a program image and returns its handle and digest. -/
  | programLoad (cmd : Nat)
  /-- PROGRAM_UNLOAD (R124): Built-in command that unloads a program handle not in use. -/
  | programUnload (cmd : Nat)
  /-- CONTEXT_CREATE (R431): Built-in command that creates a context and reserves its couch area against the T2 quota. -/
  | contextCreate (cmd : Nat)
  /-- CONTEXT_DESTROY (R124): Built-in command that waits for a context's commands and frees its state and couch area. -/
  | contextDestroy (cmd : Nat)
  /-- CONTEXT_EXPORT (R124): Built-in command that couches a context out and copies its image to an output slot. -/
  | contextExport (cmd : Nat)
  /-- CONTEXT_IMPORT (R142): Built-in command that creates a context from an image, checking SHAPE, AIC and CRCs. -/
  | contextImport (cmd : Nat)
  /-- JOB_TEARDOWN (R329): Built-in command that marks a job torn, disables its windows and queues, ends its commands and abandons its fabric work. -/
  | jobTeardown (cmd : Nat)
  /-- BLOCKED_SWAP_CHECK (R137): Once per microsecond the ream scheduler swaps blocked contexts out for a runnable off-chip context. -/
  | blockedSwapCheck (ream : Fin 4)
  /-- COUCH_OUT_COMPLETE (R136): A context's couch-out to its T2 couch area completes. -/
  | couchOutComplete (ctx : Nat)
  /-- COUCH_IN_COMPLETE (R140): A context's couch-in from its couch area completes and its tasks may run. -/
  | couchInComplete (ctx : Nat)
  /-- PORT_CFG_WRITE (R147): A PORT_CFG write that changes MODE or ENABLE is refused while in use, or retrains the port and discards queued frames. -/
  | portCfgWrite (r : Requester) (port : Fin 4) (v c : W32)
  /-- LINK_UP (R147): A sub-port's Ethernet link comes up after training. -/
  | linkUp (port : Fin 4) (sub : Fin 4)
  /-- LINK_DOWN (R160): A sub-port's link goes down; its class 0 frames drop, windows zero-fill and L2 gets ERROR.indication. -/
  | linkDown (port : Fin 4) (sub : Fin 4)
  /-- FRAME_RECEIVE (R149): A received Ethernet frame is checked and classified to the PTP slave, the fronthaul unit, a steered ring or host ring 0. -/
  | frameReceive (port : Fin 4) (sub : Fin 4) (f : RxFrame)
  /-- GAIN_STEP_UPDATE (R158): At the end of each symbol the AGC adjusts each gain group's step for the next symbol. -/
  | gainStepUpdate (stream : Fin 4096)
  /-- ETH_TX_TAIL_WRITE (R150): A transmit ring doorbell makes the part fetch descriptors and queue or discard their frames. -/
  | ethTxTailWrite (slice : Fin 1024) (q : Fin 64) (v : W32)
  /-- ETH_RX_TAIL_WRITE (R151): A receive ring doorbell posts buffers for received frames. -/
  | ethRxTailWrite (slice : Fin 1024) (q : Fin 64) (v : W32)
  /-- BUCKET_REFILL (R166): Every 1.024 µs each token bucket gains REFILL and is capped at BURST, applying pending changes. -/
  | bucketRefill
  /-- SHP_WRITE (R167): SHP_CMD write stores a staged shaper entry after the complement and value checks. -/
  | shpWrite (r : Requester) (port : Fin 10) (kind : Fin 4) (index : Fin 1024)
  /-- SHP_READ_BACK (R168): SHP_CMD read-back copies a shaper entry into staging. -/
  | shpReadBack (r : Requester) (port : Fin 10) (kind : Fin 4) (index : Fin 1024)
  /-- CLASS0_DROP_AFTER (R159): A released class 0 frame still unsent DROP_AFTER ticks after release is dropped and counted. -/
  | class0DropAfter (port : Fin 4) (queue : Fin 1024)
  /-- STRM_CFG_WRITE (R153): A stream table write is refused on a duplicate stream or too many gain groups, else configures the stream. -/
  | strmCfgWrite (r : Requester) (stream : Fin 4096) (v c : W64)
  /-- FAPI_TAIL_WRITE (R161): Host L2 advances the L2-to-PHY ring tail and the part reads the messages. -/
  | fapiTailWrite (slice : Fin 1024) (v : W32) (unsupported : List (Fin 1024))
  /-- FAPI_HEAD_WRITE (R161): Host L2 posts PHY-to-L2 buffers, releasing held messages. -/
  | fapiHeadWrite (slice : Fin 1024) (v : W32)
  /-- PARAM_REQUEST (R162): FAPI PARAM.request is answered with PARAM.response. -/
  | paramRequest (slot : Fin 64) (last : Bool)
  /-- CONFIG_REQUEST (R195): FAPI CONFIG.request checks TLVs and runs the admission test for a down cell. -/
  | configRequest (slot : Fin 64) (last : Bool) (cfg : CellConfig)
  /-- START_REQUEST (R162): FAPI START.request starts a configured cell. -/
  | startRequest (slot : Fin 64) (last : Bool)
  /-- STOP_REQUEST (R162): FAPI STOP.request stops a cell and answers with STOP.indication. -/
  | stopRequest (slot : Fin 64) (last : Bool)
  /-- DL_TTI_REQUEST (R182): FAPI DL_TTI.request schedules downlink, charging the encoder budget per PDU. -/
  | dlTtiRequest (slot : Fin 64) (last : Bool) (frame : Fin 1024) (sl : Nat) (pdus : List DlPdu)
  /-- UL_TTI_REQUEST (R181): FAPI UL_TTI.request schedules uplink, charging the decoder budget and capping iterations. -/
  | ulTtiRequest (slot : Fin 64) (last : Bool) (frame : Fin 1024) (sl : Nat) (pdus : List UlPdu)
  /-- UL_DCI_REQUEST (R162): FAPI UL_DCI.request schedules uplink DCI on PDCCH. -/
  | ulDciRequest (slot : Fin 64) (last : Bool) (frame : Fin 1024) (sl : Nat) (candidates : Nat)
  /-- TX_DATA_REQUEST (R162): FAPI TX_Data.request supplies downlink transport-block data. -/
  | txDataRequest (slot : Fin 64) (last : Bool) (frame : Fin 1024) (sl : Nat) (blocks : List (Nat × List Byte))
  /-- CODING_JOB_START (R184): A free coding-strip engine takes the earliest-deadline job of its queue. -/
  | codingJobStart (ream : Fin 4) (engine : Fin 36)
  /-- CODING_JOB_COMPLETE (R180): A coding-strip job ends, for a decode on syndrome, CRC or iteration limit with HARQ write-back. -/
  | codingJobComplete (ream : Fin 4) (result : JobResult)
  /-- STRIP_ENGINE_ERROR (R184): An engine's uncorrectable memory error re-runs its job on another engine and retires the engine. -/
  | stripEngineError (ream : Fin 4) (engine : Fin 36)
  /-- FLOOR_CFG_WRITE (R204): A FLOOR_CFG write changes the radio floor or pool region, or is refused. -/
  | floorCfgWrite (r : Requester) (ream : Fin 4) (v c : W64)
  /-- CLASS0_TASK_PLACE (R205): A ready class 0 task takes a sheet of its home ream, issuing a kill where needed. -/
  | class0TaskPlace (ream : Fin 4)
  /-- CAPACITY_RECOMPUTE (R211): After a capacity loss, firmware recomputes ream capacities before the next window and enters emergency or sheds. -/
  | capacityRecompute
  /-- COOLING_SHED (R208): Under a cooling fault, one cell is shed every THERM_STEP until the junction falls below 100 °C. -/
  | coolingShed
  /-- STANDBY_REQUEST (R213): A shadow chip receives a standby request and admits the cell in standby or refuses it. -/
  | standbyRequest (src : W16) (cell : Fin 1024) (slot : Fin 64) (cfg : CellConfig)
  /-- STANDBY_RETRY (R213): A home with a refused or lost shadow repeats the standby request every 10 s. -/
  | standbyRetry (cell : Fin 1024)
  /-- MIRROR_RECORD_SEND (R214): For each slot the home sends the shadow a mirror record set within the MIRROR_KIB limit. -/
  | mirrorRecordSend (cell : Fin 1024)
  /-- MIRROR_RECORD_RECEIVE (R214): The shadow applies and acknowledges a mirror record set. -/
  | mirrorRecordReceive (src : W16) (cell : Fin 1024) (frame : Fin 1024) (sl : Nat) (items : List MirrorItem)
  /-- HEARTBEAT_SEND (R215): The home sends a heartbeat every HB_PERIOD on each HB_PATHS port. -/
  | heartbeatSend
  /-- HEARTBEAT_RECEIVE (R218): A heartbeat or acknowledgement is received, and a home finding a higher epoch stops the cell. -/
  | heartbeatReceive (port : Fin 6) (src : W16) (msg : PeerMsg)
  /-- HOME_LOSS_DETECT (R215): After HB_MISS missed periods on every path, the peer is declared lost and takeover begins. -/
  | homeLossDetect (peer : W16) (events : List ArmedEvent)
  /-- HANDOVER (R216): CELL_CTL.HANDOVER begins a handover of the cell to its shadow at frame boundary T. -/
  | handover (cell : Fin 1024)
  /-- HANDOVER_MESSAGE (R216): A shadow receives a handover message and prepares to take the cell at T. -/
  | handoverMessage (src : W16) (cell : Fin 1024) (boundary : Int) (events : List ArmedEvent)
  /-- CELL_RELEASE (R218): CELL_CTL.RELEASE stops the cell at its next frame boundary. -/
  | cellRelease (cell : Fin 1024)
  /-- LINK_HO_EXPIRY (R216): A sub-port link-down lasting LINK_HO triggers a handover. -/
  | linkHoExpiry (cell : Fin 1024)
  /-- TAKEOVER_BOUNDARY (R216): At frame boundary T the taking-over cell becomes active with a new epoch, or down without valid radio time. -/
  | takeoverBoundary (cell : Fin 1024)
  /-- MISS_HI_READ (R219): A read of MISS_HI latches the head miss-ring entry. -/
  | missHiRead (r : Requester)
  /-- MISS_LO_READ (R219): A read of MISS_LO returns the rest of the entry and pops it. -/
  | missLoRead (r : Requester)
  /-- ROPE (R229): Engine request that writes exact-turn rotary cos and sin values for positions. -/
  | rope (sheet : SheetAt) (tag : Nat)
  /-- WALK_BEGIN (R233): Engine request that snapshots a sequence into a walk slot and lists its sink and window pages. -/
  | walkBegin (sheet : SheetAt) (tag : Nat)
  /-- WALK_STEP (R234): Engine request that bounds unselected pages, checks the skipped mass and lists more pages or finishes. -/
  | walkStep (sheet : SheetAt) (tag : Nat)
  /-- WALK_END (R232): Engine request that frees a walk slot. -/
  | walkEnd (sheet : SheetAt) (tag : Nat)
  /-- PAGE_FETCH (R236): Engine request that fills felt with one page's keys and values. -/
  | pageFetch (sheet : SheetAt) (tag : Nat)
  /-- SAMPLE (R240): Sampler request that draws a token from a score row under top-k, min-p and top-p. -/
  | sample (sheet : SheetAt) (tag : Nat)
  /-- VERIFY (R241): Sampler request that checks speculative draft tokens and draws the next token. -/
  | verify (sheet : SheetAt) (tag : Nat)
  /-- APPEND (R226): Deferred request that adds tokens to a sequence and seals full pages at command completion. -/
  | seqAppend (cmd : Nat)
  /-- PREFIX_PUBLISH (R244): Deferred request that moves sealed pages into the prefix-cache pool. -/
  | prefixPublish (cmd : Nat)
  /-- PREFIX_ATTACH (R245): Deferred request that attaches matching pool pages to an empty sequence. -/
  | prefixAttach (cmd : Nat)
  /-- SEQ_RELEASE (R246): Deferred request that dereferences a sequence's shared pages and resets its counts. -/
  | seqRelease (cmd : Nat)
  /-- WEIGHT_REGISTER (R249): Deferred request that digests and seals a weight object and enters it in the weight table. -/
  | weightRegister (cmd : Nat)
  /-- DIGEST_COMPLETE (R250): A SHA-256 engine finishes digesting an input slot of a watermarked command. -/
  | digestComplete (cmd : Nat) (slotIx : Fin 8)
  /-- MAP (R259): MAP_CMD MAP allocates zeroed T2 pages at an unmapped range. -/
  | map (r : Requester)
  /-- UNMAP (R259): MAP_CMD UNMAP frees pages in any tier once no command uses them. -/
  | unmap (r : Requester)
  /-- PROTECT (R259): MAP_CMD PROTECT sets READ and WRITE on pages. -/
  | protect (r : Requester)
  /-- MAP_SEAL (R263): MAP_CMD SEAL seals pages read-only. -/
  | mapSeal (r : Requester)
  /-- MAP_UNSEAL (R264): MAP_CMD UNSEAL promotes pages to T2 and clears SEALED unless refused. -/
  | mapUnseal (r : Requester)
  /-- PIN (R259): MAP_CMD PIN sets PIN on pages. -/
  | pin (r : Requester)
  /-- UNPIN (R259): MAP_CMD UNPIN clears PIN on pages. -/
  | unpin (r : Requester)
  /-- MAP_READ (R259): MAP_CMD READ writes the mapping of the first page back into staging. -/
  | mapRead (r : Requester)
  /-- MAPPING_CHANGE_COMPLETE (R261): An access-removing mapping change completes once caches, requests and covering commands have finished. -/
  | mappingChangeComplete
  /-- MAPPING_CHANGE_TIMEOUT (R261): A mapping change whose commands have not completed within 10 ms changes nothing and sets ERR 4. -/
  | mappingChangeTimeout
  /-- SEAL (R265): Deferred tier request that seals a page range. -/
  | tierSeal (cmd : Nat)
  /-- UNSEAL (R265): Deferred tier request that unseals a page range. -/
  | tierUnseal (cmd : Nat)
  /-- HINT (R265): Deferred tier request that demotes, promotes, pins or unpins a page range. -/
  | tierHint (cmd : Nat)
  /-- MIGRATION_INTERVAL (R269): At each migration interval the engine demotes and promotes pages by read counts and quota use. -/
  | migrationInterval
  /-- PAGE_MIGRATION_COMPLETE (R270): A page copy completes, the translation switches and the old frame is freed. -/
  | pageMigrationComplete (slot : Fin 64) (va : Nat) (ok : Bool)
  /-- HOST_POOL_WRITE (R257): A HOST_POOL write donates a host region as T3 or starts draining it. -/
  | hostPoolWrite (r : Requester) (h : Fin 8) (v c : W64)
  /-- HOST_POOL_RELEASE (R257): A draining host pool region holds no pages and is released. -/
  | hostPoolRelease (h : Fin 8)
  /-- TIER_CFG_WRITE (R267): A TIER_CFG write is refused when it lowers the radio reservation below admitted need. -/
  | tierCfgWrite (r : Requester) (v c : W64)
  /-- LEND_WIN_ENABLE (R271): Setting LEND_WIN.ENABLE takes the window's size from free T2, or is refused. -/
  | lendWinEnable (r : Requester) (w : Fin 16)
  /-- BORROW_CONNECT (R271): Setting BORROW_WIN.ENABLE connects to the lender, which checks chip identifier and key. -/
  | borrowConnect (r : Requester) (w : Fin 16)
  /-- BORROW_RELEASE (R284): Clearing BORROW_WIN.ENABLE evacuates the window without deadline and releases it when empty. -/
  | borrowRelease (r : Requester) (w : Fin 16)
  /-- LEND_REQUEST (R272): The lender accepts or refuses a request into a lent window by source and key. -/
  | lendRequest (w : Fin 16) (src : W16) (key : W32) (kind : LendKind)
  /-- LEND_RECALL (R273): LEND_WIN.RECALL sends a recall with a 100 ms deadline. -/
  | lendRecall (r : Requester) (w : Fin 16)
  /-- RECALL_RECEIVE (R273): The borrower receives a recall and starts evacuating the window. -/
  | recallReceive (w : Fin 16) (deadline : Nat)
  /-- EVACUATION_DONE (R273): The borrower empties the window and sends a done message. -/
  | evacuationDone (w : Fin 16)
  /-- DONE_RECEIVE (R273): The lender receives the done message and returns the window to free T2. -/
  | doneReceive (w : Fin 16)
  /-- RECALL_DEADLINE (R274): At the recall deadline the lender frees the window and the borrower revokes its remaining pages. -/
  | recallDeadline (side : LendSide) (w : Fin 16)
  /-- REQUEST_AGE_FORCE (R277): A memory request held for 2 µs goes next in its pseudo-channel. -/
  | requestAgeForce (ream : Fin 4)
  /-- SLOT_ENABLE (R286): DCK_CTL.ENABLE activates a free slot, generating a key when none is loaded. -/
  | slotEnable (r : Requester) (slot : Fin 64)
  /-- SLOT_RELEASE (R287): DCK_CTL.RELEASE moves an active slot to draining and starts emptying it. -/
  | slotRelease (r : Requester) (slot : Fin 64)
  /-- SLOT_DRAIN_COMPLETE (R432): Every drain step is done and the slot becomes free. -/
  | slotDrainComplete (slot : Fin 64)
  /-- DECKLE_WRITE (R289): A write to a deckle register is checked against slot conflicts and use, and applied or refused. -/
  | deckleWrite (r : Requester) (slot : Fin 64) (reg : DeckleReg) (v0 v1 c0 c1 : W64)
  /-- KEY_LOAD (R293): KEY_CMD load sets a free slot's key from the staged value and complement words. -/
  | keyLoad (r : Requester) (slot : Fin 64)
  /-- KEY_GENERATE (R293): KEY_CMD generate fills a free slot's key from the DRBG. -/
  | keyGenerate (r : Requester) (slot : Fin 64)
  /-- SLICE_WRITE (R295): A slice table write binds a doorbell page to a slot and PASID, or is refused. -/
  | sliceWrite (r : Requester) (i : Fin 1024) (v c : W64)
  /-- RING_CREATE (R296): RING_CMD create makes a ring of the staged kind after deckle and window checks. -/
  | ringCreate (slice : Fin 1024)
  /-- RING_DELETE (R297): RING_CMD delete removes a ring under the deletion rules of its kind. -/
  | ringDelete (slice : Fin 1024)
  /-- RING_READ_BACK (R307): RING_CMD read-back copies a ring's settings into staging. -/
  | ringReadBack (slice : Fin 1024)
  /-- SQ_DELETE_COMPLETE (R297): A deleted SQ's fetched commands have all completed and RING_STAT.BUSY falls. -/
  | sqDeleteComplete (slot : Fin 64) (q : Fin 64)
  /-- DIRTY_SWAP (R301): DIRTY_CMD swap redirects dirty logging to the other bank and flushes the old one. -/
  | dirtySwap (r : Requester) (slot : Fin 64)
  /-- DIRTY_SWAP_COMPLETE (R301): The flush into the old bank ends and BUSY clears. -/
  | dirtySwapComplete (slot : Fin 64)
  /-- MBX_OUT_WRITE (R302): A sender's write to MBX_OUT stores a word or counts an overrun. -/
  | mbxOutWrite (r : Requester) (n : Fin 4) (v : W32)
  /-- MBX_IN_READ (R302): The receiver's read of MBX_IN returns the word and clears FULL. -/
  | mbxInRead (r : Requester) (n : Fin 4)
  /-- FIRMWARE_MBX_TAKE (R304): Firmware takes a word toward it within 1 ms and answers it. -/
  | firmwareMbxTake (side : MbxSide) (n : Fin 4)
  /-- PING (R304): Mailbox word type PING is echoed in a reply. -/
  | ping (side : MbxSide) (n : Fin 4)
  /-- USE_QUERY (R304): Mailbox word type USE_QUERY is answered with the tier use in GiB. -/
  | useQuery (side : MbxSide) (n : Fin 4)
  /-- FIRMWARE_MBX_STORE (R302): Firmware stores a queued word into MBX_IN when FULL clears, signalling MBX_VEC. -/
  | firmwareMbxStore (side : MbxSide) (n : Fin 4)
  /-- SHMBX_WRITE (R303): A write to a shared mailbox by a permitted path behaves as a mailbox send. -/
  | shmbxWrite (r : Requester) (n : Fin 16) (v : W32)
  /-- SHMBX_READ (R303): A read of a shared mailbox by a permitted path behaves as a mailbox receive. -/
  | shmbxRead (r : Requester) (n : Fin 16)
  /-- LOCK_READ (R303): A read of a lock takes it when free or returns the owner's number. -/
  | lockRead (r : Requester) (n : Fin 16)
  /-- LOCK_RELEASE (R303): A write of the owner's number from the owner's path releases the lock. -/
  | lockRelease (r : Requester) (n : Fin 16) (v : W32)
  /-- LOCK_FORCE (R303): A LOCK_FORCE bit write frees a lock and is logged. -/
  | lockForce (r : Requester) (mask : W16)
  /-- FLIT_RECEIVE (R312): A received flit is checked, acknowledged and its credits returned, or a NAK is sent. -/
  | flitReceive (port : Fin 6) (f : Flit)
  /-- NAK_RECEIVE (R312): A link-control NAK makes the sender replay from the named flit, retraining after 8 replays. -/
  | nakReceive (port : Fin 6) (seq : Fin 4096)
  /-- LINK_RETRAIN_COMPLETE (R312): A fabric port finishes retraining and its link is up. -/
  | linkRetrainComplete (port : Fin 6) (peerChip peerPort : Nat) (peerSwitch : Bool)
  /-- ROUTE_WRITE (R314): TAB_CMD write of a route entry, refused for the own chip, domain limit or absent ports. -/
  | routeWrite (r : Requester) (index : Fin 65536)
  /-- WINDOW_WRITE (R317): TAB_CMD write of a fabric window entry within the slot's device windows. -/
  | windowWrite (r : Requester) (index : Fin 65536)
  /-- RXQ_WRITE (R325): TAB_CMD write of a receive queue entry over mapped writable memory. -/
  | rxqWrite (r : Requester) (index : Fin 65536)
  /-- JOB_WRITE (R316): TAB_CMD write of a job table entry, clearing TORN. -/
  | jobWrite (r : Requester) (index : Fin 65536)
  /-- TAB_READ_BACK (R332): TAB_CMD read-back copies a fabric table entry into staging and TAB_INFO. -/
  | tabReadBack (r : Requester) (table : Fin 4) (index : Fin 65536)
  /-- REMOTE_READ (R318): Fabric read kind that reads a remote window range into felt. -/
  | remoteRead (sheet : SheetAt) (tag : Nat)
  /-- REMOTE_GATHER (R318): Fabric read kind that gathers listed remote lines into felt. -/
  | remoteGather (sheet : SheetAt) (tag : Nat)
  /-- RXQ_PEEK (R326): Fabric kind that copies a receive queue entry's header and payload into felt. -/
  | rxqPeek (sheet : SheetAt) (tag : Nat)
  /-- FABRIC_REQUEST_RECEIVE (R317): A fabric request arriving at the receiver is checked for job, window, key, range, mapping and seal. -/
  | fabricRequestReceive (req : FabricRequest)
  /-- READ_RESPONSE_RECEIVE (R318): Remote read data arrives and fills the task's felt destination. -/
  | readResponseReceive (sheet : SheetAt) (tag : Nat) (reply : ReadReply)
  /-- FABRIC_RECORD_SEND (R321): The ream send engine sends a drained fabric record in packets, in source order. -/
  | fabricRecordSend (ream : Fin 4) (rec : Nat)
  /-- STORE (R324): A received fabric STORE enters the ingress buffer, merges by line and is applied. -/
  | fabricStore (ream : Fin 4)
  /-- ATOMIC (R323): A received fabric ATOMIC is applied as one indivisible read-modify-write. -/
  | fabricAtomic (ream : Fin 4)
  /-- MESSAGE_RESERVATION (R325): A message reservation is answered READY with a reserved slot, NOT_READY or DENIED. -/
  | messageReservation (req : FabricRequest)
  /-- MESSAGE_PAYLOAD (R325): A message payload is written, then its header, and TAIL advances. -/
  | messagePayload (queue : Fin 4096) (src : W16) (data : List Byte)
  /-- FENCE (R322): A FENCE record holds its source's later records until earlier ones complete. -/
  | fabricFence (ream : Fin 4) (rec : Nat)
  /-- POP (R326): A POP record advances its receive queue's HEAD when it drains. -/
  | fabricPop (ream : Fin 4) (rec : Nat)
  /-- RECORD_ACK_RECEIVE (R321): An acknowledgement completes a fabric record at the sender. -/
  | recordAckReceive (ream : Fin 4) (rec : Nat) (reply : RecordReply)
  /-- NOT_READY_RECEIVE (R327): A NOT_READY reply schedules a retry after the backoff, or fails the record at RETRY_LIMIT. -/
  | notReadyReceive (ream : Fin 4) (rec : Nat)
  /-- RESERVATION_RETRY (R327): After the backoff wait the sender sends the reservation again. -/
  | reservationRetry (ream : Fin 4) (rec : Nat)
  /-- DEAD_TARGET_TIMEOUT (R328): A read or record with no reply for DEAD_TIMEOUT fails with FABRIC_DEAD_TARGET. -/
  | deadTargetTimeout (target : DeadTarget)
  /-- STORED_COMPLEMENT_MISMATCH (R334): A use that finds a complement-carried value mismatched raises INTEGRITY and fails the use. -/
  | storedComplementMismatch (obj : CompObject)
  /-- COMPLEMENT_REWRITE (R335): Within 1 ms firmware rewrites a mismatched pair from its source and logs it. -/
  | complementRewrite (obj : CompObject)
  /-- SHEET_SELF_TEST_COMPLETE (R339): A sheet's self-test ends and it becomes a spare, returns, or is retired. -/
  | sheetSelfTestComplete (sheet : SheetAt) (pass : Bool)
  /-- QUIRE_ISOLATE (R340): A quire is isolated on error code 0x05, its tasks killed and re-placed and its cells re-admitted or shed. -/
  | quireIsolate (q : QuireAt)
  /-- QUIRE_TEST (R340): Firmware tests an isolated quire after 10 minutes. -/
  | quireTest (q : QuireAt)
  /-- QUIRE_TEST_COMPLETE (R340): A quire test ends and the quire returns or stays isolated. -/
  | quireTestComplete (q : QuireAt) (pass : Bool)
  /-- HARD_EVIDENCE (R341): Hard evidence puts the part in the failed state, zeroes the score and asserts FAULT_N. -/
  | hardEvidence (cause : HardCause)
  /-- QUIRE_SLEEP (R343): Firmware puts an uncovered, empty quire to sleep. -/
  | quireSleep (q : QuireAt)
  /-- QUIRE_WAKE (R342): A sleeping or isolated quire is scrubbed and returns with a new incarnation. -/
  | quireWake (q : QuireAt)
  /-- HEALTH_WINDOW_END (R346): At each 600 s window boundary debt is applied or the score rises by 10. -/
  | healthWindowEnd
  /-- ERR_HI_READ (R358): A read of ERR_HI latches the head error-ring entry. -/
  | errHiRead (r : Requester)
  /-- ERR_LO_READ (R358): A read of ERR_LO returns the rest of the entry and pops it. -/
  | errLoRead (r : Requester)
  /-- MIR_WRITE (R347): MIR_CMD write stores a staged mirror entry. -/
  | mirWrite (r : Requester) (index : Nat)
  /-- MIR_READ_BACK (R358): MIR_CMD read-back copies a mirror entry into staging. -/
  | mirReadBack (r : Requester) (index : Nat)
  /-- MIRROR_COPY_COMPLETE (R348): A REGION copy finishes and its header acknowledgement mirrors the step, or the entry fails. -/
  | mirrorCopyComplete (index : Fin 64) (ok : Bool)
  /-- BEGIN (R352): Recovery step BEGIN opens an epoch and holds the job's commands. -/
  | recoveryBegin
  /-- PULL (R352): Recovery step PULL fills a range from a spare-side copy or the buddy's live half. -/
  | pull
  /-- PULL_SEALED (R352): Recovery step PULL_SEALED copies valid stamped pages from the buddy and seals them. -/
  | pullSealed
  /-- LOAD_CHECKPOINT (R352): Recovery step LOAD_CHECKPOINT fills a range from a checkpoint and checks its digest. -/
  | loadCheckpoint
  /-- RECOVERY_ENABLE (R352): Recovery step ENABLE re-enables the job's windows, queues and mirror entries. -/
  | recoveryEnable
  /-- END (R352): Recovery step END closes the epoch and lets the job's commands place tasks. -/
  | recoveryEnd
  /-- RECOVERY_STEP_COMPLETE (R353): A running recovery step ends with its result and clears BUSY. -/
  | recoveryStepComplete (outcome : RcvOutcome)
  /-- RECOVERY_ABORT (R354): RCV_CMD abort ends the running recovery step with RESULT 6. -/
  | recoveryAbort (r : Requester)
  /-- PWROK_RISE (R418): PWROK rising starts the boot ROM, samples CARD_ID and starts UPTIME. -/
  | pwrokRise (cardId : BitVec 4) (failed : List SheetAt)
  /-- PWROK_FALL (R359): PWROK low resets the whole part except OTP and flash. -/
  | pwrokFall
  /-- RESET_N_ASSERT (R359): RESET_N low resets all logic while keeping retirements, health, log and incarnation sectors. -/
  | resetNAssert
  /-- RESET_N_RELEASE (R361): RESET_N rising with PWROK high starts the boot sequence. -/
  | resetNRelease
  /-- PERST_N_ASSERT (R360): PERST_N resets the host port and deletes every ring in host windows. -/
  | perstNAssert
  /-- FURNISH_VERIFY (R366): The boot ROM verifies both furnish copies, advances CHIP_INC and starts firmware, or enters recovery mode. -/
  | furnishVerify (a b : FurnishCopy) (readError : Bool) (inc : IncarnationOutcome)
  /-- RECORDS_APPLY (R370): At stage 2 firmware applies configuration records in image order, rejecting and logging bad ones. -/
  | recordsApply (recs : List FurnishRecord)
  /-- HBM_TRAINED (R256): HBM training ends and CXL devices are enumerated, reaching stage 3. -/
  | hbmTrained (cxl : List Nat)
  /-- LINKS_UP (R361): Ethernet and fabric links come up, reaching stage 4. -/
  | linksUp
  /-- FURNISH_CELL_ADMIT (R362): When radio time is first valid, firmware admits the furnish cells in order and reaches stage 5. -/
  | furnishCellAdmit
  /-- START_SLOW (R362): Radio time still not valid 120 s after start sets STICKY_SLOW. -/
  | startSlow
  /-- FLASH_ERASE (R368): FLASH_CMD erase clears 64 KiB of flash unless it touches the copy in use or an incarnation sector. -/
  | flashErase (r : Requester)
  /-- FLASH_PROGRAM (R368): FLASH_CMD program writes 256 bytes from FLASH_BUF to flash. -/
  | flashProgram (r : Requester)
  /-- FLASH_READ (R381): FLASH_CMD read copies 256 bytes of flash into FLASH_BUF. -/
  | flashRead (r : Requester)
  /-- FLASH_OP_COMPLETE (R381): A flash operation ends and FLASH_STAT.BUSY clears. -/
  | flashOpComplete (ok : Bool)
  /-- LOG_FETCH (R381): A LOG_SEL write fetches that change-log entry into LOG_ENT with its result. -/
  | logFetch (r : Requester) (seq : W64)
  /-- ID (R378): Monitor command that prints identity, incarnation, furnish copy and stage. -/
  | monId
  /-- CAPS (R378): Monitor command that walks the capability list. -/
  | monCaps
  /-- LINKS (R378): Monitor command that prints port and CXL state and counters. -/
  | monLinks
  /-- CELLS (R378): Monitor command that prints cell states, admission and timing state. -/
  | monCells
  /-- TENANTS (R378): Monitor command that prints slot status and use. -/
  | monTenants
  /-- TEMPS (R378): Monitor command that prints junction temperatures and throttle state. -/
  | monTemps
  /-- COUNTERS (R378): Monitor command that prints chip or block counters. -/
  | monCounters (block : CounterBlock)
  /-- LOG (R378): Monitor command that prints the newest change-log entries decoded. -/
  | monLog (n : Nat)
  /-- SELFTEST (R378): Monitor command that runs the sheet self-test on idle quires. -/
  | monSelftest
  /-- BAUD (R377): Monitor command that changes the UART rate after its reply. -/
  | monBaud (rate : Nat)
  /-- UNLOCK (R379): Monitor command that prints a fresh unlock challenge. -/
  | monUnlock
  /-- UNLOCK_RESPONSE (R379): Monitor command that unlocks on a matching HMAC response, with back-off after wrong ones. -/
  | monUnlockResponse (resp : W32)
  /-- LOCK (R379): Monitor command that locks the monitor. -/
  | monLock
  /-- MONITOR_IDLE_LOCK (R379): After 15 minutes without a command the monitor locks. -/
  | monitorIdleLock
  /-- PEEK (R380): Monitor command that reads BAR0 words without side effects. -/
  | monPeek (addr n : Nat)
  /-- POKE (R380): Monitor command that writes one BAR0 word as owner 0xF1. -/
  | monPoke (addr : Nat) (v : W32)
  /-- FLASH (R378): Monitor command that runs a FLASH_CMD operation. -/
  | monFlash (op : Fin 4) (addr : W32)
  /-- COUNTER_CFG_WRITE (R384): A counter configuration write is applied or refused for reserved codes and invalid combinations. -/
  | counterCfgWrite (r : Requester) (unit : CounterUnit) (n : Nat) (v : W64)
  /-- COUNTER_VALUE_WRITE (R388): A counter VALUE write is refused while enabled, else sets VALUE and clears STOPPED. -/
  | counterValueWrite (r : Requester) (unit : CounterUnit) (n : Nat) (v : W64)
  /-- COUNTER_OVERFLOW (R387): An increment past the largest value chains into the next counter or stops the counter, sampling and interrupting. -/
  | counterOverflow (unit : CounterUnit) (n : Nat) (inc : Nat) (pc : W32)
  /-- CNT_FREEZE (R388): CNT_CTL.FREEZE stops or resumes every counter of the chip. -/
  | cntFreeze (r : Requester) (freeze : Bool)
  /-- IRQ_MASK_WRITE (R403): A write to GLB_IRQ_MASK or IRQ_EN that enables an entry with its bit set signals it. -/
  | irqMaskWrite (r : Requester) (target : IrqTarget)
  /-- GPIO_OUT_WRITE (R404): A host write to GPIO_OUT drives output pins, an event on the same pin winning. -/
  | gpioOutWrite (r : Requester) (v : W32)
  /-- THROTTLE_N_ASSERT (R422): THROTTLE_N low brings package power within 20 µs to 70% of TDP or the radio floor level. -/
  | throttleNAssert
  /-- THROTTLE_HOLD_EXPIRY (R422): 1 ms after THROTTLE_N rises the throttle is lifted. -/
  | throttleHoldExpiry
  /-- POWER_MEASURE (R421): Every 10 µs the part measures package power and throttles to hold its limits. -/
  | powerMeasure (watts : Nat)
  /-- JUNCTION_ALERT (R423): The junction reaching 95 °C asserts THERM_ALERT_N and throttles, released below 92 °C. -/
  | junctionAlert (celsius : Nat)
  /-- COOLING_FAULT (R208): The junction reaching 105 °C with nothing left to throttle starts cooling-fault shedding. -/
  | coolingFault
  /-- THERMTRIP (R423): The junction reaching 115 °C asserts THERMTRIP_N and stops every clock within 1 ms. -/
  | thermtrip
  /-- AVS_NO_ACK (R419): A regulator failing three AVSBus attempts keeps its last voltage and limits that die's clock. -/
  | avsNoAck (bus : AvsBus)
  /-- SMBUS_BLOCK_READ (R416): SMBus Block Read 0x01 returns identity, health, temperature and power. -/
  | smbusBlockRead
  /-- SMBUS_ALERT_RESPONSE (R416): The Alert Response Address cycle that reads the part's address releases MG_ALERT_N. -/
  | smbusAlertResponse
  /-- FABRIC_LINK_DOWN (R314): A fabric port's link goes down, so traffic for its destinations is held and moved to the next port up, or fails when none comes up. -/
  | fabricLinkDown (port : Fin 6)
  /-- PERST_N_RELEASE (R360): PERST_N rises and the host port comes up again, so host-window accesses are no longer aborted. -/
  | perstNRelease
  /-- THROTTLE_N_RELEASE (R422): THROTTLE_N rises and starts the 1 ms hold after which the throttle is lifted. -/
  | throttleNRelease
  /-- RADIO_POOL_RELOAD_COMPLETE (R200): Firmware finishes reloading radio programs and hot state into a newly designated radio-home quire pool, and the ream's pool capacity returns. -/
  | radioPoolReloadComplete (ream : Fin 4)
  /-- MEMORY_PATROL_PASS (R336): The patrol of the quire pools every 100 ms and of HBM once in 24 h reads lines, corrects single errors and poisons uncorrectable ones. -/
  | memoryPatrolPass (target : PatrolTarget) (corrected : Nat) (poisoned : List Nat)
  /-- ENGINE_RESULT_BLOCK_WRITE (R221): A queued walker or sampler request is served and its result block is written and becomes ready. -/
  | engineResultBlockWrite (sheet : SheetAt) (tag : Nat)
  /-- LOG_FETCH_COMPLETE (R381): A change-log fetch started by LOG_SEL ends within 2 µs, filling LOG_ENT and setting RESULT while LOG_RD.BUSY clears. -/
  | logFetchComplete
  /-- CELL_BOUNDARY_STOP (R212): A cell under RELEASE, shed or handover stops at its next slot or frame boundary and goes to down or shed. -/
  | cellBoundaryStop (cell : Fin 1024)
  /-- BORROW_WIN_IN_USE (R271): The lender's acceptance of a borrower's connection arrives and the borrowed window moves from connecting to in use. -/
  | borrowWinInUse (w : Fin 16)
  /-- STRIP_ENGINE_WATCHDOG (R198): A coding-strip engine's watchdog expires and the engine is reported with cause engine watchdog. -/
  | stripEngineWatchdog (ream : Fin 4) (engine : Fin 36)
deriving DecidableEq, Repr

end Sys2Proof
end

