-- ==== Sys2Proof/Decode.lean ====
section
/-! DEFINITION. Words that spell commands: the rows of spec/opcode_table.json give no bits, since a block takes its commands from outside
and decodes none. -/

namespace Sys2Proof

/-- The command that a word spells by the table's bits: no row gives any, so no word spells one. -/
def decodeTableWord (_nbits _w : Nat) : Option Instr := none

end Sys2Proof
end

