-- ==== Sys2Proof/Config.lean ====
section
/-! DEFINITION. What the spec leaves to the implementation: constants with no body, so that no proof can
lean on a value. Each is named in an assumption-log row. -/

namespace Sys2Proof.Config

/-- A value the spec leaves open, one per draw of the state's free counter (log entry 4). -/
opaque freeWord : Nat → W64

/-- The FP32 result of function unit function `fn` on word `x` for an AIC (R58, log entry 20). -/
opaque functionUnit : Nat → Nat → W32 → W32

/-- The arithmetic flags such an evaluation raises (log entry 20). -/
opaque functionFlags : Nat → Nat → W32 → BitVec 4

/-- The CI16 amplitude of one lattice unit of a modulation's constellation in FX.DEMAP (R87, log entry 22). -/
opaque demapUnit : Nat → Nat

/-- The binary scale of a modulation's max-log value before the lane's own scale (R87, log entry 22). -/
opaque demapShift : Nat → Int

/-- The sampler's FP32 exp on a word for an AIC, within 1 ulp (R240, log entry 34). -/
opaque samplerExp : Nat → W32 → W32

/-- The sampler's FP32 natural logarithm on a word for an AIC, within 1 ulp (R240, log entry 34). -/
opaque samplerLn : Nat → W32 → W32

/-- The angle unit's FP32 cosine of a fraction of a turn for an AIC, within 1 ulp (R229, log entry 34). -/
opaque ropeCos : Nat → W64 → W32

/-- The angle unit's FP32 sine of a fraction of a turn for an AIC, within 1 ulp (R229, log entry 34). -/
opaque ropeSin : Nat → W64 → W32

/-- A program image verifies when it is loaded (R124, log entry 35). -/
opaque imageVerifies : List Byte → Bool

/-- The program header of an image selects shared draws (R63, R75, log entry 35). -/
opaque imageDraw : List Byte → Bool

end Sys2Proof.Config
end

