-- ==== Sys2Proof/Machine/Bits.lean ====
section
/-! DEFINITION. Bit fields of register words, sparse tables in canonical form, and byte order: the
plain helpers every other file of the machine uses. -/

namespace Sys2Proof.Machine

/-- A bit field of a register: its lowest bit and its width. -/
structure Fld where
  lo : Nat
  w : Nat
deriving DecidableEq, Repr

/-- The value of a field of a word. -/
def fget (x : W64) (f : Fld) : Nat := (x.toNat >>> f.lo) % 2 ^ f.w

/-- The mask of a field. -/
def fmask (f : Fld) : W64 := BitVec.ofNat 64 ((2 ^ f.w - 1) <<< f.lo)

/-- A word with one field replaced; a value too wide for the field is cut to its width. -/
def fput (x : W64) (f : Fld) (v : Nat) : W64 :=
  (x &&& ~~~ fmask f) ||| BitVec.ofNat 64 ((v % 2 ^ f.w) <<< f.lo)

/-- The largest value of a field. -/
def fmax (f : Fld) : Nat := 2 ^ f.w - 1

/-- Bit `k` of a natural number. -/
def bitOf (x k : Nat) : Bool := x.testBit k

/-- Bits `hi` down to `lo` of a natural number. -/
def bitsOf (x hi lo : Nat) : Nat := (x >>> lo) % 2 ^ (hi + 1 - lo)

/-- `x` with bit `k` set. -/
def setBit (x k : Nat) : Nat := x ||| 2 ^ k

/-- `x` with bit `k` cleared. -/
def clearBit (x k : Nat) : Nat := if x.testBit k then x - 2 ^ k else x

/-- The signed reading of the low `w` bits of `x` (two's complement). -/
def signed (w x : Nat) : Int :=
  let y := x % 2 ^ w
  if 2 * y < 2 ^ w then (y : Int) else (y : Int) - (2 ^ w : Nat)

/-- The low `w` bits of an integer in two's complement. -/
def unsign (w : Nat) (x : Int) : Nat := (x % ((2 ^ w : Nat) : Int)).toNat

/-- Rounding up of `a / b`. -/
def ceilDiv (a b : Nat) : Nat := if b = 0 then 0 else (a + b - 1) / b

/-- Round `a` up to a multiple of `b`. -/
def roundUp (a b : Nat) : Nat := ceilDiv a b * b

/-! ### Sparse tables: lists of (key, value) with strictly rising keys -/

/-- A sparse table, sorted by key. -/
abbrev Tab (α : Type) := List (Nat × α)

/-- The entry at a key. -/
def tabGet {α : Type} : Tab α → Nat → Option α
  | [], _ => none
  | (j, v) :: t, k => if j = k then some v else tabGet t k

/-- Put an entry at its place. -/
def tabPut {α : Type} : Tab α → Nat → α → Tab α
  | [], k, v => [(k, v)]
  | (j, w) :: t, k, v =>
    if k < j then (k, v) :: (j, w) :: t
    else if j = k then (k, v) :: t
    else (j, w) :: tabPut t k v

/-- Remove an entry. -/
def tabDel {α : Type} : Tab α → Nat → Tab α
  | [], _ => []
  | (j, w) :: t, k => if j = k then tabDel t k else (j, w) :: tabDel t k

/-- Keys strictly rise. -/
def tabSorted {α : Type} : Tab α → Bool
  | [] => true
  | [_] => true
  | (j, _) :: (k, w) :: t => decide (j < k) && tabSorted ((k, w) :: t)

/-- The entry at a key, or the value an unlisted key has. -/
def tabGetD {α : Type} (t : Tab α) (k : Nat) (d : α) : α := (tabGet t k).getD d

/-- Change one listed entry, or the default of an unlisted one. -/
def tabUpd {α : Type} (t : Tab α) (k : Nat) (d : α) (f : α → α) : Tab α :=
  tabPut t k (f (tabGetD t k d))

/-! ### Lists indexed by number -/

/-- Element `i`, or a default. -/
def nth {α : Type} (l : List α) (i : Nat) (d : α) : α := (l[i]?).getD d

/-- A list with element `i` replaced. -/
def setNth {α : Type} (l : List α) (i : Nat) (v : α) : List α := l.set i v

/-- A list with element `i` changed. -/
def updNth {α : Type} (l : List α) (i : Nat) (f : α → α) : List α :=
  match l[i]? with
  | none => l
  | some v => l.set i (f v)

/-! ### Bytes, little-endian (R6) -/

/-- The `n` bytes of a number, lowest first. -/
def bytesLE : Nat → Nat → List Byte
  | 0, _ => []
  | n + 1, x => BitVec.ofNat 8 x :: bytesLE n (x / 256)

/-- The number that bytes spell, lowest first. -/
def natLE : List Byte → Nat
  | [] => 0
  | b :: t => b.toNat + 256 * natLE t

end Sys2Proof.Machine
end

