-- ==== Sys2Proof/Machine/RegMap.lean ====
section
/-! DEFINITION. The register map: every BAR0 and BAR2 register of the spec with its offset, width,
reset value and fields (R43, R97, R144, R145, R168, R198, R219, R220, R253, R254, R284, R305 to R308,
R332, R358, R381, R384, R393, R395, R400, R402, R405, R407). BAR2 registers are keyed at
0x1000_0000 above their BAR2 offset, past the 256 MiB of BAR0 (R395). -/

namespace Sys2Proof.Machine

/-- The registers of R407 and R406, by name. -/
inductive RegId where
  | ID_PART
  | ID_STEP
  | ID_AIC
  | ID_SERIAL
  | ID_CARD
  | GLB_CTL
  | GLB_STAT
  | UPTIME
  | GLB_IRQ_STAT
  | GLB_IRQ_MASK
  | GPIO_OUT
  | GPIO_IN
  | SCRATCH
  | HMBX_OUT
  | HMBX_IN
  | HMBX_STAT
  | SHMBX
  | LOCK
  | LOCK_STAT
  | LOCK_FORCE
  | BOOT_STAT
  | FURNISH_STAT
  | FLASH_ADDR
  | FLASH_CMD
  | FLASH_STAT
  | FLASH_BUF
  | ADM_CHIP
  | RADIO_CFG
  | SHADOW_STAT
  | MISS_STAT
  | MISS_HI
  | MISS_LO
  | CELL_CTL
  | CELL_STAT
  | PFX_STAT
  | PFX_CNT
  | MSIX_ADDR
  | MSIX_DATA
  | MSIX_CTRL
  | MSIX_PBA
  | TM_STATE
  | CT_SEC
  | CT_NS
  | RT_NOW
  | RT_VIEW
  | RT_OFFSET
  | PTP_DOM_CFG
  | PTP_DOM_STAT
  | HOLD_CFG
  | FREQ_CFG
  | PPS_CFG
  | PPS_IN_STAMP
  | TS_ASYM
  | TSQ_HI
  | TSQ_LO
  | TSQ_STAT
  | EVT_STAGE
  | EVT_CMD
  | EVT_STAT
  | PORT_CFG
  | PORT_STAT
  | PORT_CNT
  | STEER0
  | STEER1
  | SHP_STAGE
  | SHP_CMD
  | SHP_STAT
  | FH_STAT
  | STRM_CFG
  | STRM_GRID
  | STRM_AGC
  | STRM_CNT0
  | STRM_CNT1
  | STRM_CNT2
  | FAB_CFG
  | FAB_STAT
  | FAB_CNT0
  | FAB_CNT1
  | FAB_CNT2
  | TAB_STAGE
  | TAB_CMD
  | TAB_STAT
  | TAB_INFO
  | FPORT_CFG
  | FPORT_STAT
  | FPORT_CNT
  | FSHP_STAGE
  | FSHP_CMD
  | FSHP_STAT
  | DCK_CTL
  | DCK_QUOTA
  | DCK_LIMITS
  | DCK_SHP
  | DCK_FAB
  | DCK_RADIO
  | WIN0
  | WIN1
  | KEY_V
  | KEY_C
  | KEY_CMD
  | TEN_STAT
  | DIRTY_H
  | DIRTY_D
  | DIRTY_CMD
  | DIRTY_STAT
  | SLICE
  | TIER_CFG
  | MIG_CFG
  | TIER_STAT
  | TIER_CNT0
  | TIER_CNT1
  | TIER_CNT2
  | MAP_STAGE
  | MAP_CMD
  | MAP_STAT
  | HOST_POOL
  | HOST_POOL_STAT
  | CXL_STAT
  | MSCHED_CNT
  | LEND_WIN0
  | LEND_WIN1
  | LEND_STAT
  | BORROW_WIN0
  | BORROW_WIN1
  | BORROW_STAT
  | TENANT_USE
  | CHIPC_COUNT
  | CHIPC_CFG
  | CHIPC_SAMPLE
  | CNT_CTL
  | CNT_IRQ
  | LOG_FIRST
  | LOG_NEXT
  | LOG_SEL
  | LOG_RD
  | LOG_STALL_US
  | LOG_ENT
  | HEALTH_STAT
  | ERR_STAT
  | ERR_HI
  | ERR_LO
  | QUIRE_HEALTH
  | RCV_DESC
  | RCV_CMD
  | RCV_STAT
  | MIR_STAGE
  | MIR_CMD
  | MIR_STAT
  | MIR_INFO
  | QUIRE_MAP
  | QC_COUNT
  | QC_CFG
  | QC_SAMPLE
  | WALK_STAT
  | WALK_CNT0
  | WALK_CNT1
  | SHEET_ID
  | SHEET_STAT
  | SHEET_ERR
  | SHEET_CNT
  | SHEET_CTL
  | SHEET_FAULT_ADDR
  | FELT_TAG
  | SC_COUNT
  | SC_CFG
  | SC_SAMPLE
  | SCHED_CFG
  | SCHED_STAT
  | SCHED_CNT0
  | SCHED_CNT1
  | COUCH_LAST
  | STRIP_CFG
  | STRIP_STAT
  | STRIP_ERR
  | STRIP_CNT0
  | STRIP_CNT1
  | STRIP_CNT2
  | FLOOR_CFG
  | REAM_CAP
  | REAM_LOAD
  | GUST_CNT
  | ACQ_STAT
  | GEN_STAT
  | SMP_CNT
  | DIG_CNT
  | RC_COUNT
  | RC_CFG
  | RC_SAMPLE
  | SQ_TAIL
  | CQ_HEAD
  | DB_ERR
  | CQ_FULL_STALL
  | ETH_TX_TAIL
  | ETH_RX_TAIL
  | FAPI_TAIL
  | FAPI_HEAD
  | RX_NOBUF
  | MBX_OUT
  | MBX_IN
  | MBX_STAT
  | SHMBX_A
  | LOCK_A
  | RING_STAGE
  | RING_CMD
  | RING_STAT
deriving DecidableEq, Repr

/-- A register: the key of its word in the register file and its reset word. -/
structure RegRef where
  addr : Nat
  rst : Nat
deriving DecidableEq, Repr

/-- How the words of a register lie (R6, R7): a plain word, a value word with its complement 4, 8 or
16 bytes above, or a word computed from other state. -/
inductive RegKind where
  | plain32 | plain64 | pair32 | pair64 | pair128 | view32 | view64
deriving DecidableEq, Repr

/-- The level that owns a register (R7, R334). -/
inductive RegLevel where
  | sheet | quire | ream | chip
deriving DecidableEq, Repr

/-- A condition that R427 puts on a field of a complemented pair. -/
inductive FldCheck where
  | range (f : Fld) (lo hi : Nat)
  | signedRange (f : Fld) (m : Nat)
  | zeroOrAtLeast (f : Fld) (m : Nat)
  | rangeIf (en f : Fld) (lo hi : Nat)
  | multiple (f : Fld) (m : Nat)
  | atMost (f g : Fld) (lo : Nat)
deriving DecidableEq, Repr

/-- A row of the register map: base offset, dimensions (count and stride, outermost first), word
layout, reset word (that of entry 0 apart in DCK_CTL, TEN_STAT and SLICE), the masks of its read/write, write-1-to-clear and read-clears bits, whether R407 logs it, its
level, and the range checks of R427. -/
structure RegDesc where
  id : RegId
  base : Nat
  dims : List (Nat × Nat)
  kind : RegKind
  rst : Nat
  rw : Nat
  w1c : Nat
  rc : Nat
  logged : Bool
  level : RegLevel
  checks : List FldCheck
deriving DecidableEq, Repr

/-! ### Registers -/

/-- R400, 17_register_map.md. -/
def R.ID_PART : RegRef := ⟨0x0, 0xf000⟩
/-- R400, 17_register_map.md. -/
def R.ID_STEP : RegRef := ⟨0x4, 0x0⟩
/-- R400, 17_register_map.md. -/
def R.ID_AIC : RegRef := ⟨0x8, 0x0⟩
/-- R400, 17_register_map.md. -/
def R.ID_SERIAL : RegRef := ⟨0x10, 0x0⟩
/-- R400, 17_register_map.md. -/
def R.ID_CARD : RegRef := ⟨0x18, 0x0⟩
/-- R402, 17_register_map.md. -/
def R.GLB_CTL : RegRef := ⟨0x800, 0x1⟩
/-- R402, 17_register_map.md. -/
def R.GLB_STAT : RegRef := ⟨0x810, 0x0⟩
/-- R402, 17_register_map.md. -/
def R.UPTIME : RegRef := ⟨0x818, 0x0⟩
/-- R402, 17_register_map.md. -/
def R.GLB_IRQ_STAT : RegRef := ⟨0x820, 0x0⟩
/-- R402, 17_register_map.md. -/
def R.GLB_IRQ_MASK : RegRef := ⟨0x828, 0x0⟩
/-- R402, 17_register_map.md. -/
def R.GPIO_OUT : RegRef := ⟨0x830, 0x0⟩
/-- R402, 17_register_map.md. -/
def R.GPIO_IN : RegRef := ⟨0x838, 0x0⟩
/-- R402, 17_register_map.md. -/
def R.SCRATCH (i : Nat) : RegRef := ⟨0x880 + i * 0x8, 0x0⟩
/-- R308, 12_tenants.md. -/
def R.HMBX_OUT (i : Nat) : RegRef := ⟨0x10000 + i * 0x8, 0x0⟩
/-- R308, 12_tenants.md. -/
def R.HMBX_IN (i : Nat) : RegRef := ⟨0x10020 + i * 0x8, 0x0⟩
/-- R308, 12_tenants.md. -/
def R.HMBX_STAT : RegRef := ⟨0x10040, 0x0⟩
/-- R308, 12_tenants.md. -/
def R.SHMBX (i : Nat) : RegRef := ⟨0x10100 + i * 0x8, 0x0⟩
/-- R308, 12_tenants.md. -/
def R.LOCK (i : Nat) : RegRef := ⟨0x10200 + i * 0x8, 0x0⟩
/-- R308, 12_tenants.md. -/
def R.LOCK_STAT : RegRef := ⟨0x10300, 0x0⟩
/-- R308, 12_tenants.md. -/
def R.LOCK_FORCE : RegRef := ⟨0x10308, 0x0⟩
/-- R381, 15_start_image_monitor.md. -/
def R.BOOT_STAT : RegRef := ⟨0x20000, 0x0⟩
/-- R381, 15_start_image_monitor.md. -/
def R.FURNISH_STAT : RegRef := ⟨0x20008, 0x0⟩
/-- R381, 15_start_image_monitor.md. -/
def R.FLASH_ADDR : RegRef := ⟨0x20010, 0x0⟩
/-- R381, 15_start_image_monitor.md. -/
def R.FLASH_CMD : RegRef := ⟨0x20018, 0x0⟩
/-- R381, 15_start_image_monitor.md. -/
def R.FLASH_STAT : RegRef := ⟨0x20020, 0x0⟩
/-- R381, 15_start_image_monitor.md. -/
def R.FLASH_BUF (i : Nat) : RegRef := ⟨0x20100 + i * 0x8, 0x0⟩
/-- R219, 09_slot_guarantee.md. -/
def R.ADM_CHIP : RegRef := ⟨0x80000, 0x0⟩
/-- R219, 09_slot_guarantee.md. -/
def R.RADIO_CFG : RegRef := ⟨0x80008, 0x258006480000a00⟩
/-- R219, 09_slot_guarantee.md. -/
def R.SHADOW_STAT : RegRef := ⟨0x80020, 0x0⟩
/-- R219, 09_slot_guarantee.md. -/
def R.MISS_STAT : RegRef := ⟨0x80028, 0x0⟩
/-- R219, 09_slot_guarantee.md. -/
def R.MISS_HI : RegRef := ⟨0x80030, 0x0⟩
/-- R219, 09_slot_guarantee.md. -/
def R.MISS_LO : RegRef := ⟨0x80038, 0x0⟩
/-- R219, 09_slot_guarantee.md. -/
def R.CELL_CTL (i : Nat) : RegRef := ⟨0x81000 + i * 0x20, 0x40000000⟩
/-- R219, 09_slot_guarantee.md. -/
def R.CELL_STAT (i : Nat) : RegRef := ⟨0x81010 + i * 0x20, 0x0⟩
/-- R254, 10_generation_engines.md. -/
def R.PFX_STAT : RegRef := ⟨0x90000, 0x0⟩
/-- R254, 10_generation_engines.md. -/
def R.PFX_CNT : RegRef := ⟨0x90008, 0x0⟩
/-- R395, 17_register_map.md. -/
def R.MSIX_ADDR (i : Nat) : RegRef := ⟨0xf0000 + i * 0x10, 0x0⟩
/-- R395, 17_register_map.md. -/
def R.MSIX_DATA (i : Nat) : RegRef := ⟨0xf0008 + i * 0x10, 0x0⟩
/-- R395, 17_register_map.md. -/
def R.MSIX_CTRL (i : Nat) : RegRef := ⟨0xf000c + i * 0x10, 0x1⟩
/-- R395, 17_register_map.md. -/
def R.MSIX_PBA (i : Nat) : RegRef := ⟨0xf8000 + i * 0x8, 0x0⟩
/-- R43, 02_radio_time.md. -/
def R.TM_STATE : RegRef := ⟨0x100000, 0x0⟩
/-- R43, 02_radio_time.md. -/
def R.CT_SEC : RegRef := ⟨0x100008, 0x0⟩
/-- R43, 02_radio_time.md. -/
def R.CT_NS : RegRef := ⟨0x100010, 0x0⟩
/-- R43, 02_radio_time.md. -/
def R.RT_NOW : RegRef := ⟨0x100018, 0x0⟩
/-- R43, 02_radio_time.md. -/
def R.RT_VIEW (i : Nat) : RegRef := ⟨0x100020 + i * 0x8, 0x0⟩
/-- R43, 02_radio_time.md. -/
def R.RT_OFFSET : RegRef := ⟨0x100040, 0x0⟩
/-- R43, 02_radio_time.md. -/
def R.PTP_DOM_CFG (i : Nat) : RegRef := ⟨0x100080 + i * 0x10, 0x18000708012c80⟩
/-- R43, 02_radio_time.md. -/
def R.PTP_DOM_STAT (i : Nat) : RegRef := ⟨0x1000a0 + i * 0x8, 0xff00000000000000⟩
/-- R43, 02_radio_time.md. -/
def R.HOLD_CFG : RegRef := ⟨0x1000c0, 0x0⟩
/-- R43, 02_radio_time.md. -/
def R.FREQ_CFG : RegRef := ⟨0x1000c8, 0x0⟩
/-- R43, 02_radio_time.md. -/
def R.PPS_CFG : RegRef := ⟨0x1000d0, 0x0⟩
/-- R43, 02_radio_time.md. -/
def R.PPS_IN_STAMP : RegRef := ⟨0x1000d8, 0x0⟩
/-- R43, 02_radio_time.md. -/
def R.TS_ASYM (i : Nat) : RegRef := ⟨0x100100 + i * 0x4, 0x0⟩
/-- R43, 02_radio_time.md. -/
def R.TSQ_HI (i : Nat) : RegRef := ⟨0x100200 + i * 0x20, 0x0⟩
/-- R43, 02_radio_time.md. -/
def R.TSQ_LO (i : Nat) : RegRef := ⟨0x100208 + i * 0x20, 0x0⟩
/-- R43, 02_radio_time.md. -/
def R.TSQ_STAT (i : Nat) : RegRef := ⟨0x100210 + i * 0x20, 0x0⟩
/-- R43, 02_radio_time.md. -/
def R.EVT_STAGE (i : Nat) : RegRef := ⟨0x101000 + i * 0x8, 0x0⟩
/-- R43, 02_radio_time.md. -/
def R.EVT_CMD : RegRef := ⟨0x101020, 0x0⟩
/-- R43, 02_radio_time.md. -/
def R.EVT_STAT : RegRef := ⟨0x101028, 0x0⟩
/-- R168, 07_fronthaul_ports.md. -/
def R.PORT_CFG (i : Nat) : RegRef := ⟨0x200000 + i * 0x10000, 0x140100⟩
/-- R168, 07_fronthaul_ports.md. -/
def R.PORT_STAT (i : Nat) : RegRef := ⟨0x200008 + i * 0x10000, 0x0⟩
/-- R168, 07_fronthaul_ports.md. -/
def R.PORT_CNT (r q p : Nat) : RegRef := ⟨0x200100 + r * 0x10000 + q * 0x80 + p * 0x8, 0x0⟩
/-- R168, 07_fronthaul_ports.md. -/
def R.STEER0 (i j : Nat) : RegRef := ⟨0x201000 + i * 0x10000 + j * 0x20, 0x0⟩
/-- R168, 07_fronthaul_ports.md. -/
def R.STEER1 (i j : Nat) : RegRef := ⟨0x201008 + i * 0x10000 + j * 0x20, 0x0⟩
/-- R168, 07_fronthaul_ports.md. -/
def R.SHP_STAGE (i j : Nat) : RegRef := ⟨0x204000 + i * 0x10000 + j * 0x8, 0x0⟩
/-- R168, 07_fronthaul_ports.md. -/
def R.SHP_CMD (i : Nat) : RegRef := ⟨0x204020 + i * 0x10000, 0x0⟩
/-- R168, 07_fronthaul_ports.md. -/
def R.SHP_STAT (i : Nat) : RegRef := ⟨0x204028 + i * 0x10000, 0x0⟩
/-- R168, 07_fronthaul_ports.md. -/
def R.FH_STAT : RegRef := ⟨0x240000, 0x0⟩
/-- R168, 07_fronthaul_ports.md. -/
def R.STRM_CFG (i : Nat) : RegRef := ⟨0x280000 + i * 0x80, 0x800⟩
/-- R168, 07_fronthaul_ports.md. -/
def R.STRM_GRID (i : Nat) : RegRef := ⟨0x280010 + i * 0x80, 0x0⟩
/-- R168, 07_fronthaul_ports.md. -/
def R.STRM_AGC (i : Nat) : RegRef := ⟨0x280020 + i * 0x80, 0x600c0e0400000000⟩
/-- R168, 07_fronthaul_ports.md. -/
def R.STRM_CNT0 (i : Nat) : RegRef := ⟨0x280030 + i * 0x80, 0x0⟩
/-- R168, 07_fronthaul_ports.md. -/
def R.STRM_CNT1 (i : Nat) : RegRef := ⟨0x280038 + i * 0x80, 0x0⟩
/-- R168, 07_fronthaul_ports.md. -/
def R.STRM_CNT2 (i : Nat) : RegRef := ⟨0x280040 + i * 0x80, 0x0⟩
/-- R332, 13_fabric.md. -/
def R.FAB_CFG : RegRef := ⟨0x300000, 0x7d00a100000⟩
/-- R332, 13_fabric.md. -/
def R.FAB_STAT : RegRef := ⟨0x300010, 0x0⟩
/-- R332, 13_fabric.md. -/
def R.FAB_CNT0 : RegRef := ⟨0x300018, 0x0⟩
/-- R332, 13_fabric.md. -/
def R.FAB_CNT1 : RegRef := ⟨0x300020, 0x0⟩
/-- R332, 13_fabric.md. -/
def R.FAB_CNT2 : RegRef := ⟨0x300028, 0x0⟩
/-- R332, 13_fabric.md. -/
def R.TAB_STAGE (i : Nat) : RegRef := ⟨0x300100 + i * 0x8, 0x0⟩
/-- R332, 13_fabric.md. -/
def R.TAB_CMD : RegRef := ⟨0x300120, 0x0⟩
/-- R332, 13_fabric.md. -/
def R.TAB_STAT : RegRef := ⟨0x300128, 0x0⟩
/-- R332, 13_fabric.md. -/
def R.TAB_INFO : RegRef := ⟨0x300130, 0x0⟩
/-- R332, 13_fabric.md. -/
def R.FPORT_CFG (i : Nat) : RegRef := ⟨0x310000 + i * 0x1000, 0x0⟩
/-- R332, 13_fabric.md. -/
def R.FPORT_STAT (i : Nat) : RegRef := ⟨0x310008 + i * 0x1000, 0x0⟩
/-- R332, 13_fabric.md. -/
def R.FPORT_CNT (i j : Nat) : RegRef := ⟨0x310100 + i * 0x1000 + j * 0x8, 0x0⟩
/-- R332, 13_fabric.md. -/
def R.FSHP_STAGE (i j : Nat) : RegRef := ⟨0x310400 + i * 0x1000 + j * 0x8, 0x0⟩
/-- R332, 13_fabric.md. -/
def R.FSHP_CMD (i : Nat) : RegRef := ⟨0x310420 + i * 0x1000, 0x0⟩
/-- R332, 13_fabric.md. -/
def R.FSHP_STAT (i : Nat) : RegRef := ⟨0x310428 + i * 0x1000, 0x0⟩
/-- R305, 12_tenants.md. -/
def R.DCK_CTL (i : Nat) : RegRef := ⟨0x400000 + i * 0x1000, if i = 0 then 0x800000003e80000 else 0x3e80000⟩
/-- R305, 12_tenants.md. -/
def R.DCK_QUOTA (i : Nat) : RegRef := ⟨0x400010 + i * 0x1000, 0x0⟩
/-- R305, 12_tenants.md. -/
def R.DCK_LIMITS (i : Nat) : RegRef := ⟨0x400020 + i * 0x1000, 0x0⟩
/-- R305, 12_tenants.md. -/
def R.DCK_SHP (i : Nat) : RegRef := ⟨0x400030 + i * 0x1000, 0x0⟩
/-- R305, 12_tenants.md. -/
def R.DCK_FAB (i j : Nat) : RegRef := ⟨0x400040 + i * 0x1000 + j * 0x10, 0x0⟩
/-- R305, 12_tenants.md. -/
def R.DCK_RADIO (i : Nat) : RegRef := ⟨0x400060 + i * 0x1000, 0x0⟩
/-- R305, 12_tenants.md. -/
def R.WIN0 (i j : Nat) : RegRef := ⟨0x400100 + i * 0x1000 + j * 0x20, 0x0⟩
/-- R305, 12_tenants.md. -/
def R.WIN1 (i j : Nat) : RegRef := ⟨0x400108 + i * 0x1000 + j * 0x20, 0x0⟩
/-- R305, 12_tenants.md. -/
def R.KEY_V (i j : Nat) : RegRef := ⟨0x400400 + i * 0x1000 + j * 0x8, 0x0⟩
/-- R305, 12_tenants.md. -/
def R.KEY_C (i j : Nat) : RegRef := ⟨0x400440 + i * 0x1000 + j * 0x8, 0x0⟩
/-- R305, 12_tenants.md. -/
def R.KEY_CMD (i : Nat) : RegRef := ⟨0x400480 + i * 0x1000, 0x0⟩
/-- R305, 12_tenants.md. -/
def R.TEN_STAT (i : Nat) : RegRef := ⟨0x400488 + i * 0x1000, if i = 0 then 0x4000000000000000 else 0⟩
/-- R305, 12_tenants.md. -/
def R.DIRTY_H (i j : Nat) : RegRef := ⟨0x400500 + i * 0x1000 + j * 0x8, 0x0⟩
/-- R305, 12_tenants.md. -/
def R.DIRTY_D (i j : Nat) : RegRef := ⟨0x400510 + i * 0x1000 + j * 0x8, 0x0⟩
/-- R305, 12_tenants.md. -/
def R.DIRTY_CMD (i : Nat) : RegRef := ⟨0x400520 + i * 0x1000, 0x0⟩
/-- R305, 12_tenants.md. -/
def R.DIRTY_STAT (i : Nat) : RegRef := ⟨0x400528 + i * 0x1000, 0x0⟩
/-- R306, 12_tenants.md. -/
def R.SLICE (i : Nat) : RegRef := ⟨0x440000 + i * 0x10, if i = 0 then 1 else 0⟩
/-- R284, 11_memory_tiers.md. -/
def R.TIER_CFG : RegRef := ⟨0x500000, 0x1020000000000001⟩
/-- R284, 11_memory_tiers.md. -/
def R.MIG_CFG : RegRef := ⟨0x500010, 0x5a50100a00000000⟩
/-- R284, 11_memory_tiers.md. -/
def R.TIER_STAT : RegRef := ⟨0x500020, 0x0⟩
/-- R284, 11_memory_tiers.md. -/
def R.TIER_CNT0 : RegRef := ⟨0x500028, 0x0⟩
/-- R284, 11_memory_tiers.md. -/
def R.TIER_CNT1 : RegRef := ⟨0x500030, 0x0⟩
/-- R284, 11_memory_tiers.md. -/
def R.TIER_CNT2 : RegRef := ⟨0x500038, 0x0⟩
/-- R284, 11_memory_tiers.md. -/
def R.MAP_STAGE (i : Nat) : RegRef := ⟨0x500100 + i * 0x8, 0x0⟩
/-- R284, 11_memory_tiers.md. -/
def R.MAP_CMD : RegRef := ⟨0x500120, 0x0⟩
/-- R284, 11_memory_tiers.md. -/
def R.MAP_STAT : RegRef := ⟨0x500128, 0x0⟩
/-- R284, 11_memory_tiers.md. -/
def R.HOST_POOL (i : Nat) : RegRef := ⟨0x500200 + i * 0x10, 0x0⟩
/-- R284, 11_memory_tiers.md. -/
def R.HOST_POOL_STAT (i : Nat) : RegRef := ⟨0x500280 + i * 0x8, 0x0⟩
/-- R284, 11_memory_tiers.md. -/
def R.CXL_STAT (i : Nat) : RegRef := ⟨0x500300 + i * 0x8, 0x0⟩
/-- R284, 11_memory_tiers.md. -/
def R.MSCHED_CNT (i : Nat) : RegRef := ⟨0x500400 + i * 0x8, 0x0⟩
/-- R284, 11_memory_tiers.md. -/
def R.LEND_WIN0 (i : Nat) : RegRef := ⟨0x501000 + i * 0x20, 0x0⟩
/-- R284, 11_memory_tiers.md. -/
def R.LEND_WIN1 (i : Nat) : RegRef := ⟨0x501008 + i * 0x20, 0x0⟩
/-- R284, 11_memory_tiers.md. -/
def R.LEND_STAT (i : Nat) : RegRef := ⟨0x501400 + i * 0x8, 0x0⟩
/-- R284, 11_memory_tiers.md. -/
def R.BORROW_WIN0 (i : Nat) : RegRef := ⟨0x502000 + i * 0x20, 0x0⟩
/-- R284, 11_memory_tiers.md. -/
def R.BORROW_WIN1 (i : Nat) : RegRef := ⟨0x502008 + i * 0x20, 0x0⟩
/-- R284, 11_memory_tiers.md. -/
def R.BORROW_STAT (i : Nat) : RegRef := ⟨0x502400 + i * 0x8, 0x0⟩
/-- R284, 11_memory_tiers.md. -/
def R.TENANT_USE (i : Nat) : RegRef := ⟨0x503000 + i * 0x8, 0x0⟩
/-- R384, 16_counters.md. -/
def R.CHIPC_COUNT (i : Nat) : RegRef := ⟨0x600000 + i * 0x10, 0x0⟩
/-- R384, 16_counters.md. -/
def R.CHIPC_CFG (i : Nat) : RegRef := ⟨0x600008 + i * 0x10, 0x0⟩
/-- R384, 16_counters.md. -/
def R.CHIPC_SAMPLE (i : Nat) : RegRef := ⟨0x600800 + i * 0x8, 0x0⟩
/-- R393, 16_counters.md. -/
def R.CNT_CTL : RegRef := ⟨0x600c00, 0x0⟩
/-- R393, 16_counters.md. -/
def R.CNT_IRQ : RegRef := ⟨0x600c08, 0x0⟩
/-- R381, 15_start_image_monitor.md. -/
def R.LOG_FIRST : RegRef := ⟨0x700000, 0x0⟩
/-- R381, 15_start_image_monitor.md. -/
def R.LOG_NEXT : RegRef := ⟨0x700008, 0x0⟩
/-- R381, 15_start_image_monitor.md. -/
def R.LOG_SEL : RegRef := ⟨0x700010, 0x0⟩
/-- R381, 15_start_image_monitor.md. -/
def R.LOG_RD : RegRef := ⟨0x700018, 0x0⟩
/-- R381, 15_start_image_monitor.md. -/
def R.LOG_STALL_US : RegRef := ⟨0x700020, 0x0⟩
/-- R381, 15_start_image_monitor.md. -/
def R.LOG_ENT (i : Nat) : RegRef := ⟨0x700040 + i * 0x8, 0x0⟩
/-- R358, 14_fault_recovery.md. -/
def R.HEALTH_STAT : RegRef := ⟨0x800000, 0x2fa0000000400000⟩
/-- R358, 14_fault_recovery.md. -/
def R.ERR_STAT : RegRef := ⟨0x800008, 0x0⟩
/-- R358, 14_fault_recovery.md. -/
def R.ERR_HI : RegRef := ⟨0x800010, 0x0⟩
/-- R358, 14_fault_recovery.md. -/
def R.ERR_LO : RegRef := ⟨0x800018, 0x0⟩
/-- R358, 14_fault_recovery.md. -/
def R.QUIRE_HEALTH (i : Nat) : RegRef := ⟨0x800100 + i * 0x8, 0x20400000⟩
/-- R358, 14_fault_recovery.md. -/
def R.RCV_DESC : RegRef := ⟨0x800200, 0x0⟩
/-- R358, 14_fault_recovery.md. -/
def R.RCV_CMD : RegRef := ⟨0x800210, 0x0⟩
/-- R358, 14_fault_recovery.md. -/
def R.RCV_STAT : RegRef := ⟨0x800218, 0x0⟩
/-- R358, 14_fault_recovery.md. -/
def R.MIR_STAGE (i : Nat) : RegRef := ⟨0x800300 + i * 0x8, 0x0⟩
/-- R358, 14_fault_recovery.md. -/
def R.MIR_CMD : RegRef := ⟨0x800320, 0x0⟩
/-- R358, 14_fault_recovery.md. -/
def R.MIR_STAT : RegRef := ⟨0x800328, 0x0⟩
/-- R358, 14_fault_recovery.md. -/
def R.MIR_INFO (i : Nat) : RegRef := ⟨0x800400 + i * 0x8, 0x0⟩
/-- R405, 17_register_map.md. -/
def R.QUIRE_MAP (r q p : Nat) : RegRef := ⟨0x1000000 + r * 0x1000000 + q * 0x100000 + p * 0x8, 0x0⟩
/-- R384, 16_counters.md. -/
def R.QC_COUNT (r q p : Nat) : RegRef := ⟨0x1010000 + r * 0x1000000 + q * 0x100000 + p * 0x10, 0x0⟩
/-- R384, 16_counters.md. -/
def R.QC_CFG (r q p : Nat) : RegRef := ⟨0x1010008 + r * 0x1000000 + q * 0x100000 + p * 0x10, 0x0⟩
/-- R384, 16_counters.md. -/
def R.QC_SAMPLE (r q p : Nat) : RegRef := ⟨0x1010200 + r * 0x1000000 + q * 0x100000 + p * 0x8, 0x0⟩
/-- R253, 10_generation_engines.md. -/
def R.WALK_STAT (i j : Nat) : RegRef := ⟨0x1020000 + i * 0x1000000 + j * 0x100000, 0x0⟩
/-- R253, 10_generation_engines.md. -/
def R.WALK_CNT0 (i j : Nat) : RegRef := ⟨0x1020008 + i * 0x1000000 + j * 0x100000, 0x0⟩
/-- R253, 10_generation_engines.md. -/
def R.WALK_CNT1 (i j : Nat) : RegRef := ⟨0x1020010 + i * 0x1000000 + j * 0x100000, 0x0⟩
/-- R97, 04_sheet_core.md. -/
def R.SHEET_ID (r q p : Nat) : RegRef := ⟨0x1040000 + r * 0x1000000 + q * 0x100000 + p * 0x1000, 0x0⟩
/-- R97, 04_sheet_core.md. -/
def R.SHEET_STAT (r q p : Nat) : RegRef := ⟨0x1040008 + r * 0x1000000 + q * 0x100000 + p * 0x1000, 0xffff⟩
/-- R97, 04_sheet_core.md. -/
def R.SHEET_ERR (r q p : Nat) : RegRef := ⟨0x1040010 + r * 0x1000000 + q * 0x100000 + p * 0x1000, 0x0⟩
/-- R97, 04_sheet_core.md. -/
def R.SHEET_CNT (r q p : Nat) : RegRef := ⟨0x1040018 + r * 0x1000000 + q * 0x100000 + p * 0x1000, 0x0⟩
/-- R97, 04_sheet_core.md. -/
def R.SHEET_CTL (r q p : Nat) : RegRef := ⟨0x1040020 + r * 0x1000000 + q * 0x100000 + p * 0x1000, 0x1⟩
/-- R97, 04_sheet_core.md. -/
def R.SHEET_FAULT_ADDR (r q p : Nat) : RegRef := ⟨0x1040028 + r * 0x1000000 + q * 0x100000 + p * 0x1000, 0x0⟩
/-- R97, 04_sheet_core.md. -/
def R.FELT_TAG (r q p k : Nat) : RegRef := ⟨0x1040400 + r * 0x1000000 + q * 0x100000 + p * 0x1000 + k * 0x4, 0x0⟩
/-- R384, 16_counters.md. -/
def R.SC_COUNT (r q p k : Nat) : RegRef := ⟨0x1040100 + r * 0x1000000 + q * 0x100000 + p * 0x1000 + k * 0x10, 0x0⟩
/-- R384, 16_counters.md. -/
def R.SC_CFG (r q p k : Nat) : RegRef := ⟨0x1040108 + r * 0x1000000 + q * 0x100000 + p * 0x1000 + k * 0x10, 0x0⟩
/-- R384, 16_counters.md. -/
def R.SC_SAMPLE (r q p k : Nat) : RegRef := ⟨0x1040200 + r * 0x1000000 + q * 0x100000 + p * 0x1000 + k * 0x8, 0xffff0000⟩
/-- R145, 06_commands.md. -/
def R.SCHED_CFG (i : Nat) : RegRef := ⟨0x1800000 + i * 0x1000000, 0x280007⟩
/-- R145, 06_commands.md. -/
def R.SCHED_STAT (i : Nat) : RegRef := ⟨0x1800008 + i * 0x1000000, 0x0⟩
/-- R145, 06_commands.md. -/
def R.SCHED_CNT0 (i : Nat) : RegRef := ⟨0x1800010 + i * 0x1000000, 0x0⟩
/-- R145, 06_commands.md. -/
def R.SCHED_CNT1 (i : Nat) : RegRef := ⟨0x1800018 + i * 0x1000000, 0x0⟩
/-- R145, 06_commands.md. -/
def R.COUCH_LAST (i : Nat) : RegRef := ⟨0x1800020 + i * 0x1000000, 0x0⟩
/-- R198, 08_high_phy.md. -/
def R.STRIP_CFG (i : Nat) : RegRef := ⟨0x1900000 + i * 0x1000000, 0xfffffffff0000000⟩
/-- R198, 08_high_phy.md. -/
def R.STRIP_STAT (i : Nat) : RegRef := ⟨0x1900010 + i * 0x1000000, 0x0⟩
/-- R198, 08_high_phy.md. -/
def R.STRIP_ERR (i : Nat) : RegRef := ⟨0x1900018 + i * 0x1000000, 0x0⟩
/-- R198, 08_high_phy.md. -/
def R.STRIP_CNT0 (i : Nat) : RegRef := ⟨0x1900020 + i * 0x1000000, 0x0⟩
/-- R198, 08_high_phy.md. -/
def R.STRIP_CNT1 (i : Nat) : RegRef := ⟨0x1900028 + i * 0x1000000, 0x0⟩
/-- R198, 08_high_phy.md. -/
def R.STRIP_CNT2 (i : Nat) : RegRef := ⟨0x1900030 + i * 0x1000000, 0x0⟩
/-- R220, 09_slot_guarantee.md. -/
def R.FLOOR_CFG (i : Nat) : RegRef := ⟨0x1a00000 + i * 0x1000000, 0x408000040⟩
/-- R220, 09_slot_guarantee.md. -/
def R.REAM_CAP (i : Nat) : RegRef := ⟨0x1a00010 + i * 0x1000000, 0x0⟩
/-- R220, 09_slot_guarantee.md. -/
def R.REAM_LOAD (i : Nat) : RegRef := ⟨0x1a00018 + i * 0x1000000, 0x0⟩
/-- R220, 09_slot_guarantee.md. -/
def R.GUST_CNT (i : Nat) : RegRef := ⟨0x1a00020 + i * 0x1000000, 0x0⟩
/-- R220, 09_slot_guarantee.md. -/
def R.ACQ_STAT (i : Nat) : RegRef := ⟨0x1a00028 + i * 0x1000000, 0x0⟩
/-- R254, 10_generation_engines.md. -/
def R.GEN_STAT (i : Nat) : RegRef := ⟨0x1b00000 + i * 0x1000000, 0x0⟩
/-- R254, 10_generation_engines.md. -/
def R.SMP_CNT (i : Nat) : RegRef := ⟨0x1b00008 + i * 0x1000000, 0x0⟩
/-- R254, 10_generation_engines.md. -/
def R.DIG_CNT (i : Nat) : RegRef := ⟨0x1b00010 + i * 0x1000000, 0x0⟩
/-- R384, 16_counters.md. -/
def R.RC_COUNT (i j : Nat) : RegRef := ⟨0x1c00000 + i * 0x1000000 + j * 0x10, 0x0⟩
/-- R384, 16_counters.md. -/
def R.RC_CFG (i j : Nat) : RegRef := ⟨0x1c00008 + i * 0x1000000 + j * 0x10, 0x0⟩
/-- R384, 16_counters.md. -/
def R.RC_SAMPLE (i j : Nat) : RegRef := ⟨0x1c00400 + i * 0x1000000 + j * 0x8, 0x0⟩
/-- R144, 06_commands.md. -/
def R.SQ_TAIL (i j : Nat) : RegRef := ⟨0x10000000 + i * 0x1000 + j * 0x8, 0x0⟩
/-- R144, 06_commands.md. -/
def R.CQ_HEAD (i j : Nat) : RegRef := ⟨0x10000200 + i * 0x1000 + j * 0x8, 0x0⟩
/-- R144, 06_commands.md. -/
def R.DB_ERR (i : Nat) : RegRef := ⟨0x10000400 + i * 0x1000, 0x0⟩
/-- R144, 06_commands.md. -/
def R.CQ_FULL_STALL (i : Nat) : RegRef := ⟨0x10000408 + i * 0x1000, 0x0⟩
/-- R307, 12_tenants.md. -/
def R.ETH_TX_TAIL (i j : Nat) : RegRef := ⟨0x10000500 + i * 0x1000 + j * 0x8, 0x0⟩
/-- R307, 12_tenants.md. -/
def R.ETH_RX_TAIL (i j : Nat) : RegRef := ⟨0x10000600 + i * 0x1000 + j * 0x8, 0x0⟩
/-- R307, 12_tenants.md. -/
def R.FAPI_TAIL (i : Nat) : RegRef := ⟨0x10000800 + i * 0x1000, 0x0⟩
/-- R307, 12_tenants.md. -/
def R.FAPI_HEAD (i : Nat) : RegRef := ⟨0x10000808 + i * 0x1000, 0x0⟩
/-- R307, 12_tenants.md. -/
def R.RX_NOBUF (i : Nat) : RegRef := ⟨0x10000810 + i * 0x1000, 0x0⟩
/-- R307, 12_tenants.md. -/
def R.MBX_OUT (i j : Nat) : RegRef := ⟨0x10000c00 + i * 0x1000 + j * 0x8, 0x0⟩
/-- R307, 12_tenants.md. -/
def R.MBX_IN (i j : Nat) : RegRef := ⟨0x10000c20 + i * 0x1000 + j * 0x8, 0x0⟩
/-- R307, 12_tenants.md. -/
def R.MBX_STAT (i : Nat) : RegRef := ⟨0x10000c40 + i * 0x1000, 0x0⟩
/-- R307, 12_tenants.md. -/
def R.SHMBX_A (i j : Nat) : RegRef := ⟨0x10000d00 + i * 0x1000 + j * 0x8, 0x0⟩
/-- R307, 12_tenants.md. -/
def R.LOCK_A (i j : Nat) : RegRef := ⟨0x10000d80 + i * 0x1000 + j * 0x8, 0x0⟩
/-- R307, 12_tenants.md. -/
def R.RING_STAGE (i j : Nat) : RegRef := ⟨0x10000e00 + i * 0x1000 + j * 0x8, 0x0⟩
/-- R307, 12_tenants.md. -/
def R.RING_CMD (i : Nat) : RegRef := ⟨0x10000e20 + i * 0x1000, 0x0⟩
/-- R307, 12_tenants.md. -/
def R.RING_STAT (i : Nat) : RegRef := ⟨0x10000e28 + i * 0x1000, 0x0⟩

/-! ### Fields -/

def F.ID_PART.FAMILY : Fld := ⟨12, 4⟩
def F.ID_PART.STACKS : Fld := ⟨4, 8⟩
def F.ID_PART.IO_DIES : Fld := ⟨0, 4⟩
def F.ID_STEP.MAJOR : Fld := ⟨4, 4⟩
def F.ID_STEP.MINOR : Fld := ⟨0, 4⟩
def F.ID_AIC.AIC : Fld := ⟨0, 16⟩
def F.ID_SERIAL.SERIAL : Fld := ⟨0, 64⟩
def F.ID_CARD.CARD_ID : Fld := ⟨0, 4⟩
def F.GLB_CTL.GPIO_DIR : Fld := ⟨48, 16⟩
def F.GLB_CTL.GPIO_EVT : Fld := ⟨32, 16⟩
def F.GLB_CTL.IRQ_EN : Fld := ⟨0, 1⟩
def F.GLB_STAT.UNMAPPED_CNT : Fld := ⟨48, 16⟩
def F.GLB_STAT.TORN_CNT : Fld := ⟨32, 16⟩
def F.GLB_STAT.GPIO_IGN : Fld := ⟨16, 16⟩
def F.GLB_STAT.STICKY_UNMAPPED : Fld := ⟨15, 1⟩
def F.GLB_STAT.STICKY_TORN : Fld := ⟨14, 1⟩
def F.GLB_STAT.STICKY_CFG : Fld := ⟨13, 1⟩
def F.UPTIME.NS : Fld := ⟨0, 64⟩
def F.GLB_IRQ_STAT.SRC : Fld := ⟨0, 32⟩
def F.GLB_IRQ_MASK.MASK : Fld := ⟨0, 32⟩
def F.GPIO_OUT.LEVEL : Fld := ⟨0, 16⟩
def F.GPIO_IN.LEVEL : Fld := ⟨0, 16⟩
def F.SCRATCH.VALUE : Fld := ⟨0, 64⟩
def F.HMBX_OUT.FULL : Fld := ⟨63, 1⟩
def F.HMBX_OUT.DATA : Fld := ⟨0, 32⟩
def F.HMBX_IN.FULL : Fld := ⟨63, 1⟩
def F.HMBX_IN.DATA : Fld := ⟨0, 32⟩
def F.HMBX_STAT.STICKY_OVERRUN : Fld := ⟨31, 1⟩
def F.HMBX_STAT.OVR_CNT : Fld := ⟨16, 8⟩
def F.HMBX_STAT.FW_DROP : Fld := ⟨8, 8⟩
def F.HMBX_STAT.IN_FULL : Fld := ⟨4, 4⟩
def F.HMBX_STAT.OUT_FULL : Fld := ⟨0, 4⟩
def F.SHMBX.FULL : Fld := ⟨63, 1⟩
def F.SHMBX.DATA : Fld := ⟨0, 32⟩
def F.LOCK.OWNER : Fld := ⟨0, 8⟩
def F.LOCK.RELEASE : Fld := ⟨0, 8⟩
def F.LOCK_STAT.BROKEN : Fld := ⟨32, 16⟩
def F.LOCK_STAT.HELD : Fld := ⟨16, 16⟩
def F.LOCK_STAT.RELEASE_BAD : Fld := ⟨0, 16⟩
def F.BOOT_STAT.VERSION : Fld := ⟨32, 32⟩
def F.BOOT_STAT.EARLY_WR : Fld := ⟨16, 16⟩
def F.BOOT_STAT.STICKY_SLOW : Fld := ⟨6, 1⟩
def F.BOOT_STAT.STICKY_EARLY : Fld := ⟨5, 1⟩
def F.BOOT_STAT.OTHER_VALID : Fld := ⟨4, 1⟩
def F.BOOT_STAT.COPY : Fld := ⟨3, 1⟩
def F.BOOT_STAT.STAGE : Fld := ⟨0, 3⟩
def F.FURNISH_STAT.APPLIED : Fld := ⟨48, 16⟩
def F.FURNISH_STAT.REJECTED : Fld := ⟨32, 16⟩
def F.FURNISH_STAT.FIRST_REJECT : Fld := ⟨16, 16⟩
def F.FURNISH_STAT.CAUSE : Fld := ⟨8, 8⟩
def F.FLASH_ADDR.ADDR : Fld := ⟨0, 32⟩
def F.FLASH_CMD.OP : Fld := ⟨30, 2⟩
def F.FLASH_STAT.BUSY : Fld := ⟨31, 1⟩
def F.FLASH_STAT.ERR : Fld := ⟨28, 3⟩
def F.ADM_CHIP.CAP : Fld := ⟨52, 12⟩
def F.ADM_CHIP.ACTIVE_LOAD : Fld := ⟨40, 12⟩
def F.ADM_CHIP.STANDBY_LOAD : Fld := ⟨28, 12⟩
def F.ADM_CHIP.CELLS : Fld := ⟨0, 11⟩
def F.RADIO_CFG.MIRROR_KIB : Fld := ⟨48, 16⟩
def F.RADIO_CFG.HB_PERIOD : Fld := ⟨32, 9⟩
def F.RADIO_CFG.HB_MISS : Fld := ⟨28, 4⟩
def F.RADIO_CFG.HB_PATHS : Fld := ⟨22, 6⟩
def F.RADIO_CFG.THERM_STEP : Fld := ⟨8, 8⟩
def F.SHADOW_STAT.STANDBY_CELLS : Fld := ⟨53, 11⟩
def F.SHADOW_STAT.PROTECTED : Fld := ⟨42, 11⟩
def F.SHADOW_STAT.MIRROR_TRUNC : Fld := ⟨16, 16⟩
def F.SHADOW_STAT.HB_LOSS : Fld := ⟨8, 8⟩
def F.SHADOW_STAT.TAKEOVERS : Fld := ⟨0, 8⟩
def F.MISS_STAT.STICKY_UNEXPLAINED : Fld := ⟨63, 1⟩
def F.MISS_STAT.STICKY_OVF : Fld := ⟨62, 1⟩
def F.MISS_STAT.COUNT : Fld := ⟨48, 7⟩
def F.MISS_STAT.OVF_CNT : Fld := ⟨32, 16⟩
def F.MISS_STAT.MISS_CNT : Fld := ⟨0, 32⟩
def F.MISS_HI.FRAME : Fld := ⟨54, 10⟩
def F.MISS_HI.SLOT : Fld := ⟨47, 7⟩
def F.MISS_HI.MU : Fld := ⟨45, 2⟩
def F.MISS_HI.CELL : Fld := ⟨35, 10⟩
def F.MISS_HI.CAUSE : Fld := ⟨32, 3⟩
def F.MISS_HI.KIND : Fld := ⟨24, 8⟩
def F.MISS_LO.TAI_NS : Fld := ⟨0, 64⟩
def F.CELL_CTL.SHADOW_CHIP : Fld := ⟨48, 16⟩
def F.CELL_CTL.SHADOW_SLOT : Fld := ⟨42, 6⟩
def F.CELL_CTL.SHADOW_EN : Fld := ⟨41, 1⟩
def F.CELL_CTL.HANDOVER : Fld := ⟨40, 1⟩
def F.CELL_CTL.RELEASE : Fld := ⟨39, 1⟩
def F.CELL_CTL.LINK_HO : Fld := ⟨31, 8⟩
def F.CELL_CTL.SHED_RANK : Fld := ⟨23, 8⟩
def F.CELL_CTL.PIN_EN : Fld := ⟨22, 1⟩
def F.CELL_CTL.PIN_REAM : Fld := ⟨20, 2⟩
def F.CELL_STAT.STATE : Fld := ⟨60, 4⟩
def F.CELL_STAT.HOME_REAM : Fld := ⟨58, 2⟩
def F.CELL_STAT.WEIGHT : Fld := ⟨52, 6⟩
def F.CELL_STAT.PROTECTED : Fld := ⟨51, 1⟩
def F.CELL_STAT.SHADOW_LOST : Fld := ⟨50, 1⟩
def F.CELL_STAT.EPOCH : Fld := ⟨0, 32⟩
def F.PFX_STAT.ENTRIES : Fld := ⟨32, 32⟩
def F.PFX_STAT.UNREFERENCED : Fld := ⟨0, 32⟩
def F.PFX_CNT.DUP : Fld := ⟨48, 16⟩
def F.PFX_CNT.FULL : Fld := ⟨32, 16⟩
def F.PFX_CNT.EVICTED : Fld := ⟨0, 32⟩
def F.MSIX_CTRL.MASK : Fld := ⟨0, 1⟩
def F.TM_STATE.OFFSET_REFUSED : Fld := ⟨31, 1⟩
def F.TM_STATE.SWITCHED : Fld := ⟨30, 1⟩
def F.TM_STATE.SWITCH_CNT : Fld := ⟨16, 8⟩
def F.TM_STATE.FREQ_ACTIVE : Fld := ⟨8, 2⟩
def F.TM_STATE.RT_VALID : Fld := ⟨3, 1⟩
def F.TM_STATE.STATE : Fld := ⟨0, 3⟩
def F.PTP_DOM_CFG.DOMAIN_NUM : Fld := ⟨48, 8⟩
def F.PTP_DOM_CFG.PORT : Fld := ⟨44, 2⟩
def F.PTP_DOM_CFG.SUBPORT : Fld := ⟨42, 2⟩
def F.PTP_DOM_CFG.DEST : Fld := ⟨41, 1⟩
def F.PTP_DOM_CFG.ENABLE : Fld := ⟨40, 1⟩
def F.PTP_DOM_CFG.CLASS_MAX : Fld := ⟨32, 8⟩
def F.PTP_DOM_CFG.LOSS_INTERVALS : Fld := ⟨24, 8⟩
def F.PTP_DOM_CFG.WTR : Fld := ⟨8, 16⟩
def F.PTP_DOM_CFG.REVERT : Fld := ⟨7, 1⟩
def F.PTP_DOM_STAT.GM_CLASS : Fld := ⟨56, 8⟩
def F.PTP_DOM_STAT.LOSS_RUN : Fld := ⟨48, 8⟩
def F.PTP_DOM_STAT.GOOD : Fld := ⟨32, 1⟩
def F.PTP_DOM_STAT.PHASE_OFFSET : Fld := ⟨0, 32⟩
def F.HOLD_CFG.LIMIT_SYNCE : Fld := ⟨16, 16⟩
def F.HOLD_CFG.LIMIT_FREE : Fld := ⟨0, 16⟩
def F.FREQ_CFG.SOURCE : Fld := ⟨4, 2⟩
def F.FREQ_CFG.PORT : Fld := ⟨2, 2⟩
def F.FREQ_CFG.SUBPORT : Fld := ⟨0, 2⟩
def F.PPS_CFG.WIDTH : Fld := ⟨8, 24⟩
def F.PPS_CFG.PHASE_SRC : Fld := ⟨1, 1⟩
def F.PPS_CFG.OUT_EN : Fld := ⟨0, 1⟩
def F.TSQ_HI.ID : Fld := ⟨48, 16⟩
def F.TSQ_HI.SEC : Fld := ⟨0, 48⟩
def F.TSQ_LO.VALID : Fld := ⟨63, 1⟩
def F.TSQ_LO.SUBPORT : Fld := ⟨58, 2⟩
def F.TSQ_LO.NS : Fld := ⟨0, 32⟩
def F.TSQ_STAT.STICKY_OVF : Fld := ⟨31, 1⟩
def F.TSQ_STAT.OVF_CNT : Fld := ⟨8, 16⟩
def F.TSQ_STAT.COUNT : Fld := ⟨0, 8⟩
def F.EVT_CMD.OP : Fld := ⟨30, 2⟩
def F.EVT_CMD.INDEX : Fld := ⟨0, 12⟩
def F.EVT_STAT.STICKY_LATE : Fld := ⟨31, 1⟩
def F.EVT_STAT.ERR : Fld := ⟨29, 2⟩
def F.EVT_STAT.SLIP_CNT : Fld := ⟨16, 13⟩
def F.EVT_STAT.LATE_CNT : Fld := ⟨0, 16⟩
def F.PORT_CFG.SHP_OVH : Fld := ⟨16, 8⟩
def F.PORT_CFG.SUB_EN : Fld := ⟨12, 4⟩
def F.PORT_CFG.MODE : Fld := ⟨10, 2⟩
def F.PORT_CFG.ENABLE : Fld := ⟨9, 1⟩
def F.PORT_CFG.LINK_TRAIN : Fld := ⟨8, 1⟩
def F.PORT_STAT.CFG_REFUSED : Fld := ⟨31, 1⟩
def F.PORT_STAT.STICKY_SAT : Fld := ⟨30, 1⟩
def F.PORT_STAT.LINK_UP : Fld := ⟨24, 4⟩
def F.PORT_STAT.FEC_LOCK : Fld := ⟨20, 4⟩
def F.PORT_STAT.LINK_DOWN_CNT : Fld := ⟨0, 16⟩
def F.STEER0.DMAC : Fld := ⟨16, 48⟩
def F.STEER0.VID : Fld := ⟨4, 12⟩
def F.STEER0.MATCH_VID : Fld := ⟨1, 1⟩
def F.STEER0.VALID : Fld := ⟨0, 1⟩
def F.STEER1.SLOT : Fld := ⟨8, 6⟩
def F.STEER1.RING : Fld := ⟨0, 6⟩
def F.SHP_CMD.OP : Fld := ⟨30, 2⟩
def F.SHP_CMD.KIND : Fld := ⟨28, 2⟩
def F.SHP_CMD.INDEX : Fld := ⟨0, 10⟩
def F.SHP_STAT.ERR : Fld := ⟨30, 2⟩
def F.SHP_STAT.BAD_REL : Fld := ⟨0, 16⟩
def F.FH_STAT.NO_STREAM : Fld := ⟨32, 32⟩
def F.FH_STAT.UNSUPPORTED : Fld := ⟨16, 16⟩
def F.FH_STAT.CFG_ERR : Fld := ⟨12, 4⟩
def F.STRM_CFG.EAXC_ID : Fld := ⟨48, 16⟩
def F.STRM_CFG.PORT : Fld := ⟨46, 2⟩
def F.STRM_CFG.SUBPORT : Fld := ⟨44, 2⟩
def F.STRM_CFG.VID : Fld := ⟨32, 12⟩
def F.STRM_CFG.ENABLE : Fld := ⟨31, 1⟩
def F.STRM_CFG.DIR : Fld := ⟨30, 1⟩
def F.STRM_CFG.MU : Fld := ⟨28, 2⟩
def F.STRM_CFG.COMP : Fld := ⟨26, 2⟩
def F.STRM_CFG.IQ_WIDTH : Fld := ⟨22, 4⟩
def F.STRM_CFG.DYN_HDR : Fld := ⟨21, 1⟩
def F.STRM_CFG.NUM_PRB : Fld := ⟨12, 9⟩
def F.STRM_CFG.GRP_LOG2 : Fld := ⟨9, 3⟩
def F.STRM_CFG.PRACH : Fld := ⟨8, 1⟩
def F.STRM_GRID.TOKEN_BASE : Fld := ⟨32, 32⟩
def F.STRM_GRID.TARGET : Fld := ⟨30, 2⟩
def F.STRM_GRID.REAM : Fld := ⟨28, 2⟩
def F.STRM_GRID.OFFSET : Fld := ⟨0, 26⟩
def F.STRM_AGC.TARGET : Fld := ⟨56, 8⟩
def F.STRM_AGC.BAND : Fld := ⟨48, 8⟩
def F.STRM_AGC.UP_SYMS : Fld := ⟨40, 8⟩
def F.STRM_AGC.FIXED_GAIN : Fld := ⟨35, 5⟩
def F.STRM_AGC.AGC_EN : Fld := ⟨34, 1⟩
def F.STRM_AGC.T4MIN : Fld := ⟨13, 21⟩
def F.STRM_CNT0.ON_TIME : Fld := ⟨32, 32⟩
def F.STRM_CNT0.EARLY : Fld := ⟨0, 32⟩
def F.STRM_CNT1.LATE : Fld := ⟨32, 32⟩
def F.STRM_CNT1.DUP : Fld := ⟨16, 16⟩
def F.STRM_CNT1.BAD : Fld := ⟨0, 16⟩
def F.STRM_CNT2.CLIPS : Fld := ⟨32, 32⟩
def F.STRM_CNT2.STEP_UP : Fld := ⟨16, 16⟩
def F.STRM_CNT2.STEP_DOWN : Fld := ⟨0, 16⟩
def F.FAB_CFG.CHIP_ID : Fld := ⟨48, 16⟩
def F.FAB_CFG.DEAD_TIMEOUT : Fld := ⟨32, 16⟩
def F.FAB_CFG.RETRY_BASE : Fld := ⟨24, 8⟩
def F.FAB_CFG.RETRY_LIMIT : Fld := ⟨16, 8⟩
def F.FAB_CFG.FAB_EN : Fld := ⟨0, 1⟩
def F.FAB_STAT.CHIP_INC : Fld := ⟨32, 32⟩
def F.FAB_STAT.CFG_REFUSED : Fld := ⟨31, 1⟩
def F.FAB_STAT.STICKY_DEAD : Fld := ⟨30, 1⟩
def F.FAB_STAT.DOMAIN_CHIPS : Fld := ⟨0, 8⟩
def F.FAB_CNT0.STALE_DROP : Fld := ⟨32, 32⟩
def F.FAB_CNT0.DENIED : Fld := ⟨0, 32⟩
def F.FAB_CNT1.NOT_READY_RCVD : Fld := ⟨32, 32⟩
def F.FAB_CNT1.RETRY_LIMIT_HIT : Fld := ⟨16, 16⟩
def F.FAB_CNT1.DEAD_TARGET : Fld := ⟨0, 16⟩
def F.FAB_CNT2.HOTLINE_STALL_US : Fld := ⟨32, 32⟩
def F.FAB_CNT2.COLLAPSED : Fld := ⟨0, 32⟩
def F.TAB_CMD.OP : Fld := ⟨30, 2⟩
def F.TAB_CMD.TABLE : Fld := ⟨28, 2⟩
def F.TAB_CMD.INDEX : Fld := ⟨0, 16⟩
def F.TAB_STAT.ERR : Fld := ⟨28, 4⟩
def F.FPORT_CFG.ENABLE : Fld := ⟨0, 1⟩
def F.FPORT_STAT.PEER_CHIP : Fld := ⟨48, 16⟩
def F.FPORT_STAT.PEER_PORT : Fld := ⟨40, 8⟩
def F.FPORT_STAT.RETRAIN_CNT : Fld := ⟨32, 8⟩
def F.FPORT_STAT.STICKY_SAT : Fld := ⟨31, 1⟩
def F.FPORT_STAT.STICKY_RETRAIN : Fld := ⟨30, 1⟩
def F.FPORT_STAT.PEER_SWITCH : Fld := ⟨1, 1⟩
def F.FPORT_STAT.LINK_UP : Fld := ⟨0, 1⟩
def F.FSHP_CMD.OP : Fld := ⟨30, 2⟩
def F.FSHP_CMD.KIND : Fld := ⟨28, 2⟩
def F.FSHP_CMD.INDEX : Fld := ⟨0, 10⟩
def F.FSHP_STAT.ERR : Fld := ⟨30, 2⟩
def F.FSHP_STAT.BAD_REL : Fld := ⟨0, 16⟩
def F.DCK_CTL.KIND : Fld := ⟨58, 2⟩
def F.DCK_CTL.ENABLE : Fld := ⟨57, 1⟩
def F.DCK_CTL.RELEASE : Fld := ⟨56, 1⟩
def F.DCK_CTL.CNT_RD : Fld := ⟨55, 1⟩
def F.DCK_CTL.DIRTY_EN : Fld := ⟨54, 1⟩
def F.DCK_CTL.SHMBX_MASK : Fld := ⟨32, 16⟩
def F.DCK_CTL.DEF_DEADLINE : Fld := ⟨16, 16⟩
def F.DCK_QUOTA.T2_GIB : Fld := ⟨52, 12⟩
def F.DCK_QUOTA.T3_GIB : Fld := ⟨36, 16⟩
def F.DCK_QUOTA.T4_GIB : Fld := ⟨26, 10⟩
def F.DCK_LIMITS.SQ_MAX : Fld := ⟨57, 7⟩
def F.DCK_LIMITS.CQ_MAX : Fld := ⟨50, 7⟩
def F.DCK_LIMITS.ETH_TX_MAX : Fld := ⟨45, 5⟩
def F.DCK_LIMITS.ETH_RX_MAX : Fld := ⟨38, 7⟩
def F.DCK_LIMITS.VEC_BASE : Fld := ⟨27, 11⟩
def F.DCK_LIMITS.VEC_COUNT : Fld := ⟨20, 7⟩
def F.DCK_SHP.GROUP : Fld := ⟨0, 60⟩
def F.DCK_FAB.KEY_2f : Fld := ⟨32, 32⟩
def F.DCK_FAB.KEY_2f_1 : Fld := ⟨0, 32⟩
def F.DCK_RADIO.CELL_BASE : Fld := ⟨54, 10⟩
def F.DCK_RADIO.CELL_COUNT : Fld := ⟨43, 11⟩
def F.WIN0.VA_BASE : Fld := ⟨37, 27⟩
def F.WIN0.SIZE_GIB : Fld := ⟨10, 27⟩
def F.WIN0.TYPE : Fld := ⟨8, 2⟩
def F.WIN0.WRITE : Fld := ⟨7, 1⟩
def F.WIN0.READ : Fld := ⟨6, 1⟩
def F.WIN1.HOST_BASE : Fld := ⟨30, 34⟩
def F.WIN1.SLICE : Fld := ⟨20, 10⟩
def F.KEY_CMD.OP : Fld := ⟨30, 2⟩
def F.TEN_STAT.STATE : Fld := ⟨62, 2⟩
def F.TEN_STAT.KEY_VALID : Fld := ⟨61, 1⟩
def F.TEN_STAT.CFG_REFUSED : Fld := ⟨60, 1⟩
def F.TEN_STAT.ERR : Fld := ⟨56, 4⟩
def F.DIRTY_H.BASE : Fld := ⟨12, 52⟩
def F.DIRTY_D.BASE : Fld := ⟨12, 52⟩
def F.DIRTY_CMD.OP : Fld := ⟨30, 2⟩
def F.DIRTY_STAT.BUSY : Fld := ⟨63, 1⟩
def F.DIRTY_STAT.BANK : Fld := ⟨62, 1⟩
def F.DIRTY_STAT.SWAPS : Fld := ⟨0, 32⟩
def F.SLICE.PASID : Fld := ⟨24, 20⟩
def F.SLICE.SLOT : Fld := ⟨16, 6⟩
def F.SLICE.MBX_VEC : Fld := ⟨8, 6⟩
def F.SLICE.MBX_IRQ_EN : Fld := ⟨2, 1⟩
def F.SLICE.PASID_EN : Fld := ⟨1, 1⟩
def F.SLICE.ENABLE : Fld := ⟨0, 1⟩
def F.TIER_CFG.RADIO_T2_GIB : Fld := ⟨56, 8⟩
def F.TIER_CFG.PFX_T2_GIB : Fld := ⟨48, 8⟩
def F.TIER_CFG.PFX_T3_GIB : Fld := ⟨35, 13⟩
def F.TIER_CFG.INFLIGHT : Fld := ⟨31, 4⟩
def F.TIER_CFG.MIG_EN : Fld := ⟨0, 1⟩
def F.MIG_CFG.DEMOTE_AT : Fld := ⟨56, 8⟩
def F.MIG_CFG.TARGET_AT : Fld := ⟨48, 8⟩
def F.MIG_CFG.PROMOTE_HITS : Fld := ⟨40, 8⟩
def F.MIG_CFG.INTERVAL : Fld := ⟨32, 8⟩
def F.TIER_STAT.T2_FREE : Fld := ⟨54, 10⟩
def F.TIER_STAT.T3_FREE : Fld := ⟨41, 13⟩
def F.TIER_STAT.T4_FREE : Fld := ⟨32, 9⟩
def F.TIER_STAT.MIG_BUSY : Fld := ⟨31, 1⟩
def F.TIER_STAT.CFG_REFUSED : Fld := ⟨30, 1⟩
def F.TIER_CNT0.PREF_DROP : Fld := ⟨32, 32⟩
def F.TIER_CNT0.RUNAHEAD_STOP : Fld := ⟨0, 32⟩
def F.TIER_CNT1.DEMOTED : Fld := ⟨32, 32⟩
def F.TIER_CNT1.PROMOTED : Fld := ⟨0, 32⟩
def F.TIER_CNT2.REVOKED : Fld := ⟨48, 16⟩
def F.TIER_CNT2.MIG_UE : Fld := ⟨40, 8⟩
def F.TIER_CNT2.UNSEAL_REFUSED : Fld := ⟨32, 8⟩
def F.TIER_CNT2.MIG_MIB : Fld := ⟨0, 32⟩
def F.MAP_CMD.OP : Fld := ⟨28, 4⟩
def F.MAP_STAT.BUSY : Fld := ⟨31, 1⟩
def F.MAP_STAT.ERR : Fld := ⟨16, 8⟩
def F.HOST_POOL.BASE : Fld := ⟨30, 34⟩
def F.HOST_POOL.SIZE_GIB : Fld := ⟨14, 16⟩
def F.HOST_POOL.ENABLE : Fld := ⟨0, 1⟩
def F.HOST_POOL_STAT.DRAINING : Fld := ⟨63, 1⟩
def F.HOST_POOL_STAT.USED_GIB : Fld := ⟨0, 16⟩
def F.CXL_STAT.CAP_GIB : Fld := ⟨51, 13⟩
def F.CXL_STAT.USED_GIB : Fld := ⟨38, 13⟩
def F.CXL_STAT.LINK_UP : Fld := ⟨33, 1⟩
def F.CXL_STAT.PRESENT : Fld := ⟨32, 1⟩
def F.CXL_STAT.POISON : Fld := ⟨0, 16⟩
def F.MSCHED_CNT.LINES_MERGED : Fld := ⟨32, 32⟩
def F.MSCHED_CNT.AGE_FORCED : Fld := ⟨16, 16⟩
def F.MSCHED_CNT.TAG_FULL_US : Fld := ⟨0, 16⟩
def F.LEND_WIN0.BORROWER : Fld := ⟨48, 16⟩
def F.LEND_WIN0.SIZE_GIB : Fld := ⟨40, 8⟩
def F.LEND_WIN0.RECALL : Fld := ⟨1, 1⟩
def F.LEND_WIN0.ENABLE : Fld := ⟨0, 1⟩
def F.LEND_WIN1.KEY : Fld := ⟨32, 32⟩
def F.LEND_STAT.STATE : Fld := ⟨61, 3⟩
def F.LEND_STAT.USED_MIB : Fld := ⟨24, 24⟩
def F.LEND_STAT.DEADLINE_MS : Fld := ⟨16, 8⟩
def F.LEND_STAT.DENIED : Fld := ⟨0, 16⟩
def F.BORROW_WIN0.LENDER : Fld := ⟨48, 16⟩
def F.BORROW_WIN0.LENDER_WIN : Fld := ⟨44, 4⟩
def F.BORROW_WIN0.SIZE_GIB : Fld := ⟨36, 8⟩
def F.BORROW_WIN0.ENABLE : Fld := ⟨0, 1⟩
def F.BORROW_WIN1.KEY : Fld := ⟨32, 32⟩
def F.BORROW_STAT.STATE : Fld := ⟨61, 3⟩
def F.BORROW_STAT.USED_MIB : Fld := ⟨24, 24⟩
def F.BORROW_STAT.DEADLINE_MS : Fld := ⟨16, 8⟩
def F.BORROW_STAT.REVOKED : Fld := ⟨0, 16⟩
def F.TENANT_USE.T2 : Fld := ⟨45, 19⟩
def F.TENANT_USE.T3 : Fld := ⟨23, 22⟩
def F.TENANT_USE.T4 : Fld := ⟨5, 18⟩
def F.CHIPC_COUNT.VALUE : Fld := ⟨0, 48⟩
def F.CHIPC_CFG.THRESH : Fld := ⟨32, 32⟩
def F.CHIPC_CFG.EVENT : Fld := ⟨24, 8⟩
def F.CHIPC_CFG.QUAL : Fld := ⟨22, 2⟩
def F.CHIPC_CFG.CHAIN_IN : Fld := ⟨21, 1⟩
def F.CHIPC_CFG.INT_EN : Fld := ⟨20, 1⟩
def F.CHIPC_CFG.SAMPLE_EN : Fld := ⟨19, 1⟩
def F.CHIPC_CFG.OVF : Fld := ⟨18, 1⟩
def F.CHIPC_CFG.STOPPED : Fld := ⟨17, 1⟩
def F.CHIPC_CFG.ENABLE : Fld := ⟨16, 1⟩
def F.CHIPC_CFG.SLOT_EN : Fld := ⟨15, 1⟩
def F.CHIPC_CFG.SLOT : Fld := ⟨9, 6⟩
def F.CHIPC_CFG.CLASS_FILT : Fld := ⟨7, 2⟩
def F.CHIPC_SAMPLE.TIME : Fld := ⟨32, 32⟩
def F.CHIPC_SAMPLE.LOST : Fld := ⟨8, 8⟩
def F.CHIPC_SAMPLE.VALID : Fld := ⟨0, 1⟩
def F.CNT_CTL.CFG_REFUSED : Fld := ⟨31, 1⟩
def F.CNT_CTL.FREEZE : Fld := ⟨0, 1⟩
def F.CNT_IRQ.ANY : Fld := ⟨63, 1⟩
def F.CNT_IRQ.CHIP : Fld := ⟨36, 1⟩
def F.CNT_IRQ.REAM : Fld := ⟨32, 4⟩
def F.CNT_IRQ.QUIRE : Fld := ⟨0, 32⟩
def F.LOG_SEL.SEQ : Fld := ⟨0, 64⟩
def F.LOG_RD.RESULT : Fld := ⟨30, 2⟩
def F.LOG_RD.BUSY : Fld := ⟨29, 1⟩
def F.LOG_RD.DAMAGED_CNT : Fld := ⟨0, 16⟩
def F.LOG_STALL_US.COUNT : Fld := ⟨0, 32⟩
def F.LOG_ENT.BYTES : Fld := ⟨0, 64⟩
def F.HEALTH_STAT.STATE : Fld := ⟨62, 2⟩
def F.HEALTH_STAT.SPARE_READY : Fld := ⟨61, 1⟩
def F.HEALTH_STAT.SCORE : Fld := ⟨50, 10⟩
def F.HEALTH_STAT.DEBT : Fld := ⟨40, 10⟩
def F.HEALTH_STAT.WINDOW_POINTS : Fld := ⟨30, 10⟩
def F.HEALTH_STAT.ISOLATED_QUIRES : Fld := ⟨24, 6⟩
def F.HEALTH_STAT.SPARE_SHEETS : Fld := ⟨16, 8⟩
def F.HEALTH_STAT.HARD_CAUSE : Fld := ⟨8, 8⟩
def F.ERR_STAT.STICKY_OVF : Fld := ⟨63, 1⟩
def F.ERR_STAT.COUNT : Fld := ⟨48, 9⟩
def F.ERR_STAT.OVF_CNT : Fld := ⟨32, 16⟩
def F.ERR_STAT.ERR_CNT : Fld := ⟨0, 32⟩
def F.ERR_HI.LEVEL : Fld := ⟨62, 2⟩
def F.ERR_HI.REAM : Fld := ⟨60, 2⟩
def F.ERR_HI.QUIRE : Fld := ⟨57, 3⟩
def F.ERR_HI.SHEET : Fld := ⟨50, 7⟩
def F.ERR_HI.CODE : Fld := ⟨42, 8⟩
def F.ERR_HI.CLASS : Fld := ⟨40, 2⟩
def F.ERR_HI.POINTS : Fld := ⟨30, 10⟩
def F.ERR_LO.TAI_NS : Fld := ⟨0, 64⟩
def F.QUIRE_HEALTH.INCARNATION : Fld := ⟨32, 32⟩
def F.QUIRE_HEALTH.STATE : Fld := ⟨30, 2⟩
def F.QUIRE_HEALTH.ACTIVE : Fld := ⟨23, 7⟩
def F.QUIRE_HEALTH.SPARES_FREE : Fld := ⟨21, 2⟩
def F.QUIRE_HEALTH.STALE_DROP : Fld := ⟨0, 16⟩
def F.RCV_DESC.ADDR : Fld := ⟨7, 50⟩
def F.RCV_CMD.OP : Fld := ⟨30, 2⟩
def F.RCV_STAT.BUSY : Fld := ⟨63, 1⟩
def F.RCV_STAT.RESULT : Fld := ⟨60, 3⟩
def F.RCV_STAT.STATUS : Fld := ⟨52, 8⟩
def F.RCV_STAT.STEP_INDEX : Fld := ⟨44, 8⟩
def F.RCV_STAT.LIVE_STEP : Fld := ⟨0, 32⟩
def F.MIR_CMD.OP : Fld := ⟨30, 2⟩
def F.MIR_CMD.INDEX : Fld := ⟨0, 6⟩
def F.MIR_STAT.ERR : Fld := ⟨28, 4⟩
def F.MIR_STAT.FAILED : Fld := ⟨8, 8⟩
def F.MIR_STAT.ENABLED : Fld := ⟨0, 8⟩
def F.MIR_INFO.LIVE_STEP : Fld := ⟨32, 32⟩
def F.MIR_INFO.VALID : Fld := ⟨31, 1⟩
def F.MIR_INFO.COPYING : Fld := ⟨30, 1⟩
def F.MIR_INFO.FAILED : Fld := ⟨29, 1⟩
def F.QC_COUNT.VALUE : Fld := ⟨0, 48⟩
def F.QC_CFG.THRESH : Fld := ⟨32, 32⟩
def F.QC_CFG.EVENT : Fld := ⟨24, 8⟩
def F.QC_CFG.QUAL : Fld := ⟨22, 2⟩
def F.QC_CFG.CHAIN_IN : Fld := ⟨21, 1⟩
def F.QC_CFG.INT_EN : Fld := ⟨20, 1⟩
def F.QC_CFG.SAMPLE_EN : Fld := ⟨19, 1⟩
def F.QC_CFG.OVF : Fld := ⟨18, 1⟩
def F.QC_CFG.STOPPED : Fld := ⟨17, 1⟩
def F.QC_CFG.ENABLE : Fld := ⟨16, 1⟩
def F.QC_CFG.SLOT_EN : Fld := ⟨15, 1⟩
def F.QC_CFG.SLOT : Fld := ⟨9, 6⟩
def F.QC_CFG.CLASS_FILT : Fld := ⟨7, 2⟩
def F.QC_SAMPLE.TIME : Fld := ⟨32, 32⟩
def F.QC_SAMPLE.LOST : Fld := ⟨8, 8⟩
def F.QC_SAMPLE.VALID : Fld := ⟨0, 1⟩
def F.WALK_STAT.SLOTS_BUSY : Fld := ⟨16, 16⟩
def F.WALK_STAT.QUEUED : Fld := ⟨0, 8⟩
def F.WALK_CNT0.WALKS : Fld := ⟨32, 32⟩
def F.WALK_CNT0.STEPS : Fld := ⟨0, 32⟩
def F.WALK_CNT1.PAGES_SELECTED : Fld := ⟨32, 32⟩
def F.WALK_CNT1.CAPPED : Fld := ⟨16, 16⟩
def F.WALK_CNT1.SLOT_WAIT : Fld := ⟨0, 16⟩
def F.SHEET_ID.INCARNATION : Fld := ⟨32, 32⟩
def F.SHEET_ID.REAM : Fld := ⟨23, 2⟩
def F.SHEET_ID.QUIRE : Fld := ⟨20, 3⟩
def F.SHEET_ID.PHYS : Fld := ⟨13, 7⟩
def F.SHEET_ID.ROLE : Fld := ⟨11, 2⟩
def F.SHEET_ID.LOGICAL : Fld := ⟨0, 7⟩
def F.SHEET_STAT.BUSY : Fld := ⟨31, 1⟩
def F.SHEET_STAT.COMMITTING : Fld := ⟨30, 1⟩
def F.SHEET_STAT.KILLING : Fld := ⟨29, 1⟩
def F.SHEET_STAT.RADIO : Fld := ⟨28, 1⟩
def F.SHEET_STAT.WAIT_RT : Fld := ⟨27, 1⟩
def F.SHEET_STAT.WAIT_EV : Fld := ⟨26, 1⟩
def F.SHEET_STAT.CLK_GATED : Fld := ⟨25, 1⟩
def F.SHEET_STAT.CTX : Fld := ⟨0, 16⟩
def F.SHEET_ERR.STICKY_UE : Fld := ⟨31, 1⟩
def F.SHEET_ERR.STICKY_PAR : Fld := ⟨30, 1⟩
def F.SHEET_ERR.STICKY_RES2 : Fld := ⟨29, 1⟩
def F.SHEET_ERR.STICKY_SAT : Fld := ⟨28, 1⟩
def F.SHEET_ERR.LAST_CAUSE : Fld := ⟨8, 8⟩
def F.SHEET_CNT.STALE_DROP : Fld := ⟨48, 16⟩
def F.SHEET_CNT.FELT_CE : Fld := ⟨32, 16⟩
def F.SHEET_CNT.RES_RETRY : Fld := ⟨16, 16⟩
def F.SHEET_CNT.FELT_UE : Fld := ⟨0, 16⟩
def F.SHEET_CTL.SCRUB_NOW : Fld := ⟨2, 1⟩
def F.SHEET_CTL.RETIRE : Fld := ⟨1, 1⟩
def F.SHEET_CTL.CLKGATE_EN : Fld := ⟨0, 1⟩
def F.SC_COUNT.VALUE : Fld := ⟨0, 48⟩
def F.SC_CFG.THRESH : Fld := ⟨32, 32⟩
def F.SC_CFG.EVENT : Fld := ⟨24, 8⟩
def F.SC_CFG.QUAL : Fld := ⟨22, 2⟩
def F.SC_CFG.CHAIN_IN : Fld := ⟨21, 1⟩
def F.SC_CFG.INT_EN : Fld := ⟨20, 1⟩
def F.SC_CFG.SAMPLE_EN : Fld := ⟨19, 1⟩
def F.SC_CFG.OVF : Fld := ⟨18, 1⟩
def F.SC_CFG.STOPPED : Fld := ⟨17, 1⟩
def F.SC_CFG.ENABLE : Fld := ⟨16, 1⟩
def F.SC_CFG.SLOT_EN : Fld := ⟨15, 1⟩
def F.SC_CFG.SLOT : Fld := ⟨9, 6⟩
def F.SC_CFG.CLASS_FILT : Fld := ⟨7, 2⟩
def F.SC_SAMPLE.PC : Fld := ⟨32, 32⟩
def F.SC_SAMPLE.CTX : Fld := ⟨16, 16⟩
def F.SC_SAMPLE.LOST : Fld := ⟨8, 8⟩
def F.SC_SAMPLE.VALID : Fld := ⟨0, 1⟩
def F.SCHED_CFG.BLOCK_THRESH : Fld := ⟨16, 16⟩
def F.SCHED_CFG.SWAP_EN : Fld := ⟨2, 1⟩
def F.SCHED_CFG.MOVE_EN : Fld := ⟨1, 1⟩
def F.SCHED_CFG.STEAL_EN : Fld := ⟨0, 1⟩
def F.SCHED_STAT.COUCHED : Fld := ⟨48, 16⟩
def F.SCHED_STAT.ON_CHIP : Fld := ⟨32, 16⟩
def F.SCHED_STAT.SWAP_BUSY : Fld := ⟨31, 1⟩
def F.SCHED_STAT.WAITING : Fld := ⟨0, 20⟩
def F.SCHED_CNT0.KILLS : Fld := ⟨32, 32⟩
def F.SCHED_CNT0.STEALS : Fld := ⟨0, 32⟩
def F.SCHED_CNT1.MOVES : Fld := ⟨32, 32⟩
def F.SCHED_CNT1.COUCH_OUT : Fld := ⟨16, 16⟩
def F.SCHED_CNT1.COUCH_IN : Fld := ⟨0, 16⟩
def F.COUCH_LAST.BYTES_KIB : Fld := ⟨32, 32⟩
def F.COUCH_LAST.TIME_NS : Fld := ⟨0, 32⟩
def F.STRIP_CFG.SEQ_EN : Fld := ⟨60, 4⟩
def F.STRIP_CFG.POLAR_EN : Fld := ⟨56, 4⟩
def F.STRIP_CFG.ENC_EN : Fld := ⟨44, 12⟩
def F.STRIP_CFG.DEC_EN : Fld := ⟨28, 16⟩
def F.STRIP_STAT.DEC_BUSY : Fld := ⟨48, 16⟩
def F.STRIP_STAT.ENC_BUSY : Fld := ⟨36, 12⟩
def F.STRIP_STAT.POLAR_BUSY : Fld := ⟨32, 4⟩
def F.STRIP_STAT.SEQ_BUSY : Fld := ⟨28, 4⟩
def F.STRIP_STAT.QUEUED : Fld := ⟨0, 16⟩
def F.STRIP_ERR.STICKY_UE : Fld := ⟨31, 1⟩
def F.STRIP_ERR.STICKY_SAT : Fld := ⟨30, 1⟩
def F.STRIP_ERR.LAST_ENGINE : Fld := ⟨16, 8⟩
def F.STRIP_ERR.LAST_CAUSE : Fld := ⟨8, 8⟩
def F.STRIP_CNT0.CB_DECODED : Fld := ⟨32, 32⟩
def F.STRIP_CNT0.CB_CRC_FAIL : Fld := ⟨0, 32⟩
def F.STRIP_CNT1.EARLY_STOP : Fld := ⟨32, 32⟩
def F.STRIP_CNT1.ITER_CAP : Fld := ⟨16, 16⟩
def F.STRIP_CNT1.TB_UNDECODED : Fld := ⟨0, 16⟩
def F.STRIP_CNT2.CB_ENCODED : Fld := ⟨32, 32⟩
def F.STRIP_CNT2.HARQ_EVICT : Fld := ⟨16, 16⟩
def F.STRIP_CNT2.HARQ_UE : Fld := ⟨8, 8⟩
def F.STRIP_CNT2.ENC_REFUSED : Fld := ⟨0, 8⟩
def F.FLOOR_CFG.RADIO_POOL_MIB : Fld := ⟨32, 4⟩
def F.FLOOR_CFG.HBM_RES : Fld := ⟨24, 8⟩
def F.FLOOR_CFG.FLOOR_SHEETS : Fld := ⟨0, 9⟩
def F.REAM_CAP.CAP : Fld := ⟨52, 12⟩
def F.REAM_CAP.BIND : Fld := ⟨48, 4⟩
def F.REAM_CAP.EMERG : Fld := ⟨47, 1⟩
def F.REAM_LOAD.ACTIVE_LOAD : Fld := ⟨52, 12⟩
def F.REAM_LOAD.STANDBY_LOAD : Fld := ⟨40, 12⟩
def F.REAM_LOAD.CELLS : Fld := ⟨0, 9⟩
def F.GUST_CNT.KILLS : Fld := ⟨32, 32⟩
def F.GUST_CNT.GUST_US : Fld := ⟨0, 32⟩
def F.ACQ_STAT.STICKY_OVER : Fld := ⟨63, 1⟩
def F.ACQ_STAT.CFG_REFUSED : Fld := ⟨62, 1⟩
def F.ACQ_STAT.ACQ_MAX_NS : Fld := ⟨32, 16⟩
def F.ACQ_STAT.PEAK_SHEETS : Fld := ⟨0, 10⟩
def F.GEN_STAT.SMP_QUEUED : Fld := ⟨24, 8⟩
def F.GEN_STAT.DIG_BUSY : Fld := ⟨20, 4⟩
def F.SMP_CNT.SAMPLES : Fld := ⟨32, 32⟩
def F.SMP_CNT.DRAFTS_ACCEPTED : Fld := ⟨0, 32⟩
def F.DIG_CNT.BYTES_KIB : Fld := ⟨0, 64⟩
def F.RC_COUNT.VALUE : Fld := ⟨0, 48⟩
def F.RC_CFG.THRESH : Fld := ⟨32, 32⟩
def F.RC_CFG.EVENT : Fld := ⟨24, 8⟩
def F.RC_CFG.QUAL : Fld := ⟨22, 2⟩
def F.RC_CFG.CHAIN_IN : Fld := ⟨21, 1⟩
def F.RC_CFG.INT_EN : Fld := ⟨20, 1⟩
def F.RC_CFG.SAMPLE_EN : Fld := ⟨19, 1⟩
def F.RC_CFG.OVF : Fld := ⟨18, 1⟩
def F.RC_CFG.STOPPED : Fld := ⟨17, 1⟩
def F.RC_CFG.ENABLE : Fld := ⟨16, 1⟩
def F.RC_CFG.SLOT_EN : Fld := ⟨15, 1⟩
def F.RC_CFG.SLOT : Fld := ⟨9, 6⟩
def F.RC_CFG.CLASS_FILT : Fld := ⟨7, 2⟩
def F.RC_SAMPLE.TIME : Fld := ⟨32, 32⟩
def F.RC_SAMPLE.LOST : Fld := ⟨8, 8⟩
def F.RC_SAMPLE.VALID : Fld := ⟨0, 1⟩
def F.SQ_TAIL.TAIL : Fld := ⟨0, 16⟩
def F.CQ_HEAD.HEAD : Fld := ⟨0, 16⟩
def F.DB_ERR.STICKY_BAD : Fld := ⟨31, 1⟩
def F.DB_ERR.LAST_CQ : Fld := ⟨22, 1⟩
def F.DB_ERR.LAST_Q : Fld := ⟨16, 6⟩
def F.DB_ERR.BAD_CNT : Fld := ⟨0, 16⟩
def F.CQ_FULL_STALL.COUNT : Fld := ⟨0, 32⟩
def F.RX_NOBUF.COUNT : Fld := ⟨8, 24⟩
def F.RX_NOBUF.RING : Fld := ⟨0, 6⟩
def F.MBX_OUT.FULL : Fld := ⟨63, 1⟩
def F.MBX_OUT.DATA : Fld := ⟨0, 32⟩
def F.MBX_IN.FULL : Fld := ⟨63, 1⟩
def F.MBX_IN.DATA : Fld := ⟨0, 32⟩
def F.MBX_STAT.STICKY_OVERRUN : Fld := ⟨31, 1⟩
def F.MBX_STAT.OVR_CNT : Fld := ⟨16, 8⟩
def F.MBX_STAT.FW_DROP : Fld := ⟨8, 8⟩
def F.MBX_STAT.IN_FULL : Fld := ⟨4, 4⟩
def F.MBX_STAT.OUT_FULL : Fld := ⟨0, 4⟩
def F.SHMBX_A.FULL : Fld := ⟨63, 1⟩
def F.SHMBX_A.DATA : Fld := ⟨0, 32⟩
def F.LOCK_A.OWNER : Fld := ⟨0, 8⟩
def F.LOCK_A.RELEASE : Fld := ⟨0, 8⟩
def F.RING_CMD.OP : Fld := ⟨30, 2⟩
def F.RING_STAT.ERR : Fld := ⟨28, 4⟩
def F.RING_STAT.BUSY : Fld := ⟨27, 1⟩

/-! ### The map -/

/-- Rows of the register map. -/
def regTable0 : List RegDesc := [
  ⟨.ID_PART, 0x0, [], .view32, 0xf000, 0x0, 0x0, 0x0, false, .chip, []⟩,
  ⟨.ID_STEP, 0x4, [], .view32, 0x0, 0x0, 0x0, 0x0, false, .chip, []⟩,
  ⟨.ID_AIC, 0x8, [], .view32, 0x0, 0x0, 0x0, 0x0, false, .chip, []⟩,
  ⟨.ID_SERIAL, 0x10, [], .view64, 0x0, 0x0, 0x0, 0x0, false, .chip, []⟩,
  ⟨.ID_CARD, 0x18, [], .view32, 0x0, 0x0, 0x0, 0x0, false, .chip, []⟩,
  ⟨.GLB_CTL, 0x800, [], .pair64, 0x1, 0xffffffff00000001, 0x0, 0x0, true, .chip, []⟩,
  ⟨.GLB_STAT, 0x810, [], .plain64, 0x0, 0x0, 0xe000, 0xffffffffffff0000, false, .chip, []⟩,
  ⟨.UPTIME, 0x818, [], .view64, 0x0, 0x0, 0x0, 0x0, false, .chip, []⟩,
  ⟨.GLB_IRQ_STAT, 0x820, [], .plain32, 0x0, 0x0, 0x0, 0x0, false, .chip, []⟩,
  ⟨.GLB_IRQ_MASK, 0x828, [], .plain32, 0x0, 0xffffffff, 0x0, 0x0, false, .chip, []⟩,
  ⟨.GPIO_OUT, 0x830, [], .plain32, 0x0, 0xffff, 0x0, 0x0, false, .chip, []⟩,
  ⟨.GPIO_IN, 0x838, [], .view32, 0x0, 0x0, 0x0, 0x0, false, .chip, []⟩,
  ⟨.SCRATCH, 0x880, [(4, 0x8)], .plain64, 0x0, 0xffffffffffffffff, 0x0, 0x0, false, .chip, []⟩,
  ⟨.HMBX_OUT, 0x10000, [(4, 0x8)], .plain64, 0x0, 0xffffffff, 0x0, 0x0, false, .chip, []⟩,
  ⟨.HMBX_IN, 0x10020, [(4, 0x8)], .plain64, 0x0, 0x0, 0x0, 0x8000000000000000, false, .chip, []⟩,
  ⟨.HMBX_STAT, 0x10040, [], .plain32, 0x0, 0x0, 0x80000000, 0xffff00, false, .chip, []⟩,
  ⟨.SHMBX, 0x10100, [(16, 0x8)], .plain64, 0x0, 0xffffffff, 0x0, 0x0, false, .chip, []⟩,
  ⟨.LOCK, 0x10200, [(16, 0x8)], .view32, 0x0, 0x0, 0x0, 0x0, false, .chip, []⟩,
  ⟨.LOCK_STAT, 0x10300, [], .plain64, 0x0, 0x0, 0x0, 0xffff, false, .chip, []⟩,
  ⟨.LOCK_FORCE, 0x10308, [], .plain32, 0x0, 0x0, 0x0, 0x0, true, .chip, []⟩]

/-- Rows of the register map. -/
def regTable1 : List RegDesc := [
  ⟨.BOOT_STAT, 0x20000, [], .plain64, 0x0, 0x0, 0x60, 0xffff0000, false, .chip, []⟩,
  ⟨.FURNISH_STAT, 0x20008, [], .plain64, 0x0, 0x0, 0x0, 0x0, false, .chip, []⟩,
  ⟨.FLASH_ADDR, 0x20010, [], .plain32, 0x0, 0xffffffff, 0x0, 0x0, false, .chip, []⟩,
  ⟨.FLASH_CMD, 0x20018, [], .plain32, 0x0, 0x0, 0x0, 0x0, false, .chip, []⟩,
  ⟨.FLASH_STAT, 0x20020, [], .plain32, 0x0, 0x0, 0x0, 0x70000000, false, .chip, []⟩,
  ⟨.FLASH_BUF, 0x20100, [(32, 0x8)], .plain64, 0x0, 0xffffffffffffffff, 0x0, 0x0, false, .chip, []⟩,
  ⟨.ADM_CHIP, 0x80000, [], .view64, 0x0, 0x0, 0x0, 0x0, false, .chip, []⟩,
  ⟨.RADIO_CFG, 0x80008, [], .pair64, 0x258006480000a00, 0xffff01ffffc0ff00, 0x0, 0x0, true, .chip, [.range ⟨48, 16⟩ 64 1024, .range ⟨32, 9⟩ 50 500, .range ⟨28, 4⟩ 2 15, .range ⟨8, 8⟩ 1 255]⟩,
  ⟨.SHADOW_STAT, 0x80020, [], .plain64, 0x0, 0x0, 0x0, 0xffffffff, false, .chip, []⟩,
  ⟨.MISS_STAT, 0x80028, [], .plain64, 0x0, 0x0, 0xc000000000000000, 0xffffffffffff, false, .chip, []⟩,
  ⟨.MISS_HI, 0x80030, [], .view64, 0x0, 0x0, 0x0, 0x0, false, .chip, []⟩,
  ⟨.MISS_LO, 0x80038, [], .view64, 0x0, 0x0, 0x0, 0x0, false, .chip, []⟩,
  ⟨.CELL_CTL, 0x81000, [(1024, 0x20)], .pair64, 0x40000000, 0xfffffffffff00000, 0x0, 0x0, true, .chip, []⟩,
  ⟨.CELL_STAT, 0x81010, [(1024, 0x20)], .view64, 0x0, 0x0, 0x0, 0x0, false, .chip, []⟩,
  ⟨.PFX_STAT, 0x90000, [], .view64, 0x0, 0x0, 0x0, 0x0, false, .chip, []⟩,
  ⟨.PFX_CNT, 0x90008, [], .plain64, 0x0, 0x0, 0x0, 0xffffffffffffffff, false, .chip, []⟩,
  ⟨.MSIX_ADDR, 0xf0000, [(2048, 0x10)], .plain64, 0x0, 0xffffffffffffffff, 0x0, 0x0, false, .chip, []⟩,
  ⟨.MSIX_DATA, 0xf0008, [(2048, 0x10)], .plain32, 0x0, 0xffffffff, 0x0, 0x0, false, .chip, []⟩,
  ⟨.MSIX_CTRL, 0xf000c, [(2048, 0x10)], .plain32, 0x1, 0x1, 0x0, 0x0, false, .chip, []⟩,
  ⟨.MSIX_PBA, 0xf8000, [(32, 0x8)], .plain64, 0x0, 0x0, 0x0, 0x0, false, .chip, []⟩]

/-- Rows of the register map. -/
def regTable2 : List RegDesc := [
  ⟨.TM_STATE, 0x100000, [], .plain32, 0x0, 0x0, 0xc0000000, 0xff0000, false, .chip, []⟩,
  ⟨.CT_SEC, 0x100008, [], .view64, 0x0, 0x0, 0x0, 0x0, false, .chip, []⟩,
  ⟨.CT_NS, 0x100010, [], .view64, 0x0, 0x0, 0x0, 0x0, false, .chip, []⟩,
  ⟨.RT_NOW, 0x100018, [], .view64, 0x0, 0x0, 0x0, 0x0, false, .chip, []⟩,
  ⟨.RT_VIEW, 0x100020, [(4, 0x8)], .view64, 0x0, 0x0, 0x0, 0x0, false, .chip, []⟩,
  ⟨.RT_OFFSET, 0x100040, [], .pair32, 0x0, 0xffffffff, 0x0, 0x0, true, .chip, []⟩,
  ⟨.PTP_DOM_CFG, 0x100080, [(2, 0x10)], .pair64, 0x18000708012c80, 0xff3fffffffff80, 0x0, 0x0, true, .chip, [.range ⟨48, 8⟩ 24 43, .range ⟨24, 8⟩ 1 255]⟩,
  ⟨.PTP_DOM_STAT, 0x1000a0, [(2, 0x8)], .plain64, 0xff00000000000000, 0x0, 0x0, 0x0, false, .chip, []⟩,
  ⟨.HOLD_CFG, 0x1000c0, [], .pair32, 0x0, 0xffffffff, 0x0, 0x0, true, .chip, []⟩,
  ⟨.FREQ_CFG, 0x1000c8, [], .pair32, 0x0, 0x3f, 0x0, 0x0, true, .chip, [.range ⟨4, 2⟩ 0 2]⟩,
  ⟨.PPS_CFG, 0x1000d0, [], .pair32, 0x0, 0xffffff03, 0x0, 0x0, true, .chip, []⟩,
  ⟨.PPS_IN_STAMP, 0x1000d8, [], .plain64, 0x0, 0x0, 0x0, 0x0, false, .chip, []⟩,
  ⟨.TS_ASYM, 0x100100, [(4, 0x4)], .plain32, 0x0, 0xffffffff, 0x0, 0x0, true, .chip, []⟩,
  ⟨.TSQ_HI, 0x100200, [(4, 0x20)], .view64, 0x0, 0x0, 0x0, 0x0, false, .chip, []⟩,
  ⟨.TSQ_LO, 0x100208, [(4, 0x20)], .view64, 0x0, 0x0, 0x0, 0x0, false, .chip, []⟩,
  ⟨.TSQ_STAT, 0x100210, [(4, 0x20)], .plain32, 0x0, 0x0, 0x80000000, 0xffff00, false, .chip, []⟩,
  ⟨.EVT_STAGE, 0x101000, [(4, 0x8)], .plain64, 0x0, 0xffffffffffffffff, 0x0, 0x0, false, .chip, []⟩,
  ⟨.EVT_CMD, 0x101020, [], .plain32, 0x0, 0x0, 0x0, 0x0, true, .chip, []⟩,
  ⟨.EVT_STAT, 0x101028, [], .plain32, 0x0, 0x0, 0x80000000, 0x7fffffff, false, .chip, []⟩,
  ⟨.PORT_CFG, 0x200000, [(4, 0x10000)], .pair32, 0x140100, 0xffff00, 0x0, 0x0, true, .chip, [.range ⟨10, 2⟩ 0 2]⟩]

/-- Rows of the register map. -/
def regTable3 : List RegDesc := [
  ⟨.PORT_STAT, 0x200008, [(4, 0x10000)], .plain32, 0x0, 0x0, 0xc0000000, 0xffff, false, .chip, []⟩,
  ⟨.PORT_CNT, 0x200100, [(4, 0x10000), (4, 0x80), (10, 0x8)], .plain64, 0x0, 0x0, 0x0, 0xffffffffffffffff, false, .chip, []⟩,
  ⟨.STEER0, 0x201000, [(4, 0x10000), (256, 0x20)], .pair128, 0x0, 0xfffffffffffffff3, 0x0, 0x0, true, .chip, []⟩,
  ⟨.STEER1, 0x201008, [(4, 0x10000), (256, 0x20)], .pair128, 0x0, 0x3f3f, 0x0, 0x0, true, .chip, []⟩,
  ⟨.SHP_STAGE, 0x204000, [(4, 0x10000), (4, 0x8)], .plain64, 0x0, 0xffffffffffffffff, 0x0, 0x0, false, .chip, []⟩,
  ⟨.SHP_CMD, 0x204020, [(4, 0x10000)], .plain32, 0x0, 0x0, 0x0, 0x0, true, .chip, []⟩,
  ⟨.SHP_STAT, 0x204028, [(4, 0x10000)], .plain32, 0x0, 0x0, 0x0, 0xc000ffff, false, .chip, []⟩,
  ⟨.FH_STAT, 0x240000, [], .plain64, 0x0, 0x0, 0x0, 0xfffffffffffff000, false, .chip, []⟩,
  ⟨.STRM_CFG, 0x280000, [(4096, 0x80)], .pair64, 0x800, 0xffffffffffffff00, 0x0, 0x0, true, .chip, [.range ⟨26, 2⟩ 0 2, .zeroOrAtLeast ⟨22, 4⟩ 8, .rangeIf ⟨31, 1⟩ ⟨12, 9⟩ 1 275, .range ⟨9, 3⟩ 0 5]⟩,
  ⟨.STRM_GRID, 0x280010, [(4096, 0x80)], .pair64, 0x0, 0xfffffffff3ffffff, 0x0, 0x0, true, .chip, [.range ⟨30, 2⟩ 0 1]⟩,
  ⟨.STRM_AGC, 0x280020, [(4096, 0x80)], .pair64, 0x600c0e0400000000, 0xffffffffffffe000, 0x0, 0x0, true, .chip, [.range ⟨40, 8⟩ 1 255, .signedRange ⟨35, 5⟩ 8, .range ⟨13, 21⟩ 0 1228799]⟩,
  ⟨.STRM_CNT0, 0x280030, [(4096, 0x80)], .plain64, 0x0, 0x0, 0x0, 0xffffffffffffffff, false, .chip, []⟩,
  ⟨.STRM_CNT1, 0x280038, [(4096, 0x80)], .plain64, 0x0, 0x0, 0x0, 0xffffffffffffffff, false, .chip, []⟩,
  ⟨.STRM_CNT2, 0x280040, [(4096, 0x80)], .plain64, 0x0, 0x0, 0x0, 0xffffffffffffffff, false, .chip, []⟩,
  ⟨.FAB_CFG, 0x300000, [], .pair64, 0x7d00a100000, 0xffffffffffff0001, 0x0, 0x0, true, .chip, [.range ⟨32, 16⟩ 100 65535, .range ⟨24, 8⟩ 1 255, .range ⟨16, 8⟩ 1 255]⟩,
  ⟨.FAB_STAT, 0x300010, [], .plain64, 0x0, 0x0, 0xc0000000, 0x0, false, .chip, []⟩,
  ⟨.FAB_CNT0, 0x300018, [], .plain64, 0x0, 0x0, 0x0, 0xffffffffffffffff, false, .chip, []⟩,
  ⟨.FAB_CNT1, 0x300020, [], .plain64, 0x0, 0x0, 0x0, 0xffffffffffffffff, false, .chip, []⟩,
  ⟨.FAB_CNT2, 0x300028, [], .plain64, 0x0, 0x0, 0x0, 0xffffffffffffffff, false, .chip, []⟩,
  ⟨.TAB_STAGE, 0x300100, [(4, 0x8)], .plain64, 0x0, 0xffffffffffffffff, 0x0, 0x0, false, .chip, []⟩]

/-- Rows of the register map. -/
def regTable4 : List RegDesc := [
  ⟨.TAB_CMD, 0x300120, [], .plain32, 0x0, 0x0, 0x0, 0x0, true, .chip, []⟩,
  ⟨.TAB_STAT, 0x300128, [], .plain32, 0x0, 0x0, 0x0, 0xf0000000, false, .chip, []⟩,
  ⟨.TAB_INFO, 0x300130, [], .plain64, 0x0, 0x0, 0x0, 0x0, false, .chip, []⟩,
  ⟨.FPORT_CFG, 0x310000, [(6, 0x1000)], .pair32, 0x0, 0x1, 0x0, 0x0, true, .chip, []⟩,
  ⟨.FPORT_STAT, 0x310008, [(6, 0x1000)], .plain64, 0x0, 0x0, 0xc0000000, 0xff00000000, false, .chip, []⟩,
  ⟨.FPORT_CNT, 0x310100, [(6, 0x1000), (10, 0x8)], .plain64, 0x0, 0x0, 0x0, 0xffffffffffffffff, false, .chip, []⟩,
  ⟨.FSHP_STAGE, 0x310400, [(6, 0x1000), (4, 0x8)], .plain64, 0x0, 0xffffffffffffffff, 0x0, 0x0, false, .chip, []⟩,
  ⟨.FSHP_CMD, 0x310420, [(6, 0x1000)], .plain32, 0x0, 0x0, 0x0, 0x0, true, .chip, []⟩,
  ⟨.FSHP_STAT, 0x310428, [(6, 0x1000)], .plain32, 0x0, 0x0, 0x0, 0xc000ffff, false, .chip, []⟩,
  ⟨.DCK_CTL, 0x400000, [(64, 0x1000)], .pair64, 0x3e80000, 0xfc0ffffffff0000, 0x0, 0x0, true, .chip, [.range ⟨58, 2⟩ 0 2, .range ⟨16, 16⟩ 1 65535]⟩,
  ⟨.DCK_QUOTA, 0x400010, [(64, 0x1000)], .pair64, 0x0, 0xfffffffffc000000, 0x0, 0x0, true, .chip, [.range ⟨52, 12⟩ 0 768, .range ⟨26, 10⟩ 0 256]⟩,
  ⟨.DCK_LIMITS, 0x400020, [(64, 0x1000)], .pair64, 0x0, 0xfffffffffff00000, 0x0, 0x0, true, .chip, [.range ⟨57, 7⟩ 0 64, .range ⟨50, 7⟩ 0 64, .range ⟨45, 5⟩ 0 16, .range ⟨38, 7⟩ 0 64, .zeroOrAtLeast ⟨27, 11⟩ 32, .range ⟨20, 7⟩ 0 64]⟩,
  ⟨.DCK_SHP, 0x400030, [(64, 0x1000)], .pair64, 0x0, 0xfffffffffffffff, 0x0, 0x0, true, .chip, []⟩,
  ⟨.DCK_FAB, 0x400040, [(64, 0x1000), (2, 0x10)], .pair64, 0x0, 0xffffffffffffffff, 0x0, 0x0, true, .chip, []⟩,
  ⟨.DCK_RADIO, 0x400060, [(64, 0x1000)], .pair64, 0x0, 0xfffff80000000000, 0x0, 0x0, true, .chip, [.range ⟨43, 11⟩ 0 1024]⟩,
  ⟨.WIN0, 0x400100, [(64, 0x1000), (16, 0x20)], .pair128, 0x0, 0xffffffffffffffc0, 0x0, 0x0, true, .chip, [.range ⟨8, 2⟩ 0 2]⟩,
  ⟨.WIN1, 0x400108, [(64, 0x1000), (16, 0x20)], .pair128, 0x0, 0xfffffffffff00000, 0x0, 0x0, true, .chip, []⟩,
  ⟨.KEY_V, 0x400400, [(64, 0x1000), (8, 0x8)], .plain64, 0x0, 0x0, 0x0, 0x0, false, .chip, []⟩,
  ⟨.KEY_C, 0x400440, [(64, 0x1000), (8, 0x8)], .plain64, 0x0, 0x0, 0x0, 0x0, false, .chip, []⟩,
  ⟨.KEY_CMD, 0x400480, [(64, 0x1000)], .plain32, 0x0, 0x0, 0x0, 0x0, true, .chip, []⟩]

/-- Rows of the register map. -/
def regTable5 : List RegDesc := [
  ⟨.TEN_STAT, 0x400488, [(64, 0x1000)], .plain64, 0x0, 0x0, 0x1000000000000000, 0xf00000000000000, false, .chip, []⟩,
  ⟨.DIRTY_H, 0x400500, [(64, 0x1000), (2, 0x8)], .plain64, 0x0, 0xfffffffffffff000, 0x0, 0x0, true, .chip, []⟩,
  ⟨.DIRTY_D, 0x400510, [(64, 0x1000), (2, 0x8)], .plain64, 0x0, 0xfffffffffffff000, 0x0, 0x0, true, .chip, []⟩,
  ⟨.DIRTY_CMD, 0x400520, [(64, 0x1000)], .plain32, 0x0, 0x0, 0x0, 0x0, false, .chip, []⟩,
  ⟨.DIRTY_STAT, 0x400528, [(64, 0x1000)], .plain64, 0x0, 0x0, 0x0, 0xffffffff, false, .chip, []⟩,
  ⟨.SLICE, 0x440000, [(1024, 0x10)], .pair64, 0x0, 0xfffff3f3f07, 0x0, 0x0, true, .chip, []⟩,
  ⟨.TIER_CFG, 0x500000, [], .pair64, 0x1020000000000001, 0xffffffff80000001, 0x0, 0x0, true, .chip, [.range ⟨56, 8⟩ 4 64, .multiple ⟨56, 8⟩ 4, .range ⟨35, 13⟩ 0 4096]⟩,
  ⟨.MIG_CFG, 0x500010, [], .pair64, 0x5a50100a00000000, 0xffffffff00000000, 0x0, 0x0, true, .chip, [.range ⟨56, 8⟩ 50 100, .atMost ⟨48, 8⟩ ⟨56, 8⟩ 40, .range ⟨40, 8⟩ 1 255, .range ⟨32, 8⟩ 1 255]⟩,
  ⟨.TIER_STAT, 0x500020, [], .plain64, 0x0, 0x0, 0x40000000, 0x0, false, .chip, []⟩,
  ⟨.TIER_CNT0, 0x500028, [], .plain64, 0x0, 0x0, 0x0, 0xffffffffffffffff, false, .chip, []⟩,
  ⟨.TIER_CNT1, 0x500030, [], .plain64, 0x0, 0x0, 0x0, 0xffffffffffffffff, false, .chip, []⟩,
  ⟨.TIER_CNT2, 0x500038, [], .plain64, 0x0, 0x0, 0x0, 0xffffffffffffffff, false, .chip, []⟩,
  ⟨.MAP_STAGE, 0x500100, [(4, 0x8)], .plain64, 0x0, 0xffffffffffffffff, 0x0, 0x0, false, .chip, []⟩,
  ⟨.MAP_CMD, 0x500120, [], .plain32, 0x0, 0x0, 0x0, 0x0, true, .chip, []⟩,
  ⟨.MAP_STAT, 0x500128, [], .plain32, 0x0, 0x0, 0x0, 0xff0000, false, .chip, []⟩,
  ⟨.HOST_POOL, 0x500200, [(8, 0x10)], .pair64, 0x0, 0xffffffffffffc001, 0x0, 0x0, true, .chip, [.rangeIf ⟨0, 1⟩ ⟨14, 16⟩ 1 65535]⟩,
  ⟨.HOST_POOL_STAT, 0x500280, [(8, 0x8)], .plain64, 0x0, 0x0, 0x0, 0x0, false, .chip, []⟩,
  ⟨.CXL_STAT, 0x500300, [(2, 0x8)], .plain64, 0x0, 0x0, 0x0, 0x0, false, .chip, []⟩,
  ⟨.MSCHED_CNT, 0x500400, [(4, 0x8)], .plain64, 0x0, 0x0, 0x0, 0xffffffffffffffff, false, .chip, []⟩,
  ⟨.LEND_WIN0, 0x501000, [(16, 0x20)], .pair128, 0x0, 0xffffff0000000003, 0x0, 0x0, true, .chip, [.rangeIf ⟨0, 1⟩ ⟨40, 8⟩ 1 16]⟩]

/-- Rows of the register map. -/
def regTable6 : List RegDesc := [
  ⟨.LEND_WIN1, 0x501008, [(16, 0x20)], .pair128, 0x0, 0xffffffff00000000, 0x0, 0x0, true, .chip, []⟩,
  ⟨.LEND_STAT, 0x501400, [(16, 0x8)], .plain64, 0x0, 0x0, 0x0, 0xffff, false, .chip, []⟩,
  ⟨.BORROW_WIN0, 0x502000, [(16, 0x20)], .pair128, 0x0, 0xfffffff000000001, 0x0, 0x0, true, .chip, [.rangeIf ⟨0, 1⟩ ⟨36, 8⟩ 1 16]⟩,
  ⟨.BORROW_WIN1, 0x502008, [(16, 0x20)], .pair128, 0x0, 0xffffffff00000000, 0x0, 0x0, true, .chip, []⟩,
  ⟨.BORROW_STAT, 0x502400, [(16, 0x8)], .plain64, 0x0, 0x0, 0x0, 0x0, false, .chip, []⟩,
  ⟨.TENANT_USE, 0x503000, [(64, 0x8)], .view64, 0x0, 0x0, 0x0, 0x0, false, .chip, []⟩,
  ⟨.CHIPC_COUNT, 0x600000, [(64, 0x10)], .plain64, 0x0, 0xffffffffffff, 0x0, 0x0, false, .chip, []⟩,
  ⟨.CHIPC_CFG, 0x600008, [(64, 0x10)], .plain64, 0x0, 0xfffffffffff9ff80, 0x40000, 0x0, false, .chip, []⟩,
  ⟨.CHIPC_SAMPLE, 0x600800, [(64, 0x8)], .plain64, 0x0, 0x0, 0x0, 0xff01, false, .chip, []⟩,
  ⟨.CNT_CTL, 0x600c00, [], .plain32, 0x0, 0x1, 0x80000000, 0x0, false, .chip, []⟩,
  ⟨.CNT_IRQ, 0x600c08, [], .view64, 0x0, 0x0, 0x0, 0x0, false, .chip, []⟩,
  ⟨.LOG_FIRST, 0x700000, [], .view64, 0x0, 0x0, 0x0, 0x0, false, .chip, []⟩,
  ⟨.LOG_NEXT, 0x700008, [], .view64, 0x0, 0x0, 0x0, 0x0, false, .chip, []⟩,
  ⟨.LOG_SEL, 0x700010, [], .plain64, 0x0, 0xffffffffffffffff, 0x0, 0x0, false, .chip, []⟩,
  ⟨.LOG_RD, 0x700018, [], .plain32, 0x0, 0x0, 0x0, 0xffff, false, .chip, []⟩,
  ⟨.LOG_STALL_US, 0x700020, [], .plain32, 0x0, 0x0, 0x0, 0xffffffff, false, .chip, []⟩,
  ⟨.LOG_ENT, 0x700040, [(4, 0x8)], .plain64, 0x0, 0x0, 0x0, 0x0, false, .chip, []⟩,
  ⟨.HEALTH_STAT, 0x800000, [], .view64, 0x2fa0000000400000, 0x0, 0x0, 0x0, false, .chip, []⟩,
  ⟨.ERR_STAT, 0x800008, [], .plain64, 0x0, 0x0, 0x8000000000000000, 0xffffffffffff, false, .chip, []⟩,
  ⟨.ERR_HI, 0x800010, [], .view64, 0x0, 0x0, 0x0, 0x0, false, .chip, []⟩]

/-- Rows of the register map. -/
def regTable7 : List RegDesc := [
  ⟨.ERR_LO, 0x800018, [], .view64, 0x0, 0x0, 0x0, 0x0, false, .chip, []⟩,
  ⟨.QUIRE_HEALTH, 0x800100, [(32, 0x8)], .plain64, 0x20400000, 0x0, 0x0, 0xffff, false, .chip, []⟩,
  ⟨.RCV_DESC, 0x800200, [], .pair64, 0x0, 0x1ffffffffffff80, 0x0, 0x0, false, .chip, []⟩,
  ⟨.RCV_CMD, 0x800210, [], .plain32, 0x0, 0x0, 0x0, 0x0, true, .chip, []⟩,
  ⟨.RCV_STAT, 0x800218, [], .plain64, 0x0, 0x0, 0x0, 0x7000000000000000, false, .chip, []⟩,
  ⟨.MIR_STAGE, 0x800300, [(4, 0x8)], .plain64, 0x0, 0xffffffffffffffff, 0x0, 0x0, false, .chip, []⟩,
  ⟨.MIR_CMD, 0x800320, [], .plain32, 0x0, 0x0, 0x0, 0x0, true, .chip, []⟩,
  ⟨.MIR_STAT, 0x800328, [], .plain32, 0x0, 0x0, 0x0, 0xf0000000, false, .chip, []⟩,
  ⟨.MIR_INFO, 0x800400, [(64, 0x8)], .plain64, 0x0, 0x0, 0x0, 0x0, false, .chip, []⟩,
  ⟨.QUIRE_MAP, 0x1000000, [(4, 0x1000000), (8, 0x100000), (8, 0x8)], .view64, 0x0, 0x0, 0x0, 0x0, false, .quire, []⟩,
  ⟨.QC_COUNT, 0x1010000, [(4, 0x1000000), (8, 0x100000), (16, 0x10)], .plain64, 0x0, 0xffffffffffff, 0x0, 0x0, false, .chip, []⟩,
  ⟨.QC_CFG, 0x1010008, [(4, 0x1000000), (8, 0x100000), (16, 0x10)], .plain64, 0x0, 0xfffffffffff9ff80, 0x40000, 0x0, false, .chip, []⟩,
  ⟨.QC_SAMPLE, 0x1010200, [(4, 0x1000000), (8, 0x100000), (16, 0x8)], .plain64, 0x0, 0x0, 0x0, 0xff01, false, .chip, []⟩,
  ⟨.WALK_STAT, 0x1020000, [(4, 0x1000000), (8, 0x100000)], .view32, 0x0, 0x0, 0x0, 0x0, false, .quire, []⟩,
  ⟨.WALK_CNT0, 0x1020008, [(4, 0x1000000), (8, 0x100000)], .plain64, 0x0, 0x0, 0x0, 0xffffffffffffffff, false, .quire, []⟩,
  ⟨.WALK_CNT1, 0x1020010, [(4, 0x1000000), (8, 0x100000)], .plain64, 0x0, 0x0, 0x0, 0xffffffffffffffff, false, .quire, []⟩,
  ⟨.SHEET_ID, 0x1040000, [(4, 0x1000000), (8, 0x100000), (66, 0x1000)], .view64, 0x0, 0x0, 0x0, 0x0, false, .sheet, []⟩,
  ⟨.SHEET_STAT, 0x1040008, [(4, 0x1000000), (8, 0x100000), (66, 0x1000)], .view32, 0xffff, 0x0, 0x0, 0x0, false, .sheet, []⟩,
  ⟨.SHEET_ERR, 0x1040010, [(4, 0x1000000), (8, 0x100000), (66, 0x1000)], .plain32, 0x0, 0x0, 0xf0000000, 0x0, false, .sheet, []⟩,
  ⟨.SHEET_CNT, 0x1040018, [(4, 0x1000000), (8, 0x100000), (66, 0x1000)], .plain64, 0x0, 0x0, 0x0, 0xffffffffffffffff, false, .sheet, []⟩]

/-- Rows of the register map. -/
def regTable8 : List RegDesc := [
  ⟨.SHEET_CTL, 0x1040020, [(4, 0x1000000), (8, 0x100000), (66, 0x1000)], .pair32, 0x1, 0x7, 0x0, 0x0, true, .sheet, []⟩,
  ⟨.SHEET_FAULT_ADDR, 0x1040028, [(4, 0x1000000), (8, 0x100000), (66, 0x1000)], .plain32, 0x0, 0x0, 0x0, 0x0, false, .sheet, []⟩,
  ⟨.FELT_TAG, 0x1040400, [(4, 0x1000000), (8, 0x100000), (66, 0x1000), (96, 0x4)], .view32, 0x0, 0x0, 0x0, 0x0, false, .sheet, []⟩,
  ⟨.SC_COUNT, 0x1040100, [(4, 0x1000000), (8, 0x100000), (66, 0x1000), (8, 0x10)], .plain64, 0x0, 0xffffffffffff, 0x0, 0x0, false, .chip, []⟩,
  ⟨.SC_CFG, 0x1040108, [(4, 0x1000000), (8, 0x100000), (66, 0x1000), (8, 0x10)], .plain64, 0x0, 0xfffffffffff9ff80, 0x40000, 0x0, false, .chip, []⟩,
  ⟨.SC_SAMPLE, 0x1040200, [(4, 0x1000000), (8, 0x100000), (66, 0x1000), (8, 0x8)], .plain64, 0xffff0000, 0x0, 0x0, 0xff01, false, .chip, []⟩,
  ⟨.SCHED_CFG, 0x1800000, [(4, 0x1000000)], .pair32, 0x280007, 0xffff0007, 0x0, 0x0, true, .ream, [.range ⟨16, 16⟩ 10 65535]⟩,
  ⟨.SCHED_STAT, 0x1800008, [(4, 0x1000000)], .view64, 0x0, 0x0, 0x0, 0x0, false, .ream, []⟩,
  ⟨.SCHED_CNT0, 0x1800010, [(4, 0x1000000)], .plain64, 0x0, 0x0, 0x0, 0xffffffffffffffff, false, .ream, []⟩,
  ⟨.SCHED_CNT1, 0x1800018, [(4, 0x1000000)], .plain64, 0x0, 0x0, 0x0, 0xffffffffffffffff, false, .ream, []⟩,
  ⟨.COUCH_LAST, 0x1800020, [(4, 0x1000000)], .plain64, 0x0, 0x0, 0x0, 0x0, false, .ream, []⟩,
  ⟨.STRIP_CFG, 0x1900000, [(4, 0x1000000)], .pair64, 0xfffffffff0000000, 0xfffffffff0000000, 0x0, 0x0, true, .ream, []⟩,
  ⟨.STRIP_STAT, 0x1900010, [(4, 0x1000000)], .view64, 0x0, 0x0, 0x0, 0x0, false, .ream, []⟩,
  ⟨.STRIP_ERR, 0x1900018, [(4, 0x1000000)], .plain32, 0x0, 0x0, 0xc0000000, 0x0, false, .ream, []⟩,
  ⟨.STRIP_CNT0, 0x1900020, [(4, 0x1000000)], .plain64, 0x0, 0x0, 0x0, 0xffffffffffffffff, false, .ream, []⟩,
  ⟨.STRIP_CNT1, 0x1900028, [(4, 0x1000000)], .plain64, 0x0, 0x0, 0x0, 0xffffffffffffffff, false, .ream, []⟩,
  ⟨.STRIP_CNT2, 0x1900030, [(4, 0x1000000)], .plain64, 0x0, 0x0, 0x0, 0xffffffffffffffff, false, .ream, []⟩,
  ⟨.FLOOR_CFG, 0x1a00000, [(4, 0x1000000)], .pair64, 0x408000040, 0xfff0001ff, 0x0, 0x0, true, .ream, [.range ⟨32, 4⟩ 0 6, .range ⟨24, 8⟩ 2 25]⟩,
  ⟨.REAM_CAP, 0x1a00010, [(4, 0x1000000)], .plain64, 0x0, 0x0, 0x0, 0x0, false, .ream, []⟩,
  ⟨.REAM_LOAD, 0x1a00018, [(4, 0x1000000)], .view64, 0x0, 0x0, 0x0, 0x0, false, .ream, []⟩]

/-- Rows of the register map. -/
def regTable9 : List RegDesc := [
  ⟨.GUST_CNT, 0x1a00020, [(4, 0x1000000)], .plain64, 0x0, 0x0, 0x0, 0xffffffffffffffff, false, .ream, []⟩,
  ⟨.ACQ_STAT, 0x1a00028, [(4, 0x1000000)], .plain64, 0x0, 0x0, 0xc000000000000000, 0xffff000003ff, false, .ream, []⟩,
  ⟨.GEN_STAT, 0x1b00000, [(4, 0x1000000)], .view32, 0x0, 0x0, 0x0, 0x0, false, .ream, []⟩,
  ⟨.SMP_CNT, 0x1b00008, [(4, 0x1000000)], .plain64, 0x0, 0x0, 0x0, 0xffffffffffffffff, false, .ream, []⟩,
  ⟨.DIG_CNT, 0x1b00010, [(4, 0x1000000)], .plain64, 0x0, 0x0, 0x0, 0xffffffffffffffff, false, .ream, []⟩,
  ⟨.RC_COUNT, 0x1c00000, [(4, 0x1000000), (32, 0x10)], .plain64, 0x0, 0xffffffffffff, 0x0, 0x0, false, .chip, []⟩,
  ⟨.RC_CFG, 0x1c00008, [(4, 0x1000000), (32, 0x10)], .plain64, 0x0, 0xfffffffffff9ff80, 0x40000, 0x0, false, .chip, []⟩,
  ⟨.RC_SAMPLE, 0x1c00400, [(4, 0x1000000), (32, 0x8)], .plain64, 0x0, 0x0, 0x0, 0xff01, false, .chip, []⟩,
  ⟨.SQ_TAIL, 0x10000000, [(1024, 0x1000), (64, 0x8)], .plain32, 0x0, 0xffff, 0x0, 0x0, false, .chip, []⟩,
  ⟨.CQ_HEAD, 0x10000200, [(1024, 0x1000), (64, 0x8)], .plain32, 0x0, 0xffff, 0x0, 0x0, false, .chip, []⟩,
  ⟨.DB_ERR, 0x10000400, [(1024, 0x1000)], .plain32, 0x0, 0x0, 0x80000000, 0xffff, false, .chip, []⟩,
  ⟨.CQ_FULL_STALL, 0x10000408, [(1024, 0x1000)], .plain32, 0x0, 0x0, 0x0, 0xffffffff, false, .chip, []⟩,
  ⟨.ETH_TX_TAIL, 0x10000500, [(1024, 0x1000), (16, 0x8)], .plain32, 0x0, 0xffff, 0x0, 0x0, false, .chip, []⟩,
  ⟨.ETH_RX_TAIL, 0x10000600, [(1024, 0x1000), (64, 0x8)], .plain32, 0x0, 0xffff, 0x0, 0x0, false, .chip, []⟩,
  ⟨.FAPI_TAIL, 0x10000800, [(1024, 0x1000)], .plain32, 0x0, 0xffff, 0x0, 0x0, false, .chip, []⟩,
  ⟨.FAPI_HEAD, 0x10000808, [(1024, 0x1000)], .plain32, 0x0, 0xffff, 0x0, 0x0, false, .chip, []⟩,
  ⟨.RX_NOBUF, 0x10000810, [(1024, 0x1000)], .plain32, 0x0, 0x0, 0x0, 0xffffff3f, false, .chip, []⟩,
  ⟨.MBX_OUT, 0x10000c00, [(1024, 0x1000), (4, 0x8)], .plain64, 0x0, 0xffffffff, 0x0, 0x0, false, .chip, []⟩,
  ⟨.MBX_IN, 0x10000c20, [(1024, 0x1000), (4, 0x8)], .plain64, 0x0, 0x0, 0x0, 0x8000000000000000, false, .chip, []⟩,
  ⟨.MBX_STAT, 0x10000c40, [(1024, 0x1000)], .plain32, 0x0, 0x0, 0x80000000, 0xffff00, false, .chip, []⟩]

/-- Rows of the register map. -/
def regTable10 : List RegDesc := [
  ⟨.SHMBX_A, 0x10000d00, [(1024, 0x1000), (16, 0x8)], .view64, 0x0, 0xffffffff, 0x0, 0x0, false, .chip, []⟩,
  ⟨.LOCK_A, 0x10000d80, [(1024, 0x1000), (16, 0x8)], .view32, 0x0, 0x0, 0x0, 0x0, false, .chip, []⟩,
  ⟨.RING_STAGE, 0x10000e00, [(1024, 0x1000), (4, 0x8)], .plain64, 0x0, 0xffffffffffffffff, 0x0, 0x0, false, .chip, []⟩,
  ⟨.RING_CMD, 0x10000e20, [(1024, 0x1000)], .plain32, 0x0, 0x0, 0x0, 0x0, true, .chip, []⟩,
  ⟨.RING_STAT, 0x10000e28, [(1024, 0x1000)], .plain32, 0x0, 0x0, 0x0, 0xf0000000, false, .chip, []⟩]

/-- The whole register map. -/
def regTable : List RegDesc :=
  regTable0 ++ regTable1 ++ regTable2 ++ regTable3 ++ regTable4 ++ regTable5 ++ regTable6 ++ regTable7 ++ regTable8 ++ regTable9 ++ regTable10

end Sys2Proof.Machine
end

