-- ==== Sys2Proof/Machine/State.lean ====
section
/-! DEFINITION. The state of the part as plain data: the register file, and one structure for each
engine, table, queue and buffer that the spec gives it. -/

namespace Sys2Proof.Machine

/-! ### Identity, one-time-programmable fuses and pins (R1, R2, R359, R379, R400, R414) -/

/-- The three assemblies of R1. -/
inductive Part where
  | fdn12h2d
  | fdn8h2d
  | fdn12h1d
deriving DecidableEq, Repr

/-- The two steppings of R2. -/
inductive Stepping where
  | a1
  | b0
deriving DecidableEq, Repr

/-- What is fixed at manufacture (R400) and in OTP (R365, R379). -/
structure Ident where
  part : Part
  stepping : Stepping
  serial : W64
  cardId : BitVec 4
  rollbackFloor : Nat
  unlockKey : Option (List Byte)
deriving DecidableEq, Repr

/-- Levels on the low-speed pins (R414): inputs first, then the open-drain outputs (true is high). -/
structure Pins where
  pwrok : Bool
  resetN : Bool
  perstN : Bool
  throttleN : Bool
  cardIdIn : BitVec 4
  gpioIn : BitVec 16
  faultN : Bool
  thermAlertN : Bool
  thermtripN : Bool
  mgAlertN : Bool
deriving DecidableEq, Repr

/-! ### Register access (R7, R397) -/

/-- What one requester has latched or held: value words of complemented pairs (R7), the low half it
wrote last (R397), the high half latched by its last access (R397), the radio-time latch of CT_SEC
(R43: CT_NS, RT_NOW, RT_VIEW[0..3]), and the queue entries latched by a HI read (R44, R219, R358). -/
structure ReqState where
  req : Requester
  held : Tab W64
  lowHalf : Option (Nat × W32)
  highLatch : Option (Nat × W32)
  ctLatch : Option (List W64)
  popLatch : Tab W64
deriving DecidableEq, Repr

/-! ### Time (R24 to R32) -/

/-- Holdover in progress (R32): chip time of its entry, whether it was assisted then, and when the
assisting source was lost. -/
structure Holdover where
  entered : Nat
  assisted : Bool
  sourceLost : Option Nat
deriving DecidableEq, Repr

/-- What the radio time unit knows of one PTP domain beside its registers (R30): consecutive Sync intervals
with all conditions held, the uptime at which it became good, that Announce keeps arriving, and the stamps of the servo:
a Sync's departure and arrival, and the Delay_Req's departure; and the servo's phase estimate in nanoseconds. -/
structure Domain where
  goodRun : Nat
  goodSince : Nat
  announceOk : Bool
  t1 : Nat
  t2 : Nat
  t3 : Nat
  offset : Int
deriving DecidableEq, Repr

/-- Chip time and the servo. `chip` counts 2⁻¹⁶ ns since the PTP epoch (R24), `uptime` control-clock
cycles since PWROK (R402). -/
structure TimeSt where
  chip : Nat
  uptime : Nat
  started : Nat
  domains : List Domain
  acquiring : Nat
  lastPhase : Option Nat
  lockSince : Nat
  holdover : Option Holdover
  ppsPresent : Bool
  ppsLast : Nat
  synceValid : Bool
  ref10mValid : Bool
  slewSecond : Nat
  slewUsed : Nat
deriving DecidableEq, Repr

/-- A stamp in a port's transmit time-stamp queue (R36, R44). -/
structure TxStamp where
  id : W16
  sec : Nat
  ns : Nat
  sub : Nat
deriving DecidableEq, Repr

/-- A radio-timed event entry (R38): the two words with their stored complements, and the absolute
fine tick of its instant once judged (R40), and the tick before which a slip holds it back (R39). -/
structure EvEntry where
  w0 : W64
  w1 : W64
  c0 : W64
  c1 : W64
  due : Option Int
  notBefore : Int
deriving DecidableEq, Repr

/-! ### Change log (R374 to R376) -/

/-- A change-log entry (R374). -/
structure LogEntry where
  taiNs : Nat
  seq : Nat
  old : W32
  new : W32
  space : Nat
  index : Nat
  cont : Bool
  frame : Nat
  rtValid : Bool
  origin : Nat
  crc : W16
deriving DecidableEq, Repr

/-- The change log: the on-chip ring, the spilled entries in reserved HBM (both oldest first), the next
sequence number, sequence numbers of damaged entries, and the fetch that LOG_SEL started. -/
structure ChangeLog where
  ring : List LogEntry
  hbm : List LogEntry
  next : Nat
  damaged : List Nat
  fetching : Option Nat
deriving DecidableEq, Repr

/-! ### Errors and health (R334 to R346) -/

/-- The health engine (R344 to R346): score, debt, points of the window, the lowest score of this
window, per-evidence event counts of the window, the hard cause and the uptime at which the window
began. -/
structure Health where
  score : Nat
  debt : Nat
  points : Nat
  floor : Nat
  counts : Tab Nat
  hardCause : Nat
  windowStart : Nat
deriving DecidableEq, Repr

/-- An entry of the error ring (R358). -/
structure ErrEntry where
  hi : W64
  lo : W64
deriving DecidableEq, Repr

/-- A recovery record (R353): its job and epoch, whether END closed it, and the done steps with the CRC
that completed them. -/
structure RcvRecord where
  job : Nat
  epoch : Nat
  closed : Bool
  done : Tab Nat
deriving DecidableEq, Repr

/-- A recovery descriptor (R351); `fromLocal` says that its PULL fills from LOCAL_SRC. -/
structure RcvDesc where
  job : Nat
  epoch : Nat
  step : Nat
  op : Nat
  jobStep : Nat
  dst : Nat
  length : Nat
  srcChip : Nat
  srcWindow : Nat
  srcKey : Nat
  localSrc : Nat
  digest : List Byte
  crc : Nat
  fromLocal : Bool
deriving DecidableEq, Repr

/-- A mirror entry (R347): the slot of its job, its two staged words, the half of the buddy's window that holds LIVE, the
64 KiB blocks written since each half last received a step, the halves that have received one, the step being copied, the latest step
mirrored or stamped, the pages (with their steps) whose stamps are outstanding, and that a copy failed. -/
structure MirrorEntry where
  slot : Nat
  v0 : W64
  v1 : W64
  live : Option Nat
  dirtyA : List Nat
  dirtyB : List Nat
  received : List Nat
  copying : Option Nat
  mirrored : Option Nat
  stamps : List (Nat × Nat)
  failed : Bool
deriving DecidableEq, Repr

/-! ### Start-up and monitor (R359 to R382) -/

/-- A flash operation in progress (R381): its OP, address, and the bytes it programs. -/
structure FlashOp where
  op : Nat
  addr : Nat
  data : List Byte
deriving DecidableEq, Repr

/-- The flash: its size, its bytes (each stored exclusive-or 0xFF, so that erased flash is unlisted),
and the written slots of the two incarnation sectors, lowest first (R363). -/
structure Flash where
  size : Nat
  bytes : List Host.Cell
  sector0 : List (W32 × W32)
  sector1 : List (W32 × W32)
  busy : Option FlashOp
deriving DecidableEq, Repr

/-- The monitor (R377 to R379). -/
structure Monitor where
  unlocked : Bool
  challenge : Option W32
  wrong : Nat
  refusedUntil : Option Nat
  baud : Nat
  lastCommand : Nat
deriving DecidableEq, Repr

/-- Power and thermal (R207, R419 to R423): the last measurements, whether class 1 to 3 issue is
throttled, the sources that ask for it, the hold after THROTTLE_N, the cooling fault, the dies whose
regulator failed, whether THERMTRIP stopped every clock, and the two measurements as the chip's counters last sampled them. -/
structure Power where
  watts : Nat
  junction : Nat
  powerThrottle : Bool
  pinThrottle : Bool
  holdUntil : Option Nat
  thermThrottle : Bool
  cooling : Bool
  lastShed : Nat
  avsFail : List Nat
  clockLimited : List Nat
  stopped : Bool
  sampledWatts : Nat
  sampledJunction : Nat
deriving DecidableEq, Repr

/-! ### Sheets (R69 to R97) -/

/-- The FX control and status registers (R75), each as its 32-bit word. -/
structure Csrs where
  acr : W32
  flags : W32
  fmt : W32
  mshape : W32
  mstride : W32
  mmeta : W32
  tapcfg : W32
  tapptr : W32
  rstream : W32
  ridxLo : W32
  ridxHi : W32
  rstep : W32
  rld : W32
  stager : W32
  dmcfg : W32
deriving DecidableEq, Repr

/-- The type of an accumulator bank (R84). -/
inductive AccKind where
  | fp32
  | int32
  | ci32
deriving DecidableEq, Repr

/-- An accumulator bank: 16×16 values in row-major order, a CI32 value with I in its low half. -/
structure AccBank where
  kind : AccKind
  vals : List W64
deriving DecidableEq, Repr

/-- The task a sheet holds or a queue waits with: its command, index, attempt number and logical sheet. -/
structure Task where
  cmd : Nat
  index : Nat
  attempt : Nat
  ctx : Nat
  slot : Nat
  cls : Nat
  logical : Nat
deriving DecidableEq, Repr

/-- The kinds of commit record (R90, R320). -/
inductive RecKind where
  | store
  | reduction
  | message
deriving DecidableEq, Repr

/-- A commit record: output slot, stager offset and length in bytes, destination byte offset; for a
partial its reduction slot with the RM, S and counter registers of its FX.STRED; for a message its felt
descriptor words. -/
structure CommitRec where
  kind : RecKind
  outSlot : Nat
  offset : Nat
  length : Nat
  dest : Nat
  rslot : Nat
  rm : Nat
  s : Bool
  draw : W32 × W64 × Nat
  words : List W32
  data : List Byte
deriving DecidableEq, Repr

/-- A deferred request of a command (R222, R265): its KIND, its felt descriptor words and the task order it
was made in. -/
structure Deferred where
  kind : Nat
  words : List W32
  task : Nat
deriving DecidableEq, Repr

/-- An outstanding DMA transfer or engine request of a sheet: its tag, KIND and descriptor words, the felt lines (or
for PREF_POOL the pool lines) it still has to fill, the incarnation it was issued under, that it is a prefetch, its place in
the order of issue, that it has been served, the pieces of data read for it by address, its result or status block, and for
a fabric read its port and the uptime it was sent. -/
structure DmaReq where
  tag : Nat
  kind : Nat
  words : List W32
  lines : List Nat
  inc : Nat
  pref : Bool
  issue : Nat
  served : Bool
  pieces : List (Nat × List Byte)
  block : Option (Nat × List Byte)
  sent : Option (Nat × Nat)
deriving DecidableEq, Repr

/-- An instruction in the issue window (R79) with the scalar operands and CSRs of its place in program
order (R76). -/
structure FxEntry where
  op : Instr
  rs1 : W32
  rs2 : W32
  csrs : Csrs
  pc : W32
deriving DecidableEq, Repr

/-- A joined-mode FX.MMA that a sheet has issued (R105). -/
structure JoinedIssue where
  bank : Nat
  clr : Bool
  sp : Bool
  s : Bool
  a : W32
  b : W32
  csrs : Csrs
deriving DecidableEq, Repr

/-- What a waiting instruction waits for (R88, R89): the scalar register it writes, and the event; for a radio-time instant also its
next occurrence, known while radio time is valid. -/
inductive WaitFor where
  | message (rd rxq : Nat)
  | inputWord (rd slot index : Nat)
  | token (rd : Nat) (token : W32)
  | radio (rd frame tick : Nat) (due : Option Int)
deriving DecidableEq, Repr

/-- The role of a physical sheet (R97). -/
inductive SheetRole where
  | active
  | spare
  | retired
  | scrubbing
deriving DecidableEq, Repr

/-- A sheet. `notReady` lists felt lines whose ready bit is 0 and `bankBusy` the accumulator banks (R80);
`draining` lists the lines a matrix read-out still writes; `claimed` the felt regions the current task has
claimed; `stalled` holds instructions of the task past the window, in program order; `started` is the uptime at which it took the task. -/
structure Sheet where
  role : SheetRole
  logical : List Nat
  incarnation : Nat
  task : Option Task
  killing : Bool
  wait : Option WaitFor
  felt : List Host.Cell
  tags : Tab Nat
  claimed : List Nat
  notReady : List Nat
  bankBusy : List Nat
  draining : List Nat
  vregs : List (List W32)
  banks : List AccBank
  taps : List (List W32)
  xregs : List W32
  pc : W32
  csrs : Csrs
  window : List FxEntry
  stalled : List Instr
  records : List CommitRec
  deferred : List Deferred
  dma : List DmaReq
  nextTag : Nat
  joined : Option JoinedIssue
  cntLatch : Option W32
  commitSlot : Bool
  retireAsked : Bool
  acquired : Option Nat
  started : Nat
  errorUptime : Option Nat
  feltCeWindow : Nat
  patrolWord : Nat
  waitSince : Nat
deriving DecidableEq, Repr

/-! ### Quires and reams -/

/-- A commit slot in the quire pool that is draining (R91): the task and what it commits. -/
structure CommitSlot where
  task : Task
  sheet : Nat
  records : List CommitRec
  flags : Nat
  deferred : List Deferred
deriving DecidableEq, Repr

/-- A joined instruction in progress on a quire (R105): the group's command and first task, and the next
step. -/
structure JoinedRun where
  cmd : Nat
  group : Nat
  step : Nat
deriving DecidableEq, Repr

/-- A per-sheet task queue, by logical sheet (R126). -/
structure TaskQueue where
  logical : Nat
  tasks : List Task
deriving DecidableEq, Repr

/-- A quire: its pool bytes and their poisoned lines, per-sheet queues, commit slots, joined run, and when
it was isolated. -/
structure Quire where
  pool : List Host.Cell
  poison : List Nat
  queues : List TaskQueue
  slots : List CommitSlot
  joined : Option JoinedRun
  isolations : List Nat
  isolatedForGood : Bool
  dupCommits : Nat
  rr : Nat
deriving DecidableEq, Repr

/-! ### Commands, contexts and programs (R112 to R143) -/

/-- A command descriptor (R115). -/
structure Desc where
  program : Nat
  ctx : Nat
  cls : Nat
  flags : Nat
  footprint : Nat
  mode : Nat
  version : Nat
  tasks : Nat
  tensorTab : Nat
  seed : W64
  deadline : Nat
  token : Nat
  waitToken : Nat
  job : Nat
  step : Nat
  rslots : Nat
  params : List W32
  reservedOk : Bool
deriving DecidableEq, Repr

/-- A tensor table entry (R117). -/
structure Tensor where
  base : Nat
  length : Nat
  format : Nat
  weight : Bool
deriving DecidableEq, Repr

/-- A split-reduction partial held until every task has committed (R64). -/
structure Partial where
  outSlot : Nat
  dest : Nat
  rslot : Nat
  rm : Nat
  s : Bool
  draw : W32 × W64 × Nat
  data : List Byte
deriving DecidableEq, Repr

/-- Where a command came from: a submission queue of a slot, or a radio-timed event that names a ream. -/
inductive CmdSource where
  | sq (q cq tag sqHead : Nat)
  | event (ream : Nat)
deriving DecidableEq, Repr

/-- How a command ends before its time: the status, trap cause and program counter. -/
structure CmdEnd where
  status : Nat
  cause : Nat
  pc : Nat
deriving DecidableEq, Repr

/-- An accepted command that has not completed. `placed` is the number of its tasks handed on, `committed`
the indices whose commit record is written, `drained` how many drained. -/
structure Command where
  uid : Nat
  slot : Nat
  source : CmdSource
  desc : Desc
  tensors : List Tensor
  accepted : Nat
  placed : Bool
  committed : List Nat
  drained : Nat
  flags : Nat
  late : Bool
  nonrepro : Bool
  reruns : Nat
  partials : List Partial
  deferred : List Deferred
  ending : Option CmdEnd
  digests : List (Nat × List Byte)
  fabricOpen : Nat
  cell : Option Nat
deriving DecidableEq, Repr

/-- A completion entry (R122) that a full CQ holds back (R123), or that has been written. -/
structure Completion where
  tag : Nat
  token : Nat
  status : Nat
  cause : Nat
  flags : Nat
  nonrepro : Bool
  late : Bool
  sq : Nat
  sqHead : Nat
  reruns : Nat
  step : Nat
  trapPc : Nat
  interrupt : Bool
  watermark : List Byte
deriving DecidableEq, Repr

/-- Where the state of a context is (R134 to R140). -/
inductive CtxPlace where
  | onChip
  | couchingOut
  | couched
  | couchingIn
deriving DecidableEq, Repr

/-- The image of one logical sheet of a couched context (R134): felt regions, vector registers,
accumulators, taps, scalar registers, CSRs, program counter; and of the task that waits on it its wait, instructions, records,
deferred requests, claimed regions and lines that are not ready (log entry 37). -/
structure SheetImage where
  logical : Nat
  felt : List Host.Cell
  tags : Tab Nat
  vregs : List (List W32)
  banks : List AccBank
  taps : List (List W32)
  xregs : List W32
  csrs : Csrs
  pc : W32
  task : Option Task
  wait : Option WaitFor
  window : List FxEntry
  stalled : List Instr
  records : List CommitRec
  deferred : List Deferred
  claimed : List Nat
  notReady : List Nat
  nextTag : Nat
deriving DecidableEq, Repr

/-- A context (R134): its slot, footprint, ream mask, pool bytes per quire, where it is, its gang (quire × 64 + logical sheet in the
quire, one for each logical sheet), its images and queued tasks while couched, its wake condition met, the AIC that
last ran it, its couch area in units of 2 MiB, its pool bytes by quire while couched, the uptime at which a couch began, and that no event may
keep it on chip. -/
structure Context where
  slot : Nat
  footprint : Nat
  reamMask : Nat
  joinedCapable : Bool
  poolBytes : Nat
  place : CtxPlace
  gang : List Nat
  images : List SheetImage
  queued : List Task
  blockedSince : Option Nat
  runnableSince : Option Nat
  aic : Nat
  aicOverride : Bool
  couchPages : Nat
  pools : List (List Host.Cell)
  couchStart : Nat
  evicting : Bool
deriving DecidableEq, Repr

/-- A loaded program image: the slot whose PROGRAM_LOAD made it (none for a radio program of the furnish,
R431), its bytes, digest and draw mode. -/
structure Program where
  slot : Option Nat
  image : List Byte
  digest : List Byte
  shared : Bool
deriving DecidableEq, Repr

/-! ### Memory tiers (R255 to R277) -/

/-- Where a translation page lies: its HBM ream, a CXL device, a host pool region, a borrowed window, or
nowhere once revoked (R274). -/
inductive PagePlace where
  | t2 (ream : Nat)
  | cxl (d : Nat)
  | hostPool (h : Nat)
  | t4 (w : Nat)
  | revoked
deriving DecidableEq, Repr

/-- A mapped translation page (R258): size code, attributes, HOME, place, that it belongs to a prefix-cache entry
(R244), and its reads in this interval and the interval of its last read (R269). -/
structure Page where
  size : Nat
  read : Bool
  write : Bool
  sealed_ : Bool
  pin : Bool
  radio : Bool
  pfx : Bool
  home : Nat
  place : PagePlace
  reads : Nat
  lastRead : Nat
deriving DecidableEq, Repr

/-- A mapping operation that waits for its commands (R261): OP, slot, first address, page size and count,
attribute word, origin, the uptime of its start, and for a deferred request its command. -/
structure MapRun where
  op : Nat
  slot : Nat
  va : Nat
  size : Nat
  count : Nat
  attrs : W64
  origin : Nat
  started : Nat
  cmd : Option Nat
deriving DecidableEq, Repr

/-- A page copy in progress (R270): its page and where it goes. -/
structure Migration where
  key : Nat
  goal : PagePlace
deriving DecidableEq, Repr

/-- A lent or borrowed window beside its registers: its recall deadline (chip-time nanoseconds), the bytes a lender
holds, and the MiB of it that the borrower has written. -/
structure WinState where
  deadline : Option Nat
  data : List Host.Cell
  mib : List Nat
deriving DecidableEq, Repr

/-! ### Tenants (R285 to R304) -/

/-- A ring (R296) with the part's own index, the software's index, and for a completion queue its phase and
held completions (R122, R123). `stopped` marks a submission queue whose fetch was aborted (R114). -/
structure Ring where
  slot : Nat
  kind : Nat
  index : Nat
  slice : Nat
  base : Nat
  log2 : Nat
  vector : Nat
  radio : Bool
  intEn : Bool
  bufUnits : Nat
  own : Nat
  soft : Nat
  phase : Bool
  held : List Completion
  stopped : Bool
  deleting : Bool
  stage0 : W64
  stage1 : W64
deriving DecidableEq, Repr

/-- A lock (R303): the owner number, 0 when free, and whether its complement was found broken. -/
structure Lock where
  owner : Nat
  broken : Bool
deriving DecidableEq, Repr

/-- A draining slot (R287): the uptime of its RELEASE. -/
structure Draining where
  slot : Nat
  since : Nat
deriving DecidableEq, Repr







/-! ### Generation engines (R221 to R250) -/

/-- A walk slot (R232): the sheet's key and task that hold it, the tenant slot, the snapshot of the sequence (tokens, log2 of
the page, heads, channels, key and value formats, page objects), the queries, the settings and the selected pages. -/
structure WalkSlot where
  key : Nat
  task : Task
  tenant : Nat
  tokens : Nat
  pageLog2 : Nat
  heads : Nat
  dim : Nat
  kfmt : Nat
  vfmt : Nat
  entries : List Nat
  query : List W32
  nq : Nat
  mode : Nat
  tauLog2 : Nat
  scale : W32
  round : Nat
  maxPages : Nat
  selected : List Nat
deriving DecidableEq, Repr

/-- A prefix-cache pool entry (R243). -/
structure PfxEntry where
  slot : Nat
  key : List Byte
  geometry : List Byte
  object : Nat
  chain : List Byte
  refs : Nat
  lastUse : Nat
deriving DecidableEq, Repr

/-- An object of a tenant's weight table (R249). -/
structure Weight where
  index : Nat
  base : Nat
  length : Nat
  digest : List Byte
deriving DecidableEq, Repr

/-! ### Memory fabric (R309 to R332) -/

/-- A fabric window (R317): its two words and the DENIED replies since it was written. -/
structure FabWindow where
  v0 : W64
  v1 : W64
  denied : Nat
deriving DecidableEq, Repr

/-- A job table entry (R316): its word, that the job is torn down, and the windows, receive queues and mirror entries that its teardown
disabled (R329, R352). -/
structure FabJob where
  v0 : W64
  torn : Bool
  windows : List Nat
  queues : List Nat
  entries : List Nat
deriving DecidableEq, Repr

/-- A reserved slot of a receive queue (R325): its entry number, source, the source's own number, job, length, token,
task, sequence number, and that its payload and header are written. -/
structure Reservation where
  entry : Nat
  src : Nat
  job : Nat
  length : Nat
  token : Nat
  task : Nat
  seq : Nat
  written : Bool
deriving DecidableEq, Repr

/-- A receive queue (R325): its two words, head, tail, NOT_READY replies, reserved slots, and the next sequence number of
each source. -/
structure RxQueue where
  v0 : W64
  v1 : W64
  head : Nat
  tail : Nat
  notReady : Nat
  reserved : List Reservation
  seqs : Tab Nat
deriving DecidableEq, Repr

/-- Where a fabric record stands in its send engine (R321, R325, R327). -/
inductive RecState where
  | queued
  | reserving
  | ready
  | sent
  | waiting (until_ : Nat)
deriving DecidableEq, Repr

/-- A drained fabric record (R320, R321): its number, command, task index, slot, job and token, the descriptor's fields, its
payload, the payload bytes sent, its state, the uptime it was last sent or answered, and the NOT_READY replies in a
row. -/
structure FabRec where
  uid : Nat
  cmd : Nat
  task : Nat
  slot : Nat
  job : Nat
  token : Nat
  op : Nat
  cls : Nat
  dest : Nat
  target : Nat
  aop : Nat
  resEn : Bool
  offset : Nat
  key : Nat
  op0 : W64
  op1 : W64
  resSlot : Nat
  resOff : Nat
  data : List Byte
  gone : Nat
  state : RecState
  since : Nat
  notReady : Nat
deriving DecidableEq, Repr

/-- A store merged into an entry of an ingress buffer (R324): its source and the source's number, its job, address and data. -/
structure MergedStore where
  source : Nat × Nat
  job : Nat
  va : Nat
  data : List Byte
deriving DecidableEq, Repr

/-- An entry of a ream's ingress buffer (R324): its source and the source's number, job, slot, address, its data or atomic operation,
and the later stores to its line merged into it, oldest first. -/
structure Ingress where
  source : Nat × Nat
  job : Nat
  slot : Nat
  va : Nat
  op : FabricOp
  merged : List MergedStore
deriving DecidableEq, Repr

/-- A flit in a replay buffer (R312): its sequence number and channel. -/
structure SentFlit where
  seq : Nat
  vc : Nat
deriving DecidableEq, Repr

/-- The link layer of a fabric port (R311 to R313): the next sequence number to send, the next expected, that later flits are
being discarded after a NAK, the replay buffer, the credits held per channel, the flit replayed last and how often in
a row, and since when it retrains. -/
structure FabPort where
  tx : Nat
  rx : Nat
  discarding : Bool
  replay : List SentFlit
  credits : List Nat
  replayed : Nat
  replays : Nat
  retrain : Option Nat
deriving DecidableEq, Repr


/-! ### Ethernet ports, shaping and fronthaul (R146 to R168, R330) -/

/-- A frame in an egress queue: its bytes, its length with the check sequence, the identifier of the stamp it asked for,
and for a Delay_Req its domain. -/
structure Frame where
  data : List Byte
  length : Nat
  tsId : Option W16
  ptp : Option Nat
deriving DecidableEq, Repr

/-- A token bucket (R166, R167): REFILL, BURST in units of 256 bytes, its level in 1/1,024 bytes, and a change that waits
for the next refill. -/
structure Bucket where
  refill : Nat
  burst : Nat
  level : Nat
  next : Option (Nat × Nat)
deriving DecidableEq, Repr

/-- Where a DRR queue belongs: in use, class, sub-port, tenant group. -/
structure QueuePlace where
  enable : Bool
  cls : Nat
  subport : Nat
  group : Nat
deriving DecidableEq, Repr

/-- A DRR queue (R165 to R167): its place, a move that waits until it is empty, its quantum and a change of it, its bucket,
deficit and frames. -/
structure DrrQueue where
  place : QueuePlace
  move : Option QueuePlace
  quantum : Nat
  nextQuantum : Option Nat
  bucket : Bucket
  deficit : Nat
  frames : List Frame
deriving DecidableEq, Repr

/-- A class of a sub-port (R165): quantum and a change of it, deficit, the queue it visits, and that the visit has begun. -/
structure ClassDrr where
  quantum : Nat
  nextQuantum : Option Nat
  deficit : Nat
  queue : Nat
  visiting : Bool
deriving DecidableEq, Repr

/-- A class 0 queue (R159): in use, sub-port, DROP_AFTER, frames dropped late, the radio tick of its release while it is
released, and its frames. -/
structure Class0Queue where
  enable : Bool
  subport : Nat
  dropAfter : Nat
  txLate : Nat
  released : Option Int
  frames : List Frame
deriving DecidableEq, Repr

/-- The egress of a port (E0 to E3, then F0 to F5): DRR queues, tenant group buckets, classes by sub-port × 8 + class, class
0 queues, class 1 frames by sub-port, and for each sub-port the class it visits and whether the visit has begun. -/
structure EgPort where
  queues : Tab DrrQueue
  groups : Tab Bucket
  classes : Tab ClassDrr
  class0 : Tab Class0Queue
  ptp : Tab (List Frame)
  visit : Tab (Nat × Bool)
deriving DecidableEq, Repr

/-- What a symbol has brought a gain group (R158): the sum of I² + Q², the samples, and a clip. -/
structure GainSum where
  power : Nat
  samples : Nat
  clip : Bool
deriving DecidableEq, Repr

/-- A reception window of a stream (R154 to R156): open, the absolute tick at which its symbol starts and the symbol's frame,
slot in the frame and number, the close instant, PRBs received, that it waits for its final zeros and bitmap, and by gain group
the step in force for its symbol and what the symbol has brought. -/
structure RxWindow where
  open_ : Bool
  start : Int
  frame : Nat
  slot : Nat
  symbol : Nat
  closeAt : Option Int
  prbs : List Nat
  closing : Bool
  gains : List Int
  sums : List GainSum
deriving DecidableEq, Repr

/-- A fronthaul stream beside its registers: its four windows, for each gain group its step and the run of low symbols, and the
symbols that wait to be measured, each with the steps in force and its sums by group. -/
structure Stream where
  windows : List RxWindow
  gains : List Int
  runs : List Nat
  measured : List (List Int × List GainSum)
deriving DecidableEq, Repr



/-! ### Cells, the coding strips and cell shadowing (R162, R179 to R219) -/

/-- A HARQ buffer (R189 to R191): its UE, process and code block, its soft values by position (an unlisted position holds 0),
one past the highest position written, its place in the order of writes, and that a decode has not written back. -/
structure HarqBuf where
  ue : Nat
  process : Nat
  block : Nat
  values : List (Nat × Int)
  high : Nat
  order : Nat
  decoding : Bool
deriving DecidableEq, Repr

/-- An entry of a cell's HARQ process table (R214). -/
structure HarqProc where
  ue : Nat
  process : Nat
  newData : Bool
  rv : Nat
  tbBytes : Nat
  blocks : Nat
deriving DecidableEq, Repr

/-- An uplink PDU whose indication has not left (R181, R196): its number, the KIND of MISS_HI, its UE and process, its slot
and last symbol, its code blocks that have not ended, that all have passed, the bytes of each, and the latest close of a window
bound to its last symbol. -/
structure UlWork where
  id : Nat
  kind : Nat
  ue : Nat
  process : Nat
  frame : Nat
  sl : Nat
  last : Nat
  left : Nat
  passed : Bool
  data : List (Nat × List Byte)
  close : Option Int
deriving DecidableEq, Repr

/-- An accepted downlink PDU of a slot (R177, R182): its PDSCH index (none for another PDU), precoding, code blocks to encode, and its
transport block. -/
structure DlWork where
  id : Nat
  index : Option Nat
  pmIdx : Nat
  frame : Nat
  sl : Nat
  left : Nat
  data : Option (List Byte)
deriving DecidableEq, Repr

/-- A cell (R162, R181, R189, R195, R213 to R216) beside its registers: its radio slot, configuration and that it is running; its peer
chip, whether that has answered, the last slot mirrored and the mirror budget used in which window; the frame boundary of a
takeover or handover and an instant at which it stops with the state it goes to; decoder and encoder time charged by window; its
HARQ store; its uplink and downlink work; the SEQ of its interference ring; and what waits to be mirrored. -/
structure Cell where
  slot : Nat
  cfg : CellConfig
  running : Bool
  peer : Option Nat
  mirrored : Option (Nat × Nat)
  mirrorUsed : Nat × Nat
  retryAt : Nat
  boundary : Option Int
  stop : Option (Int × Nat)
  decUsed : Tab Nat
  encUsed : Tab Nat
  harq : List HarqBuf
  procs : List HarqProc
  nextOrder : Nat
  work : List UlWork
  dlWork : List DlWork
  nextWork : Nat
  ifSeq : Nat
  toMirror : List MirrorItem
deriving DecidableEq, Repr

/-- The kinds of coding job, by the engine class that does them (R184). -/
inductive JobKind where
  | decode
  | encode
  | polarEncode
  | polarDecode
  | prach
  | pucch
deriving DecidableEq, Repr

/-- A job of a coding strip (R184): its kind, cell, the deadline of R196 it serves, the PDU's number, its code block, the positions
it writes, and its maximum iterations. -/
structure CodeJob where
  kind : JobKind
  cell : Nat
  deadline : Int
  work : Nat
  block : Nat
  high : Nat
  newData : Bool
  iterations : Nat
deriving DecidableEq, Repr

/-- A ream's coding strip: the job of each busy engine and the jobs queued. -/
structure Strip where
  engines : Tab CodeJob
  queue : List CodeJob
deriving DecidableEq, Repr

/-- What a chip knows of a peer (R215): the uptime of its last heartbeat or acknowledgement on any path, and that it is declared lost. -/
structure Peer where
  heard : Nat
  lost : Bool
deriving DecidableEq, Repr

/-- The error codes of FAPI messages that the spec names. -/
inductive FapiError where
  | invalidConfig
  | invalidState
  | slotErr
deriving DecidableEq, Repr

/-- Messages from PHY to L2 (R162, R193). -/
inductive FapiMsg where
  | paramResponse (cell : Nat)
  | configResponse (cell : Nat) (err : Option FapiError)
  | stopInd (cell : Nat)
  | errorInd (cell : Nat) (err : Option FapiError)
  | slotInd (cell frame slot : Nat)
  | rxData (cell frame slot ue process : Nat) (data : List Byte)
  | crcInd (cell frame slot ue process : Nat) (passed : Bool) (m : Measures)
  | uciInd (cell frame slot ue : Nat) (passed dtx : Bool) (payload : List Byte) (confidence : Nat) (m : Measures)
  | srsInd (cell frame slot ue : Nat) (snr : List Int)
  | rachInd (cell frame slot : Nat) (found : List (Nat × Measures))
deriving DecidableEq, Repr

/-! ### What the part sends out -/

/-- A reply that the part sends to a fabric request (R317, R325). -/
inductive FabReply where
  | data (bytes : List Byte)
  | done (old : W64)
  | ready
  | notReady
  | failed (why : FabricFail)
deriving DecidableEq, Repr

/-- Messages between the two ends of a lent window (R271 to R273). -/
inductive LendMsg where
  | connect (key : W32)
  | accepted
  | denied
  | recalled (deadline : Nat)
  | done
  | data (bytes : List Byte)
deriving DecidableEq, Repr

/-- What leaves the part: read data, interrupts, monitor lines, SMBus bytes and pulses. -/
inductive Out where
  | readData (r : Requester) (v : W64)
  | unsupportedRequest (r : Requester)
  | msix (entry : Nat)
  | uart (name : String) (words : List W64)
  | smbus (bytes : List Byte)
  | delayReq (domain port sub : Nat)
  | ppsPulse (width : Nat)
  | frame (port sub : Nat) (data : List Byte)
  | fabRead (port dest key tag : Nat)
  | fabRecord (port dest rec first n : Nat)
  | fabReserve (port dest rec : Nat)
  | fabReply (dest : Nat) (id : Nat) (reply : FabReply)
  | fabNak (port seq : Nat)
  | fabReplay (port seq : Nat)
  | lendMsg (dest win : Nat) (what : LendMsg)
  | fapi (slot : Nat) (m : FapiMsg)
  | peer (port dest : Nat) (m : PeerMsg)
  | standbyRequest (dest cell slot : Nat) (cfg : CellConfig)
  | mirrorSet (dest cell frame sl : Nat) (items : List MirrorItem)
  | handoverMsg (dest cell : Nat) (boundary : Int)
  | mirrorCopy (dest win key job step half : Nat) (whole : Bool) (blocks : List Nat) (data : List Host.Cell)
  | mirrorSeal (dest win key off size step : Nat) (data : List Host.Cell)
  | mirrorUnstamp (dest win key off size : Nat)
deriving DecidableEq, Repr

/-! ### The chip -/

/-- Everything the spec gives the part, but the queue of waiting commands. -/
structure Chip where
  ident : Ident
  pins : Pins
  regs : Tab W64
  reqs : List ReqState
  time : TimeSt
  tsq : List (List TxStamp)
  events : Tab EvEntry
  firedAt : Int × Nat
  log : ChangeLog
  health : Health
  errRing : List ErrEntry
  missRing : List ErrEntry
  mismatches : List (CompObject × Nat)
  damaged : List CompObject
  rcvRecords : List RcvRecord
  rcvRunning : Option RcvDesc
  mirrors : Tab MirrorEntry
  flash : Flash
  furnishMin : Nat
  furnishCells : List (Nat × FurnishRecord)
  monitor : Monitor
  power : Power
  freeCtr : Nat
  sheets : Tab Sheet
  quires : Tab Quire
  waiting : Tab (List Task)
  radioReady : Tab (List Task)
  commands : List Command
  nextCmd : Nat
  contexts : Tab Context
  programs : Tab Program
  nextProgram : Nat
  tokens : Tab (Nat × Bool)
  pages : Tab Page
  mem : List Host.Cell
  poison : List Nat
  host : List Host.Cell
  mapRun : Option MapRun
  lastHome : Tab Nat
  migrations : List Migration
  interval : Nat
  lend : Tab WinState
  borrow : Tab WinState
  rings : List Ring
  mbxQueue : Tab (List W32)

  locks : Tab Lock
  keys : Tab (List W64)
  drains : List Draining
  cells : Tab Cell
  kvSealed : List Nat
  walks : Tab (List (Option WalkSlot))
  walkWait : List (Nat × Nat)
  nextIssue : Nat
  pfxPool : List PfxEntry
  weights : Tab (List Weight)
  routes : Tab W64
  windows : Tab FabWindow
  rxqs : Tab RxQueue
  jobs : Tab FabJob
  incarnations : Tab Nat
  engines : Tab (List FabRec)
  ingress : Tab (List Ingress)
  nextRec : Nat
  lastPort : Tab Nat
  fabPorts : Tab FabPort
  egress : Tab EgPort
  streams : Tab Stream
  radioMem : List Host.Cell
  strips : Tab Strip
  peers : Tab Peer
  lastHeartbeat : Nat
  linkDownAt : Tab Nat
  linkUpTick : Tab Int
  capacityLost : Option Int
  poolReload : List Nat
  radioFirst : Tab (List Task)
  fapiHeld : Tab (List FapiMsg)
  fapiArrived : Tab (List (Nat × Int))
  swaps : Tab Nat
  selfTests : List Nat
  jobSteps : Tab (Nat × Nat)
  out : List Out
deriving DecidableEq, Repr

/-- The state of the part: everything the spec gives it, and the queue of the commands that wait, first in, first out. -/
structure State where
  chip : Chip
  pending : List Instr
deriving DecidableEq, Repr

/-- Why a step stops. -/
inductive Fault where
  /-- Raised by a command with an operand that no command of its row can carry (`Instr.wf` of WellFormed.lean is false), such
  as an access wider than the bus; safe: the part never meets such a command. -/
  | illFormed
deriving DecidableEq, Repr

/-- Why a command has no meaning. -/
inductive Refusal where
  /-- The command of this mnemonic is not modelled yet; raised by its arm of `exec`; safe. -/
  | notModelled (mnemonic : String)
deriving DecidableEq, Repr

/-! ### Reset -/

/-- The part that the model describes: an FDN-12H-2D at stepping B0 (log entry 1). -/
def Ident.reset : Ident := ⟨.fdn12h2d, .b0, 0, 0, 0, none⟩

/-- The pins with both reset inputs released and no alert (log entry 1). -/
def Pins.reset : Pins := ⟨true, true, true, true, 0, 0, true, true, true, true⟩

/-- A domain of which nothing is known. -/
def Domain.reset : Domain := ⟨0, 0, false, 0, 0, 0, 0⟩

/-- Chip time 0, uptime 0 and no source (R31: FREERUN). -/
def TimeSt.reset : TimeSt :=
  { chip := 0, uptime := 0, started := 0, domains := [Domain.reset, Domain.reset], acquiring := 0, lastPhase := none,
    lockSince := 0, holdover := none, ppsPresent := false, ppsLast := 0, synceValid := false, ref10mValid := false,
    slewSecond := 0, slewUsed := 0 }

/-- Score 1,000, no debt, a fresh window whose floor is that of watch (R344, R346). -/
def Health.reset : Health := ⟨1000, 0, 0, 500, [], 0, 0⟩

/-- An erased flash (log entry 1). -/
def Flash.reset : Flash := ⟨64 * 2 ^ 20, [], [], [], none⟩

/-- The monitor at start (R377): locked, 115,200 baud. -/
def Monitor.reset : Monitor := ⟨false, none, 0, none, 115200, 0⟩

/-- No measurement yet, nothing throttled. -/
def Power.reset : Power := ⟨0, 0, false, false, none, false, false, 0, [], [], false, 0, 0⟩

/-- The part right after reset (R359, R361): stage 0, every register at its reset word, every table, queue and memory
empty. -/
def Chip.reset : Chip :=
  { ident := .reset, pins := .reset, regs := [], reqs := [], time := .reset, tsq := [[], [], [], []], events := [],
    firedAt := (0, 0), log := ⟨[], [], 0, [], none⟩, health := .reset, errRing := [], missRing := [],
    mismatches := [], damaged := [], rcvRecords := [], rcvRunning := none, mirrors := [], flash := .reset,
    furnishMin := 0, furnishCells := [], monitor := .reset, power := .reset, freeCtr := 0, sheets := [], quires := [],
    waiting := [], radioReady := [], commands := [], nextCmd := 0, contexts := [], programs := [], nextProgram := 0,
    tokens := [], pages := [], mem := [], poison := [], host := [], mapRun := none, lastHome := [],
    migrations := [], interval := 0, lend := [], borrow := [], rings := [], mbxQueue := [], locks := [],
    keys := [], drains := [], cells := [], kvSealed := [], walks := [], walkWait := [], nextIssue := 0, pfxPool := [],
    weights := [], routes := [], windows := [], rxqs := [], jobs := [], incarnations := [], engines := [], ingress := [],
    nextRec := 0, lastPort := [], fabPorts := [], egress := [], streams := [], radioMem := [], strips := [], peers := [],
    lastHeartbeat := 0, linkDownAt := [], linkUpTick := [], capacityLost := none, poolReload := [], radioFirst := [],
    fapiHeld := [], fapiArrived := [], swaps := [], selfTests := [], jobSteps := [], out := [] }

/-- The machine right after reset, its queue empty. -/
def State.reset : State := ⟨Chip.reset, []⟩

end Sys2Proof.Machine
end

