-- ==== Sys2Proof/Machine/Ops.lean ====
section
/-! DEFINITION. The named operations that every family of commands shares: registers and their fields,
what leaves the part, interrupts (R403), radio time (R24 to R26), the change log (R374, R375), errors,
evidence and health (R334 to R346), and counters (R383 to R389). -/

namespace Sys2Proof.Machine

/-! ### Registers -/

/-- The word of a register: what the file lists, or its reset word. -/
def Chip.reg (c : Chip) (r : RegRef) : W64 := tabGetD c.regs r.addr (BitVec.ofNat 64 r.rst)

/-- Put a register's word; a word equal to the reset word is not listed. -/
def Chip.setReg (c : Chip) (r : RegRef) (v : W64) : Chip :=
  { c with regs := if v = BitVec.ofNat 64 r.rst then tabDel c.regs r.addr else tabPut c.regs r.addr v }

/-- A field of a register. -/
def Chip.fld (c : Chip) (r : RegRef) (f : Fld) : Nat := fget (c.reg r) f

/-- Put a field of a register. -/
def Chip.setFld (c : Chip) (r : RegRef) (f : Fld) (v : Nat) : Chip := c.setReg r (fput (c.reg r) f v)

/-- Add to a counting field, which saturates (R392). -/
def Chip.bump (c : Chip) (r : RegRef) (f : Fld) (n : Nat) : Chip :=
  c.setFld r f (min (fmax f) (c.fld r f + n))

/-- A flag of a register. -/
def Chip.flag (c : Chip) (r : RegRef) (f : Fld) : Bool := c.fld r f != 0

/-- Set a flag or sticky bit. -/
def Chip.mark (c : Chip) (r : RegRef) (f : Fld) : Chip := c.setFld r f 1

/-- Put a flag. -/
def Chip.setFlag (c : Chip) (r : RegRef) (f : Fld) (b : Bool) : Chip := c.setFld r f (if b then 1 else 0)

/-! ### Output and open values -/

/-- Send something out; the newest stands first. -/
def Chip.send (c : Chip) (o : Out) : Chip := { c with out := o :: c.out }

/-- Draw a value the spec leaves open: nothing constrains it. -/
def Chip.free (c : Chip) : W64 × Chip := (Config.freeWord c.freeCtr, { c with freeCtr := c.freeCtr + 1 })

/-! ### Chip time and radio time (R24 to R26) -/

/-- Chip time in nanoseconds since the PTP epoch. -/
def Chip.taiNs (c : Chip) : Nat := c.time.chip / 65536

/-- Fine ticks in a frame. -/
def ticksPerFrame : Nat := 1228800

/-- Nanoseconds from the PTP epoch to the GPS epoch (R26). -/
def gpsEpochNs : Nat := 315964819000000000

/-- The signed radio-time offset in fine ticks (R26). -/
def Chip.rtOffset (c : Chip) : Int := signed 32 (c.reg R.RT_OFFSET).toNat

/-- Fine ticks since the GPS epoch: one nanosecond is 384/3125 fine ticks, since 16 Tc is 1/122.88 MHz. -/
def ticksAt (chip : Nat) (offset : Int) : Int :=
  (((chip : Int) - (gpsEpochNs * 65536 : Nat)) * 384) / (3125 * 65536 : Nat) - offset

/-- Absolute radio time in fine ticks. -/
def Chip.tick (c : Chip) : Int := ticksAt c.time.chip c.rtOffset

/-- The frame of an absolute tick. -/
def frameOf (t : Int) : Nat := ((t / (ticksPerFrame : Nat)) % 1024).toNat

/-- The fine tick in its frame of an absolute tick. -/
def tickInFrame (t : Int) : Nat := (t % (ticksPerFrame : Nat)).toNat

/-- Symbol lengths in fine ticks: the first of a half subframe is 64 longer (R25). -/
def symLen (mu slot sym : Nat) : Nat :=
  let base := 8768 / 2 ^ mu
  let long := if mu = 0 then sym = 0 ∨ sym = 7 else sym = 0 ∧ slot % 2 ^ (mu - 1) = 0
  if long then base + 64 else base

/-- Walk down the symbols from (slot, symbol) until the tick falls in one: slot, symbol, tick in symbol. -/
def findSym (mu : Nat) : Nat → Nat → Nat → Nat → Nat × Nat × Nat
  | 0, slot, sym, t => (slot, sym, t)
  | n + 1, slot, sym, t =>
    let l := symLen mu slot sym
    if t < l then (slot, sym, t)
    else if sym = 13 then findSym mu n (slot + 1) 0 (t - l) else findSym mu n slot (sym + 1) (t - l)

/-- A half subframe (0.5 ms) is 61,440 fine ticks in every numerology. -/
def halfSubframe : Nat := 61440

/-- The view of radio time at numerology mu (R24): slot in frame, symbol, fine tick in symbol. The walk
starts at the half subframe, which at mu = 0 is symbol 0 or 7 of a slot. -/
def rtView (mu tick : Nat) : Nat × Nat × Nat :=
  let h := tick / halfSubframe
  let t := tick % halfSubframe
  if mu = 0 then findSym 0 8 (h / 2) (7 * (h % 2)) t
  else findSym mu (14 * 2 ^ (mu - 1) + 1) (h * 2 ^ (mu - 1)) 0 t

/-- The first fine tick in the frame of a symbol. -/
def symStart (mu slot : Nat) : Nat → Nat
  | 0 => if mu = 0 then slot * 122880
         else (slot / 2 ^ (mu - 1)) * halfSubframe +
              (slot % 2 ^ (mu - 1)) * (14 * (8768 / 2 ^ mu)) + (if slot % 2 ^ (mu - 1) = 0 then 0 else 64)
  | s + 1 => symStart mu slot s + symLen mu slot s

/-- Radio time is valid (R31). -/
def Chip.rtValid (c : Chip) : Bool := c.flag R.TM_STATE F.TM_STATE.RT_VALID

/-! ### Interrupts (R298, R403) -/

/-- Signal an MSI-X entry: the message leaves, or its pending bit is set while the vector is masked. -/
def Chip.msix (c : Chip) (n : Nat) : Chip :=
  if c.flag (R.MSIX_CTRL n) F.MSIX_CTRL.MASK then c.setFld (R.MSIX_PBA (n / 64)) ⟨n % 64, 1⟩ 1
  else c.send (.msix n)

/-- Entry k may be signalled: entry 2 ignores MASK and IRQ_EN. -/
def Chip.irqEnabled (c : Chip) (k : Nat) : Bool :=
  k == 2 || (c.flag R.GLB_CTL F.GLB_CTL.IRQ_EN && !c.flag R.GLB_IRQ_MASK ⟨k, 1⟩)

/-- Bit k of GLB_IRQ_STAT rises: entry k is signalled once when enabled. -/
def Chip.irq (c : Chip) (k : Nat) : Chip :=
  if c.flag R.GLB_IRQ_STAT ⟨k, 1⟩ then c
  else
    let c := c.setFld R.GLB_IRQ_STAT ⟨k, 1⟩ 1
    if c.irqEnabled k then c.msix k else c

/-- A level bit follows its source. -/
def Chip.irqLevel (c : Chip) (k : Nat) (b : Bool) : Chip :=
  if b then c.irq k else c.setFld R.GLB_IRQ_STAT ⟨k, 1⟩ 0

/-! ### CRCs -/

/-- One bit of CRC-16/CCITT-FALSE (R374). -/
def crc16Bit (crc : W16) : W16 :=
  if crc.getMsbD 0 then (crc <<< 1) ^^^ 0x1021#16 else crc <<< 1

/-- One byte, most significant bit first. -/
def crc16Byte (crc : W16) (b : Byte) : W16 :=
  let x := crc ^^^ ((b.zeroExtend 16) <<< 8)
  crc16Bit (crc16Bit (crc16Bit (crc16Bit (crc16Bit (crc16Bit (crc16Bit (crc16Bit x)))))))

/-- CRC-16/CCITT-FALSE (R374). -/
def crc16 (bs : List Byte) : W16 := bs.foldl crc16Byte 0xFFFF#16

/-- One bit of CRC-32C (Castagnoli, reflected). -/
def crc32cBit (crc : W32) : W32 :=
  if crc.getLsbD 0 then (crc >>> 1) ^^^ 0x82F63B78#32 else crc >>> 1

/-- One byte of CRC-32C. -/
def crc32cByte (crc : W32) (b : Byte) : W32 :=
  let x := crc ^^^ (b.zeroExtend 32)
  crc32cBit (crc32cBit (crc32cBit (crc32cBit (crc32cBit (crc32cBit (crc32cBit (crc32cBit x)))))))

/-- CRC-32C over bytes. -/
def crc32c (bs : List Byte) : W32 := ~~~ (bs.foldl crc32cByte 0xFFFFFFFF#32)

/-! ### Change log (R374, R375) -/

/-- The word at offset 0x18 of an entry without its CRC. -/
def LogEntry.tag (e : LogEntry) : Nat :=
  (e.space % 8) * 2 ^ 61 + (e.index % 2 ^ 25) * 2 ^ 36 + (if e.cont then 2 ^ 35 else 0) +
    (e.frame % 1024) * 2 ^ 25 + (if e.rtValid then 2 ^ 24 else 0) + (e.origin % 256) * 2 ^ 16

/-- The bytes the CRC covers: 0x00 to 0x17, then 0x1A to 0x1F. -/
def LogEntry.covered (e : LogEntry) : List Byte :=
  bytesLE 8 e.taiNs ++ bytesLE 8 e.seq ++ bytesLE 4 e.old.toNat ++ bytesLE 4 e.new.toNat ++
    bytesLE 6 (e.tag / 65536)

/-- The four 64-bit words of an entry as LOG_ENT reads them. -/
def LogEntry.words (e : LogEntry) : List W64 :=
  [BitVec.ofNat 64 e.taiNs, BitVec.ofNat 64 e.seq, BitVec.ofNat 64 (e.old.toNat + e.new.toNat * 2 ^ 32),
    BitVec.ofNat 64 (e.tag + e.crc.toNat)]

/-- Firmware spills the oldest on-chip entry to the HBM ring, which keeps the newest 65,536 (R375). -/
def ChangeLog.spill (l : ChangeLog) : ChangeLog :=
  match l.ring with
  | [] => l
  | e :: t =>
    let h := l.hbm ++ [e]
    { l with ring := t, hbm := if h.length > 65536 then h.drop 1 else h }

/-- Append one entry. A full ring makes the change wait until firmware has spilled an entry; the time
waited is open and LOG_STALL_US counts it (log entry 12). -/
def Chip.logEntry (c : Chip) (origin space index : Nat) (old new : W32) (cont : Bool) : Chip :=
  let c := if c.log.ring.length < 1024 then c else
    let (w, c) := c.free
    ({ c with log := c.log.spill }).bump R.LOG_STALL_US F.LOG_STALL_US.COUNT (w.toNat % 2 ^ 32)
  let e : LogEntry := ⟨c.taiNs, c.log.next, old, new, space, index, cont,
    if c.rtValid then frameOf c.tick else 0, c.rtValid, origin, 0⟩
  let e := { e with crc := crc16 e.covered }
  { c with log := { c.log with ring := c.log.ring ++ [e], next := c.log.next + 1 } }

/-- Append the entries of one change, CONT on all but the last (R374). -/
def Chip.logWords (c : Chip) (origin space : Nat) : List (Nat × W32 × W32) → Chip
  | [] => c
  | [(i, o, n)] => c.logEntry origin space i o n false
  | (i, o, n) :: t => (c.logEntry origin space i o n true).logWords origin space t

/-- The 32-bit words of a wide word, lowest first. -/
def words32 (v : W64) : List W32 := [v.setWidth 32, (v >>> 32).setWidth 32]

/-- The changed 32-bit words of a register between two values, with their INDEX in SPACE 0. -/
def changedWords (addr : Nat) (old new : W64) : List (Nat × W32 × W32) :=
  ([(addr / 4, old.setWidth 32, new.setWidth 32),
    (addr / 4 + 1, (old >>> 32).setWidth 32, (new >>> 32).setWidth 32)]).filter (fun x => x.2.1 != x.2.2)

/-- Put a logged register and make one entry for each 32-bit word that changes (R374, R399). -/
def Chip.setLogged (c : Chip) (origin : Nat) (r : RegRef) (v : W64) : Chip :=
  ((c.logWords origin 0 (changedWords r.addr (c.reg r) v))).setReg r v

/-- An operation entry (SPACE 3). -/
def Chip.logOp (c : Chip) (origin op obj : Nat) (old new : W32) : Chip :=
  c.logEntry origin 3 ((op % 256) * 2 ^ 17 + obj % 2 ^ 17) old new false

/-- The entries of a staged table write (SPACE 1): one for each 32-bit word of V0 and V1 that changes. -/
def Chip.logTable (c : Chip) (origin table entry : Nat) (old0 old1 new0 new1 : W64) : Chip :=
  let ix := fun w => (table % 16) * 2 ^ 21 + (entry % 2 ^ 18) * 2 ^ 3 + w
  c.logWords origin 1
    (([(ix 0, old0.setWidth 32, new0.setWidth 32), (ix 1, (old0 >>> 32).setWidth 32, (new0 >>> 32).setWidth 32),
       (ix 2, old1.setWidth 32, new1.setWidth 32), (ix 3, (old1 >>> 32).setWidth 32, (new1 >>> 32).setWidth 32)]).filter
      (fun x => x.2.1 != x.2.2))

/-- The origin number of a requester (R374). -/
def originOf (slotOfSlice : Nat → Nat) : Requester → Nat
  | .host => 0x01
  | .monitor => 0xF1
  | .firmware => 0xF0
  | .slice i => slotOfSlice i.val + 2

/-- The slot a slice is bound to (R295). -/
def Chip.sliceSlot (c : Chip) (i : Nat) : Nat := c.fld (R.SLICE i) F.SLICE.SLOT

/-- The origin of a requester's changes. -/
def Chip.origin (c : Chip) (r : Requester) : Nat := originOf c.sliceSlot r

/-! ### Requesters (R7, R361, R397) -/

/-- A requester with nothing held or latched. -/
def ReqState.empty (r : Requester) : ReqState := ⟨r, [], none, none, none, []⟩

/-- What a requester holds. -/
def Chip.getReq (c : Chip) (r : Requester) : ReqState := (c.reqs.find? (fun q => q.req = r)).getD (.empty r)

/-- Change what a requester holds. -/
def Chip.setReq (c : Chip) (r : Requester) (f : ReqState → ReqState) : Chip :=
  { c with reqs := f (c.getReq r) :: c.reqs.filter (fun q => q.req ≠ r) }

/-- A HI read latches the rest of a queue's head entry for the requester (R44). -/
def Chip.latchPop (c : Chip) (r : Requester) (key : Nat) (w : W64) : Chip :=
  c.setReq r (fun q => { q with popLatch := tabPut q.popLatch key w })

/-- A LO read takes the latched rest, or the head as it stands where nothing is latched. -/
def Chip.takePop (c : Chip) (r : Requester) (key : Nat) (head : W64) : W64 × Chip :=
  (tabGetD (c.getReq r).popLatch key head,
   c.setReq r (fun q => { q with popLatch := tabDel q.popLatch key }))

/-- A host write of a kind that R361 ignores before stage 2. -/
def Chip.early (c : Chip) (r : Requester) : Bool :=
  r == .host && decide (c.fld R.BOOT_STAT F.BOOT_STAT.STAGE < 2)

/-- Count an ignored early write (R361). -/
def Chip.noteEarly (c : Chip) : Chip :=
  (c.bump R.BOOT_STAT F.BOOT_STAT.EARLY_WR 1).mark R.BOOT_STAT F.BOOT_STAT.STICKY_EARLY

/-- Host software, the firmware and the monitor reach BAR0; tenants have no path to it (R398). -/
def mayReachBar0 : Requester → Bool
  | .slice _ => false
  | _ => true

/-! ### Errors, evidence and health (R334 to R346) -/

/-- The level and place of an error (ERR_HI). -/
structure ErrAt where
  level : RegLevel
  ream : Nat
  quire : Nat
  pos : Nat
deriving DecidableEq, Repr

/-- An error at chip level. -/
def atChip : ErrAt := ⟨.chip, 0, 0, 0⟩
/-- An error at ream level. -/
def atReam (r : Nat) : ErrAt := ⟨.ream, r, 0, 0⟩
/-- An error at quire level. -/
def atQuire (r q : Nat) : ErrAt := ⟨.quire, r, q, 0⟩
/-- An error of a sheet. -/
def atSheet (r q p : Nat) : ErrAt := ⟨.sheet, r, q, p⟩

/-- The LEVEL code of ERR_HI. -/
def levelCode : RegLevel → Nat
  | .sheet => 0
  | .quire => 1
  | .ream => 2
  | .chip => 3

/-- The soft evidence of R345. -/
inductive Evidence where
  | correctedMemory
  | residueRetry
  | sheetKill
  | sheetRetired
  | quireIsolated
  | dataUncorrectable
  | stripDisabled
  | fecOrReplay
  | retrain
  | complementMismatch
  | slotMiss
deriving DecidableEq, Repr

/-- A row of R345: the key of its count, the points, the events per group, and the free count. -/
structure EvidenceRow where
  key : Nat
  points : Nat
  group : Nat
  free : Nat
deriving DecidableEq, Repr

/-- The table of R345. -/
def Evidence.row : Evidence → EvidenceRow
  | .correctedMemory => ⟨0, 1, 256, 4096⟩
  | .residueRetry => ⟨1, 1, 4, 64⟩
  | .sheetKill => ⟨2, 5, 1, 4⟩
  | .sheetRetired => ⟨3, 40, 1, 0⟩
  | .quireIsolated => ⟨4, 150, 1, 0⟩
  | .dataUncorrectable => ⟨5, 30, 1, 0⟩
  | .stripDisabled => ⟨6, 60, 1, 0⟩
  | .fecOrReplay => ⟨7, 1, 64, 1024⟩
  | .retrain => ⟨8, 10, 1, 2⟩
  | .complementMismatch => ⟨9, 50, 1, 0⟩
  | .slotMiss => ⟨10, 100, 1, 0⟩

/-- Points earned by `n` events of one kind counted in a window. -/
def EvidenceRow.earned (e : EvidenceRow) (n : Nat) : Nat := ((n - e.free) / e.group) * e.points

/-- The state a score maps to (R344): 0 healthy, 1 watch, 2 probation, 3 failed. -/
def healthState (score : Nat) : Nat :=
  if 800 ≤ score then 0 else if 500 ≤ score then 1 else if 1 ≤ score then 2 else 3

/-- The lowest score a window that begins at `score` may reach (R346): that of the state one below;
soft evidence never goes below 1. -/
def windowFloor (score : Nat) : Nat :=
  if 800 ≤ score then 500 else if 1 ≤ score then 1 else 0

/-- Take points off a score under the window's floor; the rest becomes debt, up to 1,000. -/
def Health.take (h : Health) (p : Nat) : Health :=
  let cut := min p (h.score - h.floor)
  { h with score := h.score - cut, debt := min 1000 (h.debt + (p - cut)) }

/-- What follows a change of the health state: interrupt 10 and MG_ALERT_N (R403, R416). -/
def Chip.healthChanged (c : Chip) (before : Nat) : Chip :=
  if healthState c.health.score = before then c
  else ({ c with pins := { c.pins with mgAlertN := false } }).irq 10

/-- Record an error in the error ring (R338, R358). -/
def Chip.recordError (c : Chip) (a : ErrAt) (code cls points : Nat) : Chip :=
  let c := c.bump R.ERR_STAT F.ERR_STAT.ERR_CNT 1
  if c.errRing.length < 256 then
    let hi := levelCode a.level * 2 ^ 62 + (a.ream % 4) * 2 ^ 60 + (a.quire % 8) * 2 ^ 57 +
      (a.pos % 128) * 2 ^ 50 + (code % 256) * 2 ^ 42 + (cls % 4) * 2 ^ 40 + (min points 1023) * 2 ^ 30
    let e : ErrEntry := ⟨BitVec.ofNat 64 hi, BitVec.ofNat 64 c.taiNs⟩
    let c := { c with errRing := c.errRing ++ [e] }
    (c.setFld R.ERR_STAT F.ERR_STAT.COUNT c.errRing.length).irq 9
  else (c.bump R.ERR_STAT F.ERR_STAT.OVF_CNT 1).mark R.ERR_STAT F.ERR_STAT.STICKY_OVF

/-- Soft evidence of `n` events: the points it earns are charged at once (R345, R346). -/
def Chip.charge (c : Chip) (e : Evidence) (n : Nat) : Nat × Chip :=
  let old := tabGetD c.health.counts e.row.key 0
  let p := e.row.earned (old + n) - e.row.earned old
  let before := healthState c.health.score
  let h := { c.health with counts := tabPut c.health.counts e.row.key (old + n),
                           points := min 1023 (c.health.points + p) }
  (p, ({ c with health := h.take p }).healthChanged before)

/-- A soft error: charged and recorded. -/
def Chip.softError (c : Chip) (a : ErrAt) (code : Nat) (e : Evidence) (n : Nat := 1) : Chip :=
  let (p, c) := c.charge e n
  c.recordError a code 1 p

/-- An INTEGRITY error of a single complement mismatch at the owning level (code 0x09). -/
def Chip.integrity (c : Chip) (a : ErrAt) : Chip := c.softError a 0x09 .complementMismatch

/-- Enter the failed state on hard evidence (R341): score 0, HARD_CAUSE, FAULT_N, entry 2. The handover
of active cells with live shadows is the caller's (Faults.lean). -/
def Chip.failPart (c : Chip) (a : ErrAt) (code : Nat) : Chip :=
  let before := healthState c.health.score
  let c := c.recordError a code 2 0
  let c := { c with health := { c.health with score := 0, floor := 0, hardCause := code },
                    pins := { c.pins with faultN := false } }
  (c.healthChanged before).irqLevel 2 true

/-- A value written anew carries a matching complement again. -/
def Chip.mend (c : Chip) (o : CompObject) : Chip := { c with damaged := c.damaged.filter (· != o) }

/-- The part is in the failed state. -/
def Chip.failed (c : Chip) : Bool := c.health.score == 0

/-- A ream that the part has lost (R13): the part has failed for the loss of a ream, and every quire of this one is isolated. -/
def Chip.reamLost (c : Chip) (ream : Nat) : Bool :=
  c.health.hardCause == 0x12 && (List.range 8).all (fun q => c.fld (R.QUIRE_HEALTH (ream * 8 + q)) F.QUIRE_HEALTH.STATE == 1)

end Sys2Proof.Machine
end

