-- ==== Sys2Proof/Machine/RegOps.lean ====
section
/-! DEFINITION. What the register map says of a write: the bits that software may write, and the codes and ranges of a complemented
pair (R8, R427). -/

namespace Sys2Proof.Machine

/-- A field check of R427 holds of a word. -/
def FldCheck.ok (w : W64) : FldCheck → Bool
  | .range f lo hi => decide (lo ≤ fget w f) && decide (fget w f ≤ hi)
  | .signedRange f m => decide ((signed f.w (fget w f)).natAbs ≤ m)
  | .zeroOrAtLeast f m => fget w f == 0 || decide (m ≤ fget w f)
  | .rangeIf en f lo hi => fget w en == 0 || (decide (lo ≤ fget w f) && decide (fget w f ≤ hi))
  | .multiple f m => fget w f % m == 0
  | .atMost f g lo => decide (fget w f ≤ fget w g) && decide (lo ≤ fget w f)

/-- The row of a register. -/
def descOf (id : RegId) : Option RegDesc := regTable.find? (fun d => d.id == id)

/-- A word passes the checks of its register (R427). -/
def RegDesc.fits (d : RegDesc) (v : W64) : Bool := d.checks.all (FldCheck.ok v)

/-- A word passes the checks of a register. -/
def regFits (id : RegId) (v : W64) : Bool :=
  match descOf id with
  | some d => d.fits v
  | none => false

/-- A register's word after a write: the writable bits take the new value, the others stand (R8). -/
def RegDesc.write (d : RegDesc) (old v : W64) : W64 :=
  (old &&& ~~~ BitVec.ofNat 64 d.rw) ||| (v &&& BitVec.ofNat 64 d.rw)

/-- A register's word after a write, by its name. -/
def regWrite (id : RegId) (old v : W64) : W64 :=
  match descOf id with
  | some d => d.write old v
  | none => old

/-! ### The register at an offset -/

/-- Bytes from a register's value word to the end of its complement. -/
def RegKind.span : RegKind → Nat
  | .plain32 => 4
  | .view32 => 4
  | .plain64 => 8
  | .view64 => 8
  | .pair32 => 8
  | .pair64 => 16
  | .pair128 => 24

/-- The register is a complemented pair. -/
def RegKind.isPair : RegKind → Bool
  | .pair32 => true
  | .pair64 => true
  | .pair128 => true
  | _ => false

/-- The indices of an offset within dimensions, outermost first, and the offset that is left. -/
def locate : List (Nat × Nat) → Nat → Option (List Nat × Nat)
  | [], off => some ([], off)
  | (n, s) :: t, off => if off / s < n then (locate t (off % s)).map (fun x => (off / s :: x.1, x.2)) else none

/-- A register that an offset falls in: its row, its indices, and the offset from its value word. -/
structure RegHit where
  desc : RegDesc
  ix : List Nat
  off : Nat
deriving DecidableEq, Repr

/-- The offset falls in a register of this row. -/
def RegDesc.hit (d : RegDesc) (addr : Nat) : Option RegHit :=
  if addr < d.base then none
  else match locate d.dims (addr - d.base) with
    | none => none
    | some (ix, off) => if off < d.kind.span ∧ ¬ (d.kind = .pair128 ∧ 8 ≤ off ∧ off < 16) then some ⟨d, ix, off⟩ else none

/-- The register at an offset of the register map. -/
def regHit (addr : Nat) : Option RegHit := regTable.findSome? (fun d => d.hit addr)

/-- Index `n` of the register. -/
def RegHit.i (h : RegHit) (n : Nat) : Nat := nth h.ix n 0

/-- Its reset word: DCK_CTL, TEN_STAT and SLICE differ in entry 0. -/
def RegHit.rst (h : RegHit) : Nat :=
  match h.desc.id with
  | .DCK_CTL => (R.DCK_CTL (h.i 0)).rst
  | .TEN_STAT => (R.TEN_STAT (h.i 0)).rst
  | .SLICE => (R.SLICE (h.i 0)).rst
  | _ => h.desc.rst

/-- The offset of its value word. -/
def RegHit.base (h : RegHit) : Nat := h.desc.base + (h.ix.zip h.desc.dims).foldl (fun a x => a + x.1 * x.2.2) 0

/-- The register of the file. -/
def RegHit.ref (h : RegHit) : RegRef := ⟨h.base, h.rst⟩

/-- The place of an INTEGRITY error of the register: the level that owns it (R7, R334). -/
def RegHit.errAt (h : RegHit) : ErrAt :=
  match h.desc.level with
  | .chip => atChip
  | .ream => atReam (h.i 0)
  | .quire => atQuire (h.i 0) (h.i 1)
  | .sheet => atSheet (h.i 0) (h.i 1) (h.i 2)

/-- The 32-bit words of a complemented pair's value with their INDEX in SPACE 0 (R374). -/
def Chip.pairWords (c : Chip) (h : RegHit) : List (Nat × W32) :=
  let a := h.base
  let word := fun (k : Nat) => tabGetD c.regs k (BitVec.ofNat 64 h.rst)
  match h.desc.kind with
  | .pair32 => [(a / 4, (word a).setWidth 32)]
  | .pair64 => (words32 (word a)).zipIdx.map (fun x => (a / 4 + x.2, x.1))
  | .pair128 =>
    let b := a - a % 16
    (words32 (tabGetD c.regs b 0) ++ words32 (tabGetD c.regs (b + 8) 0)).zipIdx.map (fun x => (b / 4 + x.2, x.1))
  | _ => []

/-- A write that R427 refuses in a block without a CFG_REFUSED flag. -/
def Chip.refuse427 (c : Chip) : Chip := c.mark R.GLB_STAT F.GLB_STAT.STICKY_CFG

end Sys2Proof.Machine
end

