-- ==== Sys2Proof/Machine/Caps.lean ====
section
/-! DEFINITION. The capability list (R371 to R373) and the bodies of its entries (R68, R251, R252, R283, R331, R357, R373, R382, R394,
R401). The entries lie one after another from 0x1000 in rising order of identifier (DESIGN CHOICE, log entry 47). -/

namespace Sys2Proof.Machine

/-! ### The identity of the part (R1, R2, R46, R400) -/

/-- ID_PART. -/
def Ident.partWord (x : Ident) : Nat :=
  0xF000 + (match x.part with
    | .fdn12h2d => 0x122
    | .fdn8h2d => 0x082
    | .fdn12h1d => 0x121)

/-- ID_STEP. -/
def Ident.stepWord (x : Ident) : Nat := if x.stepping = .b0 then 0xB0 else 0xA1

/-- ID_AIC. -/
def Ident.aicWord (x : Ident) : Nat := if x.stepping = .b0 then 0x1B00 else 0x1A01

/-! ### The bodies -/

/-- Identity: the fields of capability 0x0001 by lowest bit (R401). -/
def cap0001 (x : Ident) : List (Nat × Nat) :=
  [(0, x.aicWord), (20, x.cardId.toNat), (24, x.stepWord), (32, x.partWord), (64, x.serial.toNat)]

/-- Arithmetic identity: the fields of capability 0x0002 by lowest bit (R68). -/
def cap0002 (x : Ident) : List (Nat × Nat) :=
  [(96, 10),
   (89, 1),
   (88, 1),
   (80, 31),
   (32, 491519),
   (16, if x.stepping = .b0 then 2 else 1),
   (0, if x.stepping = .b0 then 6912 else 6657)]

/-- Radio time: the fields of capability 0x0010 by lowest bit (R373). -/
def cap0010 (x : Ident) : List (Nat × Nat) :=
  [(48, 4096),
   (40, 2),
   (32, 64),
   (24, if x.stepping = .b0 then 4 else 8),
   (20, 15),
   (16, 7),
   (8, 16)]

/-- High-PHY: the fields of capability 0x0011 by lowest bit (R373). -/
def cap0011 (x : Ident) : List (Nat × Nat) :=
  [(104, if x.part = .fdn12h1d then 1280 else 2048),
   (92, 1024),
   (88, 8),
   (80, 16),
   (72, 12),
   (68, 4),
   (64, 4),
   (56, 32),
   (52, 10),
   (48, 8),
   (40, 8),
   (32, 16),
   (24, 4),
   (16, 4)]

/-- Fronthaul: the fields of capability 0x0012 by lowest bit (R373). -/
def cap0012 (x : Ident) : List (Nat × Nat) :=
  [(112, 4096),
   (108, if x.part = .fdn12h1d then 3 else 15),
   (104, 7),
   (96, 8),
   (88, 16),
   (80, 11),
   (72, 8),
   (64, 64),
   (48, 275),
   (32, 4096)]

/-- Sheets and quires: the fields of capability 0x0020 by lowest bit (R373). -/
def cap0020 (_ : Ident) : List (Nat × Nat) :=
  [(112, 2048),
   (96, 2112),
   (92, 4),
   (88, 8),
   (80, 64),
   (72, 2),
   (56, 384),
   (40, 8192),
   (32, 64),
   (24, 32),
   (16, 16),
   (8, 255)]

/-- Cube formats: the fields of capability 0x0021 by lowest bit (R373). -/
def cap0021 (_ : Ident) : List (Nat × Nat) :=
  [(96, 81918),
   (64, 6136),
   (48, 16452),
   (32, 4095),
   (24, 16),
   (16, 7),
   (8, 128)]

/-- Tiers: the fields of capability 0x0030 by lowest bit (R283). -/
def cap0030 (_ : Ident) : List (Nat × Nat) :=
  [(56, 57),
   (52, 15),
   (24, 2048),
   (16, 48),
   (0, 256)]

/-- CXL tier: the fields of capability 0x0031 by lowest bit (R283). -/
def cap0031 (_ : Ident) : List (Nat × Nat) :=
  [(48, 4096),
   (40, 2),
   (32, 8)]

/-- Neighbour lending: the fields of capability 0x0032 by lowest bit (R283). -/
def cap0032 (_ : Ident) : List (Nat × Nat) :=
  [(56, 16),
   (48, 16),
   (40, 16),
   (24, 100),
   (16, 200)]

/-- Tenants: the fields of capability 0x0040 by lowest bit (R373). -/
def cap0040 (_ : Ident) : List (Nat × Nat) :=
  [(120, 64),
   (112, 8),
   (96, 1024),
   (80, 1024),
   (72, 16),
   (64, 64),
   (56, 64),
   (48, 4),
   (40, 16),
   (32, 1),
   (16, 2048)]

/-- Migration dirty-page log: the fields of capability 0x0041 by lowest bit (R373). -/
def cap0041 (_ : Ident) : List (Nat × Nat) :=
  [(56, 12),
   (48, 16),
   (40, 2),
   (24, 50)]

/-- Fabric: the fields of capability 0x0050 by lowest bit (R331). -/
def cap0050 (x : Ident) : List (Nat × Nat) :=
  [(112, 1024),
   (96, 4096),
   (80, 1024),
   (72, 144),
   (48, 1024),
   (32, 4095),
   (24, 224),
   (16, 8),
   (0, if x.part = .fdn12h1d then 7 else 63)]

/-- Cell shadowing: the fields of capability 0x0051 by lowest bit (R373). -/
def cap0051 (x : Ident) : List (Nat × Nat) :=
  [(48, 1024),
   (32, 64),
   (16, 1000),
   (8, 20),
   (0, if x.part = .fdn12h1d then 7 else 63)]

/-- Generation engines: the fields of capability 0x0060 by lowest bit (R251). -/
def cap0060 (x : Ident) : List (Nat × Nat) :=
  [(96, 16777216),
   (80, if x.stepping = .b0 then 4096 else 1024),
   (64, 4096),
   (48, 65535),
   (40, 16),
   (32, 16),
   (16, 31),
   (8, 8),
   (0, 16)]

/-- Watermark: the fields of capability 0x0061 by lowest bit (R252). -/
def cap0061 (_ : Ident) : List (Nat × Nat) :=
  [(32, 4096),
   (16, 16),
   (8, 4),
   (0, 1)]

/-- Kwadal shared-draw compatibility: the fields of capability 0x0062 by lowest bit (R373). -/
def cap0062 (_ : Ident) : List (Nat × Nat) :=
  [(24, 4),
   (16, 8),
   (8, 0)]

/-- Counters: the fields of capability 0x0070 by lowest bit (R394). -/
def cap0070 (_ : Ident) : List (Nat × Nat) :=
  [(56, 48),
   (48, 8),
   (40, 16),
   (32, 32),
   (24, 64),
   (16, 12),
   (8, 64),
   (0, 3)]

/-- Fault and recovery: the fields of capability 0x0080 by lowest bit (R357). -/
def cap0080 (_ : Ident) : List (Nat × Nat) :=
  [(48, 600),
   (40, 64),
   (32, 255),
   (24, 64),
   (12, 256),
   (0, 2)]

/-- Shaping: the fields of capability 0x00A0 by lowest bit (R373). -/
def cap00A0 (x : Ident) : List (Nat × Nat) :=
  [(112, 1024),
   (104, 64),
   (96, 8),
   (80, 1024),
   (72, 20),
   (52, 1048575),
   (36, 39),
   (0, if x.part = .fdn12h1d then 115 else 1023)]

/-- Monitor: the fields of capability 0x0090 by lowest bit (R382). -/
def cap0090 (x : Ident) : List (Nat × Nat) := [(0, if x.unlockKey.isSome then 1 else 0), (8, 115200), (32, 3000000)]

/-! ### The list -/

/-- An entry: identifier, and its body's fields. -/
structure CapEntry where
  id : Nat
  fields : List (Nat × Nat)
deriving DecidableEq, Repr

/-- The entries of the part (R372): in recovery mode only identity and monitor; the CXL tier on 2D parts and cell shadowing on B0
only. -/
def capEntries (x : Ident) (recovery : Bool) : List CapEntry :=
  if recovery then [⟨0x0001, cap0001 x⟩, ⟨0x0090, cap0090 x⟩]
  else
    [⟨0x0001, cap0001 x⟩, ⟨0x0002, cap0002 x⟩, ⟨0x0010, cap0010 x⟩, ⟨0x0011, cap0011 x⟩, ⟨0x0012, cap0012 x⟩, ⟨0x0020, cap0020 x⟩, ⟨0x0021, cap0021 x⟩, ⟨0x0030, cap0030 x⟩] ++
    (if x.part = .fdn12h1d then [] else [⟨0x0031, cap0031 x⟩]) ++
    [⟨0x0032, cap0032 x⟩, ⟨0x0040, cap0040 x⟩, ⟨0x0041, cap0041 x⟩, ⟨0x0050, cap0050 x⟩] ++
    (if x.stepping = .b0 then [⟨0x0051, cap0051 x⟩] else []) ++
    [⟨0x0060, cap0060 x⟩, ⟨0x0061, cap0061 x⟩, ⟨0x0062, cap0062 x⟩, ⟨0x0070, cap0070 x⟩, ⟨0x0080, cap0080 x⟩, ⟨0x0090, cap0090 x⟩, ⟨0x00A0, cap00A0 x⟩]

/-- Bytes of an entry: a header and one unit of body. -/
def capBytes : Nat := 32

/-- The header of entry i of n (R371). -/
def capHeader (id i n : Nat) : Nat :=
  id + 1 * 2 ^ 16 + 2 * 2 ^ 24 + (if i + 1 < n then 0x1000 + capBytes * (i + 1) else 0) * 2 ^ 32

/-- The 128 bits of a body. -/
def capBody (fields : List (Nat × Nat)) : Nat := fields.foldl (fun a f => a + f.2 * 2 ^ f.1) 0

/-- The 32-bit word at an offset of the capability list; none past its last entry. -/
def capWord (x : Ident) (recovery : Bool) (addr : Nat) : Option W32 :=
  let l := capEntries x recovery
  if addr < 0x1000 then none
  else
    let i := (addr - 0x1000) / capBytes
    let k := (addr - 0x1000) % capBytes / 4
    match l[i]? with
    | none => none
    | some e =>
      let w := if k < 4 then capHeader e.id i l.length else capBody e.fields
      some (BitVec.ofNat 32 (w / 2 ^ (32 * (k % 4))))

end Sys2Proof.Machine
end

