-- ==== Sys2Proof/Machine/Num.lean ====
section
/-! DEFINITION. Number formats, exact arithmetic with one rounding, saturation and flags (R47 to R57),
and the counter-based generator with stochastic rounding (R59 to R63). -/

namespace Sys2Proof.Machine

/-! ### Exact values -/

/-- A floating-point datum as an exact value: a NaN, a signed infinity, or (−1)^neg · m · 2^e. -/
inductive Fval where
  | nan
  | inf (neg : Bool)
  | fin (neg : Bool) (m : Nat) (e : Int)
deriving DecidableEq, Repr

/-- Is the datum a zero. -/
def Fval.isZero : Fval → Bool
  | .fin _ 0 _ => true
  | _ => false

/-- The sign of a datum (a NaN counts as positive). -/
def Fval.neg : Fval → Bool
  | .nan => false
  | .inf n => n
  | .fin n _ _ => n

/-- Negation. -/
def Fval.negate : Fval → Fval
  | .nan => .nan
  | .inf n => .inf (!n)
  | .fin n m e => .fin (!n) m e

/-- An integer as a datum. -/
def Fval.ofInt (x : Int) : Fval := .fin (decide (x < 0)) x.natAbs 0

/-- The exact product (R51): 0 × ∞ is NaN, and a zero keeps the sign of the product. -/
def Fval.mul : Fval → Fval → Fval
  | .nan, _ => .nan
  | _, .nan => .nan
  | .inf a, .inf b => .inf (a != b)
  | .inf a, .fin b m _ => if m = 0 then .nan else .inf (a != b)
  | .fin b m _, .inf a => if m = 0 then .nan else .inf (a != b)
  | .fin a m e, .fin b n f => .fin (a != b) (m * n) (e + f)

/-- A datum times 2^k. -/
def Fval.scale (k : Int) : Fval → Fval
  | .fin n m e => .fin n m (e + k)
  | x => x

/-- The smallest exponent of the finite data of a list. -/
def minExp : List Fval → Int → Int
  | [], a => a
  | .fin _ _ e :: t, a => minExp t (min e a)
  | _ :: t, a => minExp t a

/-- The sum of the finite data of a list in units of 2^e. -/
def sumAt (e : Int) : List Fval → Int
  | [] => 0
  | .fin n m f :: t =>
    let v : Int := (m * 2 ^ (f - e).toNat : Nat)
    (if n then -v else v) + sumAt e t
  | _ :: t => sumAt e t

/-- The exact sum of a list (R51, R55): any NaN, or infinities of both signs, give NaN; an exact zero sum
is −0 where every addend is −0, or where the mode is down and some sign differs. -/
def exactSum (down : Bool) (l : List Fval) : Fval :=
  if l.any (fun x => decide (x = .nan)) then .nan
  else
    let p := l.any (fun x => decide (x = .inf false))
    let n := l.any (fun x => decide (x = .inf true))
    if p && n then .nan
    else if p then .inf false
    else if n then .inf true
    else
      let e := minExp l 0
      let s := sumAt e l
      if s = 0 then
        let allNeg := l.all (fun x => x.neg)
        let allZero := l.all (fun x => x.isZero)
        .fin (if allZero && allNeg then true else down) 0 0
      else .fin (decide (s < 0)) s.natAbs e

/-! ### Flags (R57) -/

/-- invalid. -/
def flInvalid : Nat := 16
/-- overflow. -/
def flOverflow : Nat := 8
/-- underflow. -/
def flUnderflow : Nat := 4
/-- inexact. -/
def flInexact : Nat := 2
/-- saturated. -/
def flSaturated : Nat := 1

/-! ### Rounding (R53, R61) -/

/-- How one result is rounded: the mode (0 nearest even, 1 toward zero, 2 up, 3 down, 4 stochastic), the
saturation bit and the word x0 of the element's draw. -/
structure Rnd where
  rm : Nat
  s : Bool
  x0 : W32
deriving DecidableEq, Repr

/-- Round-to-nearest-even without saturation. -/
def rne : Rnd := ⟨0, false, 0⟩

/-- Cut the low `n` bits of a magnitude and round it by the mode: the rounded magnitude and whether bits
were lost. -/
def roundCut (r : Rnd) (neg : Bool) (m n : Nat) : Nat × Bool :=
  let q := m / 2 ^ n
  let c := m % 2 ^ n
  if c = 0 then (q, false)
  else
    let up := match r.rm with
      | 0 => decide (2 ^ n < 2 * c) || (decide (2 * c = 2 ^ n) && q % 2 == 1)
      | 1 => false
      | 2 => !neg
      | 3 => neg
      | _ =>
        if n ≤ 32 then decide (2 ^ n ≤ c + r.x0.toNat / 2 ^ (32 - n))
        else decide (2 ^ 32 ≤ c / 2 ^ (n - 32) + r.x0.toNat)
    (if up then q + 1 else q, true)

/-- Number of bits of a magnitude. -/
def bitLen (m : Nat) : Nat := if m = 0 then 0 else Nat.log2 m + 1

/-! ### Floating-point formats -/

/-- A floating-point format: exponent and mantissa widths, bias, the word of the largest finite value,
the word of infinity (none where the format has none) and the canonical NaN (none where it has none). -/
structure FpFmt where
  ew : Nat
  mw : Nat
  bias : Nat
  maxWord : Nat
  infWord : Option Nat
  nanWord : Option Nat
deriving DecidableEq, Repr

/-- FP32. -/
def fp32 : FpFmt := ⟨8, 23, 127, 0x7F7FFFFF, some 0x7F800000, some 0x7FC00000⟩
/-- BF16. -/
def bf16 : FpFmt := ⟨8, 7, 127, 0x7F7F, some 0x7F80, some 0x7FC0⟩
/-- FP16. -/
def fp16 : FpFmt := ⟨5, 10, 15, 0x7BFF, some 0x7C00, some 0x7E00⟩
/-- FP8 E4M3. -/
def e4m3 : FpFmt := ⟨4, 3, 7, 0x7E, none, some 0x7F⟩
/-- FP8 E5M2. -/
def e5m2 : FpFmt := ⟨5, 2, 15, 0x7B, some 0x7C, some 0x7E⟩
/-- MXFP6 E2M3 elements. -/
def e2m3 : FpFmt := ⟨2, 3, 1, 0x1F, none, none⟩
/-- MXFP6 E3M2 elements. -/
def e3m2 : FpFmt := ⟨3, 2, 3, 0x1F, none, none⟩
/-- MXFP4 E2M1 elements. -/
def e2m1 : FpFmt := ⟨2, 1, 1, 0x7, none, none⟩

/-- Width of a format in bits. -/
def FpFmt.bits (f : FpFmt) : Nat := 1 + f.ew + f.mw

/-- Decode a word of a format (R47). -/
def FpFmt.decode (f : FpFmt) (w : Nat) : Fval :=
  let neg := (w / 2 ^ (f.ew + f.mw)) % 2 = 1
  let mag := w % 2 ^ (f.ew + f.mw)
  let ex := mag / 2 ^ f.mw
  let man := mag % 2 ^ f.mw
  if f.maxWord < mag then
    (match f.infWord with
     | some i => if mag = i then .inf neg else .nan
     | none => .nan)
  else if ex = 0 then .fin neg man (1 - (f.bias : Int) - f.mw)
  else .fin neg (man + 2 ^ f.mw) ((ex : Int) - f.bias - f.mw)

/-- The sign bit of a format. -/
def FpFmt.signed (f : FpFmt) (neg : Bool) (w : Nat) : Nat := if neg then 2 ^ (f.ew + f.mw) + w else w

/-- What overflow gives (R54) with the flags it raises. -/
def FpFmt.overflow (f : FpFmt) (r : Rnd) (neg : Bool) : Nat × Nat :=
  let base := flOverflow + flInexact
  if r.s then (f.signed neg f.maxWord, base + flSaturated)
  else
    match f.infWord, f.nanWord with
    | some i, _ =>
      let toInf := match r.rm with
        | 1 => false
        | 2 => !neg
        | 3 => neg
        | _ => true
      (f.signed neg (if toInf then i else f.maxWord), base)
    | none, some n => (n, base + flInvalid)
    | none, none => (f.signed neg f.maxWord, base + flSaturated)

/-- Round an exact value once into a format: the word and the flags (R53 to R57). Producing a NaN raises
invalid where `fresh` says that no input was one. -/
def FpFmt.encode (f : FpFmt) (r : Rnd) (fresh : Bool) : Fval → Nat × Nat
  | .nan => (f.nanWord.getD f.maxWord, if fresh then flInvalid else 0)
  | .inf neg =>
    (match f.infWord with
     | some i => (f.signed neg i, 0)
     | none => if r.s ∨ f.nanWord = none then (f.signed neg f.maxWord, flSaturated)
               else (f.nanWord.getD 0, flInvalid))
  | .fin neg m e =>
    if m = 0 then (f.signed neg 0, 0)
    else
      let emin : Int := 1 - (f.bias : Int)
      let top : Int := e + bitLen m - 1
      let lsb : Int := max top emin - f.mw
      let (q, lost) := if lsb ≤ e then (m * 2 ^ (e - lsb).toNat, false) else roundCut r neg m (lsb - e).toNat
      let biased := (lsb + f.mw + f.bias).toNat
      let w := (biased - 1) * 2 ^ f.mw + q
      if f.maxWord < w then f.overflow r neg
      else
        let lsbU : Int := top - f.mw
        let qU := if lsbU ≤ e then m * 2 ^ (e - lsbU).toNat else (roundCut r neg m (lsbU - e).toNat).1
        let tiny := top < emin ∧ ¬ (top + 1 = emin ∧ qU = 2 ^ (f.mw + 1))
        (f.signed neg w, (if lost then flInexact else 0) + (if lost ∧ tiny then flUnderflow else 0))

/-! ### Integers -/

/-- Round an exact value to an integer by the mode; the value must be finite. -/
def roundInt (r : Rnd) : Fval → Int × Bool
  | .fin neg m e =>
    let (q, lost) := if 0 ≤ e then (m * 2 ^ e.toNat, false) else roundCut r neg m (-e).toNat
    (if neg then -(q : Int) else q, lost)
  | _ => (0, false)

/-- Fit an exact integer in `w` bits of two's complement: clamp when s, else wrap (R52, R54). -/
def fitInt (w : Nat) (s : Bool) (x : Int) : Nat × Nat :=
  let lo : Int := -(2 ^ (w - 1) : Nat)
  let hi : Int := (2 ^ (w - 1) : Nat) - 1
  if lo ≤ x ∧ x ≤ hi then (unsign w x, 0)
  else if s then (unsign w (if x < lo then lo else hi), flSaturated)
  else (unsign w x, 0)

/-- Conversion from floating point to a `w`-bit integer (R56): it saturates whatever S says. -/
def fpToInt (w : Nat) (r : Rnd) (v : Fval) : Nat × Nat :=
  let lo : Int := -(2 ^ (w - 1) : Nat)
  let hi : Int := (2 ^ (w - 1) : Nat) - 1
  match v with
  | .nan => (0, flInvalid)
  | .inf n => (unsign w (if n then lo else hi), flInvalid)
  | .fin n m e =>
    let (x, lost) := roundInt r (.fin n m e)
    if x < lo then (unsign w lo, flInvalid)
    else if hi < x then (unsign w hi, flInvalid)
    else (unsign w x, if lost then flInexact else 0)

/-- An integer shifted right by `n` (or left when negative), the dropped bits rounded, then fitted. -/
def intScaled (w : Nat) (r : Rnd) (x : Int) (n : Int) : Nat × Nat :=
  let (y, lost) := roundInt r (.fin (decide (x < 0)) x.natAbs (-n))
  let (v, f) := fitInt w r.s y
  (v, f ||| (if lost then flInexact else 0))

/-! ### Format codes (R47) -/

/-- A reserved format code. -/
def fmtReserved (k : Nat) : Bool := k == 0x0F || decide (0x13 ≤ k)

/-- The element format of a floating-point or MX code, and whether it is MX. -/
def fmtFp : Nat → Option (FpFmt × Bool)
  | 0x00 => some (fp32, false)
  | 0x01 => some (bf16, false)
  | 0x02 => some (fp16, false)
  | 0x03 => some (e4m3, false)
  | 0x04 => some (e5m2, false)
  | 0x05 => some (e4m3, true)
  | 0x06 => some (e5m2, true)
  | 0x07 => some (e2m3, true)
  | 0x08 => some (e3m2, true)
  | 0x09 => some (e2m1, true)
  | _ => none

/-- MX codes, MXINT8 among them. -/
def fmtMx (k : Nat) : Bool := decide (5 ≤ k) && decide (k ≤ 0x0A)

/-- Integer codes and their widths. -/
def fmtInt : Nat → Option Nat
  | 0x0B => some 4
  | 0x0C => some 8
  | 0x0D => some 16
  | 0x0E => some 32
  | _ => none

/-- Complex codes and the width of a part. -/
def fmtComplex : Nat → Option Nat
  | 0x10 => some 16
  | 0x11 => some 32
  | _ => none

/-- Bits of one element in memory (R48). -/
def fmtBits (k : Nat) : Nat :=
  match k with
  | 0x00 => 32
  | 0x01 => 16
  | 0x02 => 16
  | 0x03 => 8
  | 0x04 => 8
  | 0x05 => 8
  | 0x06 => 8
  | 0x07 => 6
  | 0x08 => 6
  | 0x09 => 4
  | 0x0A => 8
  | 0x0B => 4
  | 0x0C => 8
  | 0x0D => 16
  | 0x0E => 32
  | 0x10 => 32
  | 0x11 => 64
  | _ => 0

/-- The exponent E of R49 for an MX format: floor of log2 of the largest element. -/
def mxE : Nat → Int
  | 0x05 => 8
  | 0x06 => 15
  | 0x07 => 2
  | 0x08 => 4
  | 0x09 => 2
  | _ => 0

/-- The value of a floating-point or MX element word without its scale; MXINT8 is an 8-bit integer times
2⁻⁶. -/
def fmtValue (k w : Nat) : Fval :=
  if k = 0x0A then (Fval.ofInt (signed 8 w)).scale (-6)
  else match fmtFp k with
    | some (f, _) => f.decode w
    | none => .nan

/-- The value of an element under a scale byte (R49): 255 makes it NaN. -/
def mxValue (k scale w : Nat) : Fval :=
  if scale = 255 then .nan else (fmtValue k w).scale ((scale : Int) - 127)

/-- The magnitude of the largest finite datum in a block, as bit position of its leading one. -/
def topBit : List Fval → Option Int
  | [] => none
  | .fin _ m e :: t =>
    if m = 0 then topBit t
    else
      let x : Int := e + bitLen m - 1
      match topBit t with
      | none => some x
      | some y => some (max x y)
  | _ :: t => topBit t

/-- Convert one block of up to 32 values to an MX format (R49): the scale byte, the element words and the
flags. `rnd i` rounds element i. -/
def mxBlock (k : Nat) (rnd : Nat → Rnd) (vs : List Fval) : Nat × List Nat × Nat :=
  let hasNan := vs.any (fun v => decide (v = .nan))
  let hasInf := vs.any (fun v => decide (v = .inf true ∨ v = .inf false))
  if hasNan ∨ (hasInf ∧ k ≠ 0x06) then (255, vs.map (fun _ => 0), if hasInf ∧ k ≠ 0x06 then flInvalid else 0)
  else
    match topBit vs with
    | none =>
      (0, vs.map (fun v => match v with
        | .inf n => e5m2.signed n 0x7C
        | v => if k = 0x0A then 0 else (match fmtFp k with
          | some (f, _) => f.signed v.neg 0
          | none => 0)), 0)
    | some t =>
      let x := max (-127) (min 127 (t - mxE k))
      let one := fun (i : Nat) (v : Fval) =>
        let r := { rnd i with s := true }
        let y := v.scale (-x)
        if k = 0x0A then
          let (q, lost) := roundInt r (y.scale 6)
          let (w, f) := fitInt 8 true q
          (w, f ||| (if lost then flInexact else 0))
        else match fmtFp k with
          | some (f, _) => f.encode r false y
          | none => (0, 0)
      let rs := vs.zipIdx.map (fun p => one p.2 p.1)
      ((x + 127).toNat, rs.map (·.1), rs.foldl (fun a p => a ||| p.2) 0)

/-! ### Philox-4x32-10 (R59, R60) -/

/-- The four words of the generator. -/
structure Quad where
  x0 : W32
  x1 : W32
  x2 : W32
  x3 : W32
deriving DecidableEq, Repr

/-- One round (R59). -/
def philoxRound (k0 k1 : W32) (c : Quad) : Quad :=
  let p0 := 0xD2511F53 * c.x0.toNat
  let p1 := 0xCD9E8D57 * c.x2.toNat
  ⟨BitVec.ofNat 32 (p1 / 2 ^ 32) ^^^ c.x1 ^^^ k0, BitVec.ofNat 32 p1,
   BitVec.ofNat 32 (p0 / 2 ^ 32) ^^^ c.x3 ^^^ k1, BitVec.ofNat 32 p0⟩

/-- `n` further rounds, the key stepping before each. -/
def philoxRounds : Nat → W32 → W32 → Quad → Quad
  | 0, _, _, c => c
  | n + 1, k0, k1, c =>
    let k0 := k0 + 0x9E3779B9#32
    let k1 := k1 + 0xBB67AE85#32
    philoxRounds n k0 k1 (philoxRound k0 k1 c)

/-- Philox-4x32-10. -/
def philox (seed : W64) (c : Quad) : Quad :=
  let k0 : W32 := seed.setWidth 32
  let k1 : W32 := (seed >>> 32).setWidth 32
  philoxRounds 9 k0 k1 (philoxRound k0 k1 c)

/-- The counter of R60. -/
def drawCounter (stream : W32) (index : W64) (purpose step : Nat) : Quad :=
  ⟨BitVec.ofNat 32 ((purpose % 256) * 2 ^ 24 + step % 2 ^ 24), index.setWidth 32, (index >>> 32).setWidth 32, stream⟩

/-- What draws of a task depend on: the seed, FX_RSTREAM, FX_RSTEP and the draw mode (R62, R63). -/
structure DrawCtx where
  seed : W64
  stream : W32
  step : Nat
  shared : Bool
deriving DecidableEq, Repr

/-- The word that rounds the element with linear index `index`: x0, or x1 for the Q part of a complex
element; in shared-draw mode the group's word rotated right by 8j (R62, R63, R85). -/
def roundWord (d : DrawCtx) (index : W64) (q : Bool) : W32 :=
  if d.shared then
    let j := index.toNat % 4
    let g := philox d.seed (drawCounter d.stream (index - BitVec.ofNat 64 j) 0 d.step)
    (if q then g.x1 else g.x0).rotateRight (8 * j)
  else
    let g := philox d.seed (drawCounter d.stream index 0 d.step)
    if q then g.x1 else g.x0

/-! ### CBX12 (R50) -/

/-- A CBX12 PRB: GAIN, EXP and twelve mantissa pairs. -/
structure CbxPrb where
  gain : Int
  exp : Nat
  iq : List (Int × Int)
deriving DecidableEq, Repr

/-- Read the 320 bits of a PRB. -/
def cbxDecode (w : Nat) : CbxPrb :=
  ⟨signed 5 (w / 2 ^ 292), (w / 2 ^ 288) % 16,
   (List.range 12).map (fun k => (signed 12 (w / 2 ^ (24 * k)), signed 12 (w / 2 ^ (24 * k + 12))))⟩

/-- Write the 320 bits of a PRB. -/
def cbxEncode (p : CbxPrb) : Nat :=
  p.iq.zipIdx.foldl (fun acc x => acc + unsign 12 x.1.1 * 2 ^ (24 * x.2) + unsign 12 x.1.2 * 2 ^ (24 * x.2 + 12))
    ((p.exp % 16) * 2 ^ 288 + unsign 5 p.gain * 2 ^ 292)

/-- Both parts of each element rounded to multiples of 2^e. -/
def cbxRound (rnd : Nat → Bool → Rnd) (vals : List (Fval × Fval)) (e : Nat) : List ((Int × Bool) × (Int × Bool)) :=
  vals.zipIdx.map (fun x => (roundInt (rnd x.2 false) (x.1.1.scale (-(e : Int))), roundInt (rnd x.2 true) (x.1.2.scale (-(e : Int)))))

/-- All mantissas lie in the 12-bit range. -/
def cbxFits (l : List ((Int × Bool) × (Int × Bool))) : Bool :=
  l.all (fun x => decide (-2048 ≤ x.1.1 ∧ x.1.1 ≤ 2047 ∧ -2048 ≤ x.2.1 ∧ x.2.1 ≤ 2047))

/-- The smallest EXP whose mantissas fit, or 15 (R50). -/
def cbxPickExp (rnd : Nat → Bool → Rnd) (vals : List (Fval × Fval)) : Nat :=
  ((List.range 15).find? (fun e => cbxFits (cbxRound rnd vals e))).getD 15

/-- Pack twelve elements into a PRB (R50, R54): the PRB and the flags. -/
def cbxPack (s : Bool) (rnd : Nat → Bool → Rnd) (gain : Int) (vals : List (Fval × Fval)) : CbxPrb × Nat :=
  let e := cbxPickExp rnd vals
  let l := cbxRound rnd vals e
  let fit := fun (x : Int × Bool) =>
    let (w, f) := fitInt 12 s x.1
    (signed 12 w, f ||| (if x.2 then flInexact else 0))
  let ps := l.map (fun x => (fit x.1, fit x.2))
  (⟨gain, e, ps.map (fun x => (x.1.1, x.2.1))⟩, ps.foldl (fun a x => a ||| x.1.2 ||| x.2.2) 0)

/-! ### The reduction tree (R64, R430) -/

/-- One level of the tree. -/
def treeLevel {α : Type} (f : α → α → α) : List α → List α
  | a :: b :: t => f a b :: treeLevel f t
  | l => l

/-- The whole tree: `fuel` levels suffice for 2^fuel slots. -/
def treeFold {α : Type} (f : α → α → α) : Nat → List α → List α
  | 0, l => l
  | n + 1, l => match l with
    | [] => []
    | [a] => [a]
    | l => treeFold f n (treeLevel f l)

/-- A binary32 addition with RNE whose overflow gives ±∞ (R430): word and flags accumulated. -/
def treeAdd (a b : Nat × Nat) : Nat × Nat :=
  let x := fp32.decode a.1
  let y := fp32.decode b.1
  let (w, f) := fp32.encode rne (decide (x ≠ .nan ∧ y ≠ .nan)) (exactSum false [x, y])
  (w, f ||| a.2 ||| b.2)

end Sys2Proof.Machine
end

