-- ==== Sys2Proof/Machine/Lanes.lean ====
section
/-! DEFINITION. The lane-wise vector operations on FP32, INT32 and CI16 lanes (R56, R58, R74, R78, R87),
as functions of the lane words: one shared operation per row, used by register and felt forms alike. -/

namespace Sys2Proof.Machine

/-- The lane types of register-form arithmetic (R74). -/
inductive LaneTy where
  | fp32
  | int32
  | ci16
deriving DecidableEq, Repr

/-- The lane type a format code names. -/
def laneTy : Nat → Option LaneTy
  | 0x00 => some .fp32
  | 0x0E => some .int32
  | 0x10 => some .ci16
  | _ => none

/-- The parts of a CI16 lane: I in bits [15:0], Q in [31:16] (R48). -/
def ciParts (w : W32) : Int × Int := (signed 16 w.toNat, signed 16 (w.toNat / 2 ^ 16))

/-- A CI16 lane from the words of its parts. -/
def ciWord (i q : Nat) : W32 := BitVec.ofNat 32 (i % 2 ^ 16 + (q % 2 ^ 16) * 2 ^ 16)

/-- How the parts of one lane are rounded: x0 for a real lane or the I part, x1 for the Q part (R85). -/
structure LaneRnd where
  i : Rnd
  q : Rnd
deriving DecidableEq, Repr

/-- The value of an FP32 lane. -/
def f32 (w : W32) : Fval := fp32.decode w.toNat

/-- Encode an FP32 lane; `fresh` says that no input was a NaN. -/
def f32out (r : Rnd) (fresh : Bool) (v : Fval) : W32 × Nat :=
  let (w, f) := fp32.encode r fresh v
  (BitVec.ofNat 32 w, f)

/-- No input is a NaN. -/
def noNan (l : List Fval) : Bool := l.all (fun v => decide (v ≠ .nan))

/-- Two integer parts fitted into a CI16 lane. -/
def ciOut (r : LaneRnd) (i q : Int) : W32 × Nat :=
  let (wi, fi) := fitInt 16 r.i.s i
  let (wq, fq) := fitInt 16 r.q.s q
  (ciWord wi wq, fi ||| fq)

/-- An INT32 result. -/
def intOut (r : LaneRnd) (x : Int) : W32 × Nat :=
  let (w, f) := fitInt 32 r.i.s x
  (BitVec.ofNat 32 w, f)

/-- Signed reading of an INT32 lane. -/
def i32 (w : W32) : Int := signed 32 w.toNat

/-- Lane sum (FX.VADD) or, with `sub`, difference (FX.VSUB). -/
def laneAdd (sub : Bool) (t : LaneTy) (r : LaneRnd) (a b : W32) : W32 × Nat :=
  match t with
  | .fp32 =>
    let x := f32 a
    let y := if sub then (f32 b).negate else f32 b
    f32out r.i (noNan [x, y]) (exactSum (r.i.rm == 3) [x, y])
  | .int32 => intOut r (if sub then i32 a - i32 b else i32 a + i32 b)
  | .ci16 =>
    let (ai, aq) := ciParts a
    let (bi, bq) := ciParts b
    if sub then ciOut r (ai - bi) (aq - bq) else ciOut r (ai + bi) (aq + bq)

/-- Lane product (FX.VMUL); a CI16 lane is one complex number (R52, log entry 21). -/
def laneMul (t : LaneTy) (r : LaneRnd) (a b : W32) : W32 × Nat :=
  match t with
  | .fp32 => f32out r.i (noNan [f32 a, f32 b]) ((f32 a).mul (f32 b))
  | .int32 => intOut r (i32 a * i32 b)
  | .ci16 =>
    let (ai, aq) := ciParts a
    let (bi, bq) := ciParts b
    ciOut r (ai * bi - aq * bq) (ai * bq + aq * bi)

/-- Lane fused multiply-add (FX.VFMA): a × b + d, rounded once. -/
def laneFma (t : LaneTy) (r : LaneRnd) (a b d : W32) : W32 × Nat :=
  match t with
  | .fp32 =>
    f32out r.i (noNan [f32 a, f32 b, f32 d]) (exactSum (r.i.rm == 3) [(f32 a).mul (f32 b), f32 d])
  | .int32 => intOut r (i32 a * i32 b + i32 d)
  | .ci16 =>
    let (ai, aq) := ciParts a
    let (bi, bq) := ciParts b
    let (di, dq) := ciParts d
    ciOut r (ai * bi - aq * bq + di) (ai * bq + aq * bi + dq)

/-- The exact order of two data: a < b. A NaN compares false; zeros are equal. -/
def Fval.lt : Fval → Fval → Bool
  | .nan, _ => false
  | _, .nan => false
  | .inf a, .inf b => a && !b
  | .inf a, .fin _ _ _ => a
  | .fin _ _ _, .inf b => !b
  | .fin a m e, .fin b n f =>
    let k := min e f
    decide (sumAt k [.fin a m e] < sumAt k [.fin b n f])

/-- Equality of two data: zeros are equal, a NaN equals nothing. -/
def Fval.same : Fval → Fval → Bool
  | .nan, _ => false
  | _, .nan => false
  | a, b => !a.lt b && !b.lt a

/-- IEEE minimumNumber, or maximumNumber with `big`: a single NaN is passed over, −0 lies below +0, and two
NaNs give the canonical one. -/
def f32MinMax (big : Bool) (a b : W32) : W32 :=
  let x := f32 a
  let y := f32 b
  if x = .nan then (if y = .nan then 0x7FC00000#32 else b)
  else if y = .nan then a
  else
    let aBelow := x.lt y || (x.same y && x.neg && !y.neg)
    if big then (if aBelow then b else a) else (if aBelow || (x.same y && x.neg) then a else b)

/-- FX.VMIN and FX.VMAX: FP32 by minimumNumber and maximumNumber, INT32 signed, CI16 part by part (log
entry 21). -/
def laneMinMax (big : Bool) (t : LaneTy) (a b : W32) : W32 :=
  match t with
  | .fp32 => f32MinMax big a b
  | .int32 => if big then (if i32 a < i32 b then b else a) else (if i32 b < i32 a then b else a)
  | .ci16 =>
    let (ai, aq) := ciParts a
    let (bi, bq) := ciParts b
    let m := fun (x y : Int) => unsign 16 (if big then max x y else min x y)
    ciWord (m ai bi) (m aq bq)

/-- FX.VCMPLT, or FX.VCMPEQ with `eq`: all ones when true; CI16 part by part (log entry 21). -/
def laneCmp (eq : Bool) (t : LaneTy) (a b : W32) : W32 :=
  match t with
  | .fp32 => if (if eq then (f32 a).same (f32 b) else (f32 a).lt (f32 b)) then 0xFFFFFFFF#32 else 0
  | .int32 => if (if eq then decide (a = b) else decide (i32 a < i32 b)) then 0xFFFFFFFF#32 else 0
  | .ci16 =>
    let (ai, aq) := ciParts a
    let (bi, bq) := ciParts b
    let m := fun (x y : Int) => if (if eq then decide (x = y) else decide (x < y)) then 0xFFFF else 0
    ciWord (m ai bi) (m aq bq)

/-- FX.VCVT between FP32 and INT32 (R56). -/
def laneCvt (toInt : Bool) (r : LaneRnd) (a : W32) : W32 × Nat :=
  if toInt then
    let (w, f) := fpToInt 32 r.i (f32 a)
    (BitVec.ofNat 32 w, f)
  else f32out r.i true (Fval.ofInt (i32 a))

/-- FX.VSCALE: a × 2^e, the exponent an INT32 per lane. -/
def laneScale (t : LaneTy) (r : LaneRnd) (a e : W32) : W32 × Nat :=
  let k := i32 e
  match t with
  | .fp32 => f32out r.i (noNan [f32 a]) ((f32 a).scale k)
  | .int32 =>
    let (w, f) := intScaled 32 r.i (i32 a) (-k)
    (BitVec.ofNat 32 w, f)
  | .ci16 =>
    let (i, q) := ciParts a
    let (wi, fi) := intScaled 16 r.i i (-k)
    let (wq, fq) := intScaled 16 r.q q (-k)
    (ciWord wi wq, fi ||| fq)

/-- FX.VCMUL, or FX.VCMULC with `conj`: the product of two CI16 lanes divided by 2¹⁵ (R87). -/
def laneCmul (conj : Bool) (r : LaneRnd) (a b : W32) : W32 × Nat :=
  let (ai, aq) := ciParts a
  let (bi, bq0) := ciParts b
  let bq := if conj then -bq0 else bq0
  let (wi, fi) := intScaled 16 r.i (ai * bi - aq * bq) 15
  let (wq, fq) := intScaled 16 r.q (ai * bq + aq * bi) 15
  (ciWord wi wq, fi ||| fq)

/-- FX.VCMAG: I² + Q² as INT32 (R87). -/
def laneCmag (r : LaneRnd) (a : W32) : W32 × Nat :=
  let (i, q) := ciParts a
  intOut r (i * i + q * q)

/-- The correctly rounded reciprocal of a finite nonzero datum, with a sticky bit below 2·24 quotient
bits. -/
def recipExact : Fval → Fval
  | .fin n m e =>
    let k := bitLen m + 60
    let q := 2 ^ k / m
    let st := if 2 ^ k % m = 0 then 0 else 1
    .fin n (2 * q + st) (-e - (k : Int) - 1)
  | v => v

/-- The function unit (R58). Special inputs as the rule gives them; on B0 the reciprocal is correctly
rounded; every other result is fixed by the AIC and left open here (`Config.functionUnit`). -/
def laneFn (aic : Nat) (fn : Nat) (s : Bool) (a : W32) : W32 × Nat :=
  let r : Rnd := ⟨0, s, 0⟩
  match f32 a with
  | .nan => (0x7FC00000#32, 0)
  | v =>
    match fn, v with
    | 0, .inf true => (0, 0)
    | 0, .inf false => (0x7F800000#32, 0)
    | 1, .inf true => (0, 0)
    | 1, .inf false => (0x7F800000#32, 0)
    | 2, .inf n => (if n then 0x80000000#32 else 0, 0)
    | 2, .fin n m e =>
      if m = 0 then (if n then 0xFF800000#32 else 0x7F800000#32, 0)
      else if aic = 0x1B00 then f32out r true (recipExact (.fin n m e))
      else (Config.functionUnit aic fn a, (Config.functionFlags aic fn a).toNat)
    | 3, .inf false => (0, 0)
    | 3, .inf true => (0x7FC00000#32, flInvalid)
    | 3, .fin n m _ =>
      if m = 0 ∧ n = false then (0x7F800000#32, 0)
      else if n = true ∧ m ≠ 0 then (0x7FC00000#32, flInvalid)
      else (Config.functionUnit aic fn a, (Config.functionFlags aic fn a).toNat)
    | 1, .fin n m e =>
      if n = false ∧ (Fval.fin false 128 0).lt (.fin n m e) then f32out r true (.fin false 1 1000)
      else (Config.functionUnit aic fn a, (Config.functionFlags aic fn a).toNat)
    | _, _ => (Config.functionUnit aic fn a, (Config.functionFlags aic fn a).toNat)

/-- FX.VRSUM: the 64 lanes summed in the tree of R64 (R430): FP32 by binary32 additions, integers exactly
and then fitted. -/
def lanesSum (t : LaneTy) (r : LaneRnd) (v : List W32) : W32 × Nat :=
  match t with
  | .fp32 =>
    (match treeFold treeAdd 12 (v.map (fun w => (w.toNat, 0))) with
     | (w, f) :: _ => (BitVec.ofNat 32 w, f)
     | [] => (0, 0))
  | .int32 => intOut r (v.foldl (fun a w => a + i32 w) 0)
  | .ci16 => ciOut r (v.foldl (fun a w => a + (ciParts w).1) 0) (v.foldl (fun a w => a + (ciParts w).2) 0)

/-- FX.VRMAX: the largest lane. -/
def lanesMax (t : LaneTy) : List W32 → W32
  | [] => 0
  | a :: l => l.foldl (laneMinMax true t) a

/-- FX.VPERM: lane l takes lane vs2[l] mod 64. -/
def lanesPerm (a ix : List W32) : List W32 := ix.map (fun i => nth a (i.toNat % 64) 0)

end Sys2Proof.Machine
end

