-- ==== Sys2Proof/Machine/Mem.lean ====
section
/-! DEFINITION. Byte memories in canonical form: a list of (address, byte) with strictly rising addresses
and no entry that equals 0, which is what an unlisted address reads as. Felt (R71), quire pools (R90),
device memory, host memory and flash are all held so. -/

namespace Sys2Proof.Machine

/-- A byte memory. -/
abbrev Memory := List Host.Cell

/-- The canonical form. -/
def Memory.wf (m : Memory) : Bool := tabSorted m && m.all (fun x => x.2 != 0)

/-- Read one byte. -/
def memGet (m : Memory) (a : Nat) : Byte := tabGetD m a 0

/-- Write one byte; a zero byte is not listed. -/
def memPut (m : Memory) (a : Nat) (b : Byte) : Memory := if b = 0 then tabDel m a else tabPut m a b

/-- Read `n` bytes. -/
def memRead (m : Memory) (a n : Nat) : List Byte := (List.range n).map (fun i => memGet m (a + i))

/-- Write bytes upward from an address. -/
def memWrite (m : Memory) (a : Nat) : List Byte → Memory
  | [] => m
  | b :: t => memWrite (memPut m a b) (a + 1) t

/-- Read a little-endian number of `n` bytes. -/
def memNat (m : Memory) (a n : Nat) : Nat := natLE (memRead m a n)

/-- Write a little-endian number of `n` bytes. -/
def memPutNat (m : Memory) (a n x : Nat) : Memory := memWrite m a (bytesLE n x)

/-- Zero the bytes from `a` for `n`. -/
def memZero (m : Memory) (a n : Nat) : Memory := m.filter (fun x => !(decide (a ≤ x.1) && decide (x.1 < a + n)))

/-- Read a little-endian number through a byte reader. -/
def rdNat (rd : Nat → Byte) (a : Nat) : Nat → Nat
  | 0 => 0
  | n + 1 => (rd a).toNat + 256 * rdNat rd (a + 1) n

/-- Element `i` of width `w` bits in an array at `base`, packed from the least significant bit upward (R48). -/
def rdElem (rd : Nat → Byte) (base w i : Nat) : Nat :=
  rdNat rd (base + i * w / 8) ((i * w % 8 + w + 7) / 8) / 2 ^ (i * w % 8) % 2 ^ w

/-- Elements packed into bytes from the least significant bit upward (R48), padded with zero bits. -/
def packElems (w : Nat) (xs : List Nat) : List Byte :=
  bytesLE ((xs.length * w + 7) / 8) (xs.zipIdx.foldl (fun acc p => acc + (p.1 % 2 ^ w) * 2 ^ (w * p.2)) 0)

end Sys2Proof.Machine
end

