-- ==== Sys2Proof/Machine/Dsp.lean ====
section
/-! DEFINITION. The DSP instructions' arithmetic (R86, R87): tap-and-move, LLR demapping and the CBX12
conversions, as functions of lane words and a felt reader. -/

namespace Sys2Proof.Machine

/-! ### FX.TAPMV (R86) -/

/-- FX_TAPCFG by its fields (R75). -/
structure TapCfg where
  shift : Nat
  type : Nat
  up : Nat
  bank : Nat
  taps : Nat
deriving DecidableEq, Repr

/-- Read FX_TAPCFG. UP and TAPS as the numbers they stand for. -/
def tapCfg (w : W32) : TapCfg :=
  let x := w.toNat
  ⟨bitsOf x 15 10, bitsOf x 9 8, 2 ^ bitsOf x 7 6, bitsOf x 5 4, bitsOf x 3 0 + 1⟩

/-- A tap configuration that FX.TAPMV accepts. -/
def tapOk (t : TapCfg) : Bool :=
  t.type != 3 && t.up ≤ 4 && t.up * t.taps ≤ 16 && t.shift ≤ 31 && (t.type != 1 || t.shift == 0)

/-- One output lane. -/
def tapLane (t : TapCfg) (r : LaneRnd) (h w : List W32) (l : Nat) : W32 × Nat :=
  let p := l % t.up
  let n := l / t.up
  let pairs := (List.range t.taps).map (fun k => (nth h (p * t.taps + k) 0, nth w (n + k) 0))
  match t.type with
  | 1 =>
    let vs := pairs.map (fun x => (f32 x.1).mul (f32 x.2))
    f32out r.i (pairs.all (fun x => noNan [f32 x.1, f32 x.2])) (exactSum (r.i.rm == 3) vs)
  | ty =>
    let prod := fun (x : W32 × W32) =>
      let (wi, wq) := ciParts x.2
      if ty = 2 then (signed 16 x.1.toNat * wi, signed 16 x.1.toNat * wq)
      else
        let (hi, hq) := ciParts x.1
        (hi * wi - hq * wq, hi * wq + hq * wi)
    let ai := pairs.foldl (fun a x => a + (prod x).1) 0
    let aq := pairs.foldl (fun a x => a + (prod x).2) 0
    let (wi, fi) := intScaled 16 r.i ai t.shift
    let (wq, fq) := intScaled 16 r.q aq t.shift
    (ciWord wi wq, fi ||| fq)

/-- The words by which FX.TAPMV moves the window. -/
def tapMove (t : TapCfg) : Nat := 64 / t.up

/-! ### FX.DEMAP (R87) -/

/-- Bits per symbol of a modulation code; none for a reserved code. -/
def demapBits : Nat → Option Nat
  | 0 => some 1
  | 1 => some 1
  | 2 => some 2
  | 3 => some 4
  | 4 => some 6
  | 5 => some 8
  | 6 => some 10
  | _ => none

/-- The coordinate that the Gray bits of one axis name, outermost first (TS 38.211 as R87 cites it):
(1 − 2b)[2ⁿ⁻¹ − …[2 − (1 − 2b′)]]. -/
def axisLevel : List Bool → Int
  | [] => 1
  | [b] => if b then -1 else 1
  | b :: t => (if b then -1 else 1) * ((2 ^ t.length : Nat) - axisLevel t)

/-- The bit lists of length n. -/
def bitLists : Nat → List (List Bool)
  | 0 => [[]]
  | n + 1 => (bitLists n).flatMap (fun l => [false :: l, true :: l])

/-- The constellation point of a symbol's bits, in lattice units; π/2-BPSK turns every odd symbol by a
quarter. -/
def constellation (modu lane : Nat) (bits : List Bool) : Int × Int :=
  if modu ≤ 1 then
    let v := axisLevel bits
    if modu = 0 ∧ lane % 2 = 1 then (-v, v) else (v, v)
  else
    let even := (bits.zipIdx.filter (fun x => x.2 % 2 == 0)).map (·.1)
    let odd := (bits.zipIdx.filter (fun x => x.2 % 2 == 1)).map (·.1)
    (axisLevel even, axisLevel odd)

/-- The smallest squared distance to a point whose bit `b` has value `v`. -/
def demapDist (modu lane qm : Nat) (y : Int × Int) (b : Nat) (v : Bool) : Int :=
  let u : Int := Config.demapUnit modu
  let ds := ((bitLists qm).filter (fun l => nth l b false == v)).map (fun l =>
    let p := constellation modu lane l
    (y.1 - u * p.1) ^ 2 + (y.2 - u * p.2) ^ 2)
  match ds with
  | [] => 0
  | d :: t => t.foldl min d

/-- The LLRs of one symbol as INT8 words, with their flags: max-log, times the lane's scale with 24
fraction bits, rounded and saturated to ±127; a positive value favours bit 0. -/
def demapLane (modu qm lane : Nat) (r : Rnd) (sym scale : W32) : List (Nat × Nat) :=
  (List.range qm).map (fun b =>
    let y := ciParts sym
    let d := demapDist modu lane qm y b true - demapDist modu lane qm y b false
    let x := d * i32 scale
    let (v, lost) := roundInt r (.fin (decide (x < 0)) x.natAbs (Config.demapShift modu - 24))
    let c := max (-127) (min 127 v)
    (unsign 8 c, (if lost then flInexact else 0) ||| (if c = v then 0 else flSaturated)))

/-! ### CBX12 (R50, R87) -/

/-- The 40 bytes of a PRB through a reader. -/
def cbxAt (rd : Nat → Byte) (a : Nat) : CbxPrb := cbxDecode (rdNat rd a 40)

/-- FX.CBXUPK: five PRBs into 60 CI16 lanes and their GAIN fields. -/
def cbxUnpack (rnd : Nat → LaneRnd) (rd : Nat → Byte) (a sh : Nat) : List W32 × Nat :=
  let prbs := (List.range 5).map (fun m => cbxAt rd (a + 40 * m))
  let g := fun m => ((prbs[m]?).map (·.gain)).getD 0
  let lane := fun l =>
    match prbs[l / 12]? with
    | none => (0#32, 0)
    | some p =>
      let (i, q) := nth p.iq (l % 12) (0, 0)
      let k : Int := (sh : Int) - p.exp
      let (wi, fi) := intScaled 16 (rnd l).i i k
      let (wq, fq) := intScaled 16 (rnd l).q q k
      (ciWord wi wq, fi ||| fq)
  let ls := (List.range 60).map lane
  (ls.map (·.1) ++ [ciWord (unsign 16 (g 0)) (unsign 16 (g 1)), ciWord (unsign 16 (g 2)) (unsign 16 (g 3)),
     ciWord (unsign 16 (g 4)) 0, 0], ls.foldl (fun f x => f ||| x.2) 0)

/-- FX.CBXPK: lanes 0 to 59, each times 2^sh, into five PRBs; GAIN from lanes 60 to 62. -/
def cbxPackLanes (s : Bool) (rnd : Nat → LaneRnd) (v : List W32) (sh : Nat) : List Byte × Nat :=
  let gain := fun m =>
    let (i, q) := ciParts (nth v (60 + m / 2) 0)
    signed 5 (unsign 5 (if m % 2 = 0 then i else q))
  let one := fun m =>
    let vals := (List.range 12).map (fun k =>
      let (i, q) := ciParts (nth v (12 * m + k) 0)
      ((Fval.ofInt i).scale sh, (Fval.ofInt q).scale sh))
    cbxPack s (fun k isQ => if isQ then (rnd (12 * m + k)).q else (rnd (12 * m + k)).i) (gain m) vals
  let ps := (List.range 5).map one
  (ps.flatMap (fun p => bytesLE 40 (cbxEncode p.1)), ps.foldl (fun f p => f ||| p.2) 0)

end Sys2Proof.Machine
end

