-- ==== Sys2Proof/Machine/Matrix.lean ====
section
/-! DEFINITION. The cube array (R81 to R84, R98 to R105, R110): legality, operand layouts, one group step
and the whole of a matrix multiply-accumulate, and the conversions of an accumulator bank. -/

namespace Sys2Proof.Machine

/-- What an FX.MMA names (R81): its mode and shape, and its CLR, SP and S bits. -/
structure MmaOp where
  mode : Nat
  steps : Nat
  mask : Nat
  clr : Bool
  sp : Bool
  s : Bool
  fmtA : Nat
  fmtB : Nat
deriving DecidableEq, Repr

/-- Formats the cubes take (R98, R99), with the kind of accumulator they use. -/
def mmaFmt (k : Nat) : Option AccKind :=
  if k = 0x10 then some .ci32
  else if k = 0x0B ∨ k = 0x0C ∨ k = 0x0D then some .int32
  else if 1 ≤ k ∧ k ≤ 0x0A then some .fp32
  else none

/-- The accumulator type of an operand pair: both floating-point or MX, both integer, or both CI16 (R81). -/
def mmaKind (a b : Nat) : Option AccKind :=
  match mmaFmt a, mmaFmt b with
  | some x, some y => if x = y then some x else none
  | _, _ => none

/-- FP8, MX and INT8 formats, which FMT_B must be with SP = 1 (R83). -/
def spFmt (k : Nat) : Bool := k == 0x03 || k == 0x04 || fmtMx k || k == 0x0C

/-- Bytes of the A element tile of one group (R101). -/
def tileA (op : MmaOp) : Nat := (if op.mode = 0 then 256 else 64) * fmtBits op.fmtA / 8

/-- Bytes of the B element tile of one group (R101), half of it with SP = 1 (R103). -/
def tileB (op : MmaOp) : Nat := (if op.mode = 0 then 256 else 64) * fmtBits op.fmtB / 8 / (if op.sp then 2 else 1)

/-- Scale bytes of a block of one operand (R102). -/
def scaleBytes (op : MmaOp) (fmt : Nat) : Nat := if fmtMx fmt then (if op.mode = 0 then 64 else 16) else 0

/-- What makes an FX.MMA illegal (R81, R83, R99, R101), the bank's type apart. -/
def mmaLegal (op : MmaOp) (strideA strideB : Nat) : Bool :=
  (mmaKind op.fmtA op.fmtB).isSome && op.mode != 3 && op.steps != 0 && (!op.sp || spFmt op.fmtB) &&
  decide (tileA op + scaleBytes op op.fmtA ≤ 16 * strideA) &&
  decide (tileB op + scaleBytes op op.fmtB ≤ 16 * strideB)

/-- The enabled outputs (R82). -/
def mmaEnabled (op : MmaOp) (row col : Nat) : Bool :=
  if op.mode = 0 then op.mask.testBit (4 * (row / 4) + col / 4) else op.mask.testBit row

/-- Index of A's element (row, k) in its tile (R101). -/
def idxA (op : MmaOp) (row col k : Nat) : Nat :=
  if op.mode = 0 then 16 * (4 * (row / 4) + col / 4) + 4 * (row % 4) + k else 4 * row + k

/-- Index of B's element (k, col) in its tile; with SP = 1, k numbers the two kept values of a column, which
lie as the rows of a dense tile do (DEDUCED, R103). -/
def idxB (op : MmaOp) (row col k : Nat) : Nat :=
  if op.mode = 0 then (if op.sp then 8 else 16) * (4 * (row / 4) + col / 4) + 4 * k + col % 4 else 16 * k + col

/-- Index of a scale byte of A (R102). -/
def idxSA (op : MmaOp) (row col : Nat) : Nat :=
  if op.mode = 0 then 4 * (4 * (row / 4) + col / 4) + row % 4 else row

/-- Index of a scale byte of B (R102). -/
def idxSB (op : MmaOp) (row col : Nat) : Nat :=
  if op.mode = 0 then 4 * (4 * (row / 4) + col / 4) + col % 4 else col

/-- The metadata nibble of a column (R103): bits [1:0] and [3:2] place its two kept values. -/
def metaNibble (op : MmaOp) (rd : Nat → Byte) (base row col : Nat) : Nat :=
  if op.mode = 0 then rdElem rd base 4 (4 * (4 * (row / 4) + col / 4) + col % 4) else rdElem rd base 4 col

/-- Bytes of metadata of one group. -/
def metaBytes (op : MmaOp) : Nat := if op.mode = 0 then 32 else 8

/-- The B element word at position k of a column as a list: the dense element, or the kept values at
that position, or nothing for a zero (R83, R103). -/
def bAt (op : MmaOp) (rdB rdM : Nat → Byte) (b m row col k : Nat) : List Nat :=
  let w := fmtBits op.fmtB
  if op.sp then
    let x := metaNibble op rdM m row col
    (if x % 4 = k then [rdElem rdB b w (idxB op row col 0)] else []) ++
    (if x / 4 % 4 = k then [rdElem rdB b w (idxB op row col 1)] else [])
  else [rdElem rdB b w (idxB op row col k)]

/-- A floating-point or MX element under its scale byte. -/
def fpElem (fmt w scale : Nat) : Fval := if fmtMx fmt then mxValue fmt scale w else fmtValue fmt w

/-- The addresses of one group: element tiles, scale bytes and metadata. -/
structure GroupAt where
  a : Nat
  b : Nat
  sa : Nat
  sb : Nat
  m : Nat
deriving DecidableEq, Repr

/-- The products of one output in one group, for floating-point and MX operands (R51, R110). -/
def fpProducts (op : MmaOp) (rdA rdB rdM : Nat → Byte) (g : GroupAt) (row col : Nat) : List (Fval × Fval) :=
  (List.range 4).flatMap (fun k =>
    let x := fpElem op.fmtA (rdElem rdA g.a (fmtBits op.fmtA) (idxA op row col k))
      (rdA (g.sa + idxSA op row col)).toNat
    match bAt op rdB rdM g.b g.m row col k with
    | [] => [(x, .fin false 0 0)]
    | ws => ws.map (fun w => (x, fpElem op.fmtB w (rdB (g.sb + idxSB op row col)).toNat)))

/-- The operand pairs of one output in one group as raw element words. -/
def rawPairs (op : MmaOp) (rdA rdB rdM : Nat → Byte) (g : GroupAt) (row col : Nat) : List (Nat × Nat) :=
  (List.range 4).flatMap (fun k =>
    let x := rdElem rdA g.a (fmtBits op.fmtA) (idxA op row col k)
    (bAt op rdB rdM g.b g.m row col k).map (fun w => (x, w)))

/-- One group step of one output (R81): the accumulator's new value and the flags. -/
def mmaCell (op : MmaOp) (kind : AccKind) (rdA rdB rdM : Nat → Byte) (g : GroupAt) (row col : Nat) (acc : W64) :
    W64 × Nat :=
  match kind with
  | .fp32 =>
    let ps := fpProducts op rdA rdB rdM g row col
    let x := fp32.decode (acc.toNat % 2 ^ 32)
    let fresh := decide (x ≠ .nan) && ps.all (fun p => decide (p.1 ≠ .nan ∧ p.2 ≠ .nan))
    let (w, f) := fp32.encode ⟨0, op.s, 0⟩ fresh (exactSum false (x :: ps.map (fun p => p.1.mul p.2)))
    (BitVec.ofNat 64 w, f)
  | .int32 =>
    let wa := fmtBits op.fmtA
    let wb := fmtBits op.fmtB
    let p := (rawPairs op rdA rdB rdM g row col).foldl (fun t x => t + signed wa x.1 * signed wb x.2) 0
    let (w, f) := fitInt 32 op.s (signed 32 acc.toNat + p)
    (BitVec.ofNat 64 w, f)
  | .ci32 =>
    let ps := rawPairs op rdA rdB rdM g row col
    let i := fun (w : Nat) => signed 16 w
    let q := fun (w : Nat) => signed 16 (w / 2 ^ 16)
    let pi := ps.foldl (fun t x => t + (i x.1 * i x.2 - q x.1 * q x.2)) 0
    let pq := ps.foldl (fun t x => t + (i x.1 * q x.2 + q x.1 * i x.2)) 0
    let (wi, fi) := fitInt 32 op.s (signed 32 acc.toNat + pi)
    let (wq, fq) := fitInt 32 op.s (signed 32 (acc.toNat / 2 ^ 32) + pq)
    (BitVec.ofNat 64 (wi + wq * 2 ^ 32), fi ||| fq)

/-- One group step over the whole bank. -/
def mmaGroup (op : MmaOp) (kind : AccKind) (rdA rdB rdM : Nat → Nat → Nat → Byte) (at_ : Nat → Nat → GroupAt)
    (bank : List W64 × Nat) : List W64 × Nat :=
  let rs := bank.1.zipIdx.map (fun x =>
    let row := x.2 / 16
    let col := x.2 % 16
    if mmaEnabled op row col then
      mmaCell op kind (rdA row col) (rdB row col) (rdM row col) (at_ row col) row col x.1
    else (x.1, 0))
  (rs.map (·.1), rs.foldl (fun f r => f ||| r.2) bank.2)

/-- The bank an FX.MMA starts from: enabled outputs zeroed by CLR. -/
def mmaStart (op : MmaOp) (vals : List W64) : List W64 :=
  if op.clr then vals.zipIdx.map (fun x => if mmaEnabled op (x.2 / 16) (x.2 % 16) then 0 else x.1) else vals

/-- Groups from g upward, `n` of them, in ascending order. -/
def mmaGroups (op : MmaOp) (kind : AccKind) (rd : Nat → Byte) (at_ : Nat → GroupAt) :
    Nat → Nat → List W64 × Nat → List W64 × Nat
  | 0, _, b => b
  | n + 1, g, b =>
    mmaGroups op kind rd at_ n (g + 1)
      (mmaGroup op kind (fun _ _ => rd) (fun _ _ => rd) (fun _ _ => rd) (fun _ _ => at_ g) b)

/-- Where group g of a packed-mode or sheet-mode instruction lies (R81, R102, R103). -/
def groupAt (op : MmaOp) (rs1 rs2 strideA strideB mmeta g : Nat) : GroupAt :=
  let b0 := g / 8 * 8
  ⟨rs1 + 16 * g * strideA, rs2 + 16 * g * strideB, rs1 + 16 * b0 * strideA + tileA op,
    rs2 + 16 * b0 * strideB + tileB op, mmeta + metaBytes op * g⟩

/-- FX.MMA in packed and sheet mode over a felt reader: the bank and the flags. -/
def mmaLocal (op : MmaOp) (kind : AccKind) (rd : Nat → Byte) (rs1 rs2 strideA strideB mmeta : Nat) (vals : List W64) :
    List W64 × Nat :=
  mmaGroups op kind rd (groupAt op rs1 rs2 strideA strideB mmeta) op.steps 0 (mmaStart op vals, 0)

/-- The felt lines that an operand range touches. -/
def linesOf (a n : Nat) : List Nat := if n = 0 then [] else (List.range ((a + n - 1) / 256 + 1 - a / 256)).map (fun i => a / 256 + i)

/-- The byte ranges an FX.MMA reads in a sheet's own felt (R81, R102, R103). -/
def mmaRanges (op : MmaOp) (rs1 rs2 strideA strideB mmeta groups : Nat) : List (Nat × Nat) :=
  (List.range groups).flatMap (fun g =>
    let p := groupAt op rs1 rs2 strideA strideB mmeta g
    let blk := g % 8 = 0 ∨ op.mode = 2
    [(p.a, tileA op + (if blk then scaleBytes op op.fmtA else 0)),
     (p.b, tileB op + (if blk then scaleBytes op op.fmtB else 0))] ++
    (if op.sp then [(p.m, metaBytes op)] else []))

/-! ### Accumulator banks (R84) -/

/-- A bank at task start: FP32 zeros. -/
def bankReset : AccBank := ⟨.fp32, List.replicate 256 0⟩

/-- The bank type that FX.ACCLD takes from FMT_D. -/
def accLdKind : Nat → Option AccKind
  | 0x00 => some .fp32
  | 0x0E => some .int32
  | 0x11 => some .ci32
  | _ => none

/-- The formats FX.ACCRD writes from a bank type. -/
def accRdOk (kind : AccKind) (fmt : Nat) : Bool :=
  match kind with
  | .ci32 => fmt == 0x10 || fmt == 0x11
  | _ => fmt ≤ 0x04 || fmt == 0x0C || fmt == 0x0D || fmt == 0x0E

/-- One value of an exact datum or integer written in FMT_D (R53 to R56). -/
def convertOut (fmt : Nat) (r : Rnd) (kind : AccKind) (w : Nat) : Nat × Nat :=
  match fmtInt fmt with
  | some b =>
    (match kind with
     | .fp32 => fpToInt b r (fp32.decode w)
     | _ => fitInt b r.s (signed 32 w))
  | none =>
    match fmtFp fmt with
    | some (f, _) =>
      (match kind with
       | .fp32 =>
         let v := fp32.decode w
         f.encode r (decide (v ≠ .nan)) v
       | _ => f.encode r true (Fval.ofInt (signed 32 w)))
    | none => (0, 0)

/-- The value at one place of a bank in FMT_D: the element word and the flags; the parts of a CI32 value
take their random bits from x0 and x1. -/
def accOut (fmt : Nat) (ri rq : Rnd) (kind : AccKind) (v : W64) : Nat × Nat :=
  match kind with
  | .ci32 =>
    if fmt = 0x11 then (v.toNat, 0)
    else
      let (i, fi) := fitInt 16 ri.s (signed 32 v.toNat)
      let (q, fq) := fitInt 16 rq.s (signed 32 (v.toNat / 2 ^ 32))
      (i + q * 2 ^ 16, fi ||| fq)
  | _ => convertOut fmt ri kind (v.toNat % 2 ^ 32)

end Sys2Proof.Machine
end

