-- ==== Sys2Proof/Machine/Sheets.lean ====
section
/-! DEFINITION. One sheet: its place in the state, felt and its tags and ready bits (R21, R71, R80), scalar and
vector registers, the CSRs (R75, R76), the hazards of the issue window (R79), and its release (R92). -/

namespace Sys2Proof.Machine

/-! ### Place and reset -/

/-- The key of a sheet in the state. -/
def sheetKey (s : SheetAt) : Nat := ((s.ream.val * 8 + s.quire.val) * 66 + s.pos.val) * 2 + (if s.second then 1 else 0)

/-- CSRs at task start (R75), DRAW set by the caller. -/
def Csrs.zero : Csrs := ⟨0, 0, 0, 0, 0, 0, 0, 0, 0, 0, 0, 0, 0, 0, 0⟩

/-- A zeroed vector register. -/
def zeroLine : List W32 := List.replicate 64 0

/-- A sheet at reset by its key: positions 0 to 63 active as the logical sheet of that number, 64 and 65
spare (log entry 23); every memory and register zero (R96). -/
def sheetReset (key : Nat) : Sheet :=
  let pos := key / 2 % 66
  { role := if pos < 64 then .active else .spare,
    logical := if pos < 64 ∧ key % 2 = 0 then [pos] else [],
    incarnation := 0, task := none, killing := false, wait := none,
    felt := [], tags := [], claimed := [], notReady := [], bankBusy := [], draining := [],
    vregs := List.replicate 32 zeroLine, banks := List.replicate 4 bankReset,
    taps := List.replicate 4 (List.replicate 16 0), xregs := List.replicate 32 0, pc := 0, csrs := .zero,
    window := [], stalled := [], records := [], deferred := [], dma := [], nextTag := 0, joined := none, cntLatch := none,
    commitSlot := false, retireAsked := false, acquired := none, started := 0, errorUptime := none, feltCeWindow := 0, patrolWord := 0,
    waitSince := 0 }

/-- The sheet at a key. -/
def Chip.sheetK (c : Chip) (k : Nat) : Sheet := tabGetD c.sheets k (sheetReset k)

/-- Put the sheet at a key. -/
def Chip.setSheetK (c : Chip) (k : Nat) (sh : Sheet) : Chip := { c with sheets := tabPut c.sheets k sh }

/-- The sheet at a place. -/
def Chip.sheet (c : Chip) (s : SheetAt) : Sheet := c.sheetK (sheetKey s)

/-- Put the sheet at a place. -/
def Chip.setSheet (c : Chip) (s : SheetAt) (sh : Sheet) : Chip := c.setSheetK (sheetKey s) sh

/-- Change the sheet at a place. -/
def Chip.updSheet (c : Chip) (s : SheetAt) (f : Sheet → Sheet) : Chip := c.setSheet s (f (c.sheet s))

/-- The index of a quire in the chip. -/
def quireIx (r : Fin 4) (q : Fin 8) : Nat := r.val * 8 + q.val

/-- The physical place of a sheet's key. -/
def keyAt (k : Nat) : SheetAt :=
  ⟨Fin.ofNat 4 (k / (2 * 66 * 8)), Fin.ofNat 8 (k / (2 * 66) % 8), Fin.ofNat 66 (k / 2 % 66), k % 2 == 1⟩

/-! ### Felt (R21, R71) -/

/-- One past the last felt address (R70). -/
def feltEnd : Nat := 0x60000

/-- A felt range lies inside felt. -/
def feltOk (a n : Nat) : Bool := decide (a + n ≤ feltEnd)

/-- The context of the task a sheet holds. -/
def Sheet.ctx (sh : Sheet) : Nat :=
  match sh.task with
  | some t => t.ctx
  | none => 0xFFFF

/-- A region carries the task's own tag (R21). -/
def Sheet.own (sh : Sheet) (region : Nat) : Bool := tabGet sh.tags region == some sh.ctx

/-- A felt read: regions not tagged by the task's context read as zero (R21). -/
def Sheet.rd (sh : Sheet) (a : Nat) : Byte := if sh.own (a / 4096) then memGet sh.felt a else 0

/-- Claim a region on its first write (R21). -/
def Sheet.claim (sh : Sheet) (region : Nat) : Sheet :=
  if sh.own region then sh
  else { sh with felt := memZero sh.felt (region * 4096) 4096, tags := tabPut sh.tags region sh.ctx,
                 claimed := region :: sh.claimed }

/-- Claim every region from `region`, `n` of them. -/
def Sheet.claims (sh : Sheet) (region : Nat) : Nat → Sheet
  | 0 => sh
  | n + 1 => (sh.claim region).claims (region + 1) n

/-- A felt write. -/
def Sheet.wr (sh : Sheet) (a : Nat) (bs : List Byte) : Sheet :=
  if bs.isEmpty then sh
  else
    let sh := sh.claims (a / 4096) ((a + bs.length - 1) / 4096 + 1 - a / 4096)
    { sh with felt := memWrite sh.felt a bs }

/-- A line is ready (R80). -/
def Sheet.ready (sh : Sheet) (line : Nat) : Bool := !sh.notReady.contains line

/-- Mark lines ready. -/
def Sheet.mkReady (sh : Sheet) (lines : List Nat) : Sheet :=
  { sh with notReady := sh.notReady.filter (fun l => !lines.contains l) }

/-- Mark lines not ready. -/
def Sheet.clrReady (sh : Sheet) (lines : List Nat) : Sheet :=
  { sh with notReady := sh.notReady ++ lines.filter (fun l => !sh.notReady.contains l) }

/-- The result of an instruction goes to felt: the lines become ready. -/
def Sheet.result (sh : Sheet) (a : Nat) (bs : List Byte) : Sheet := (sh.wr a bs).mkReady (linesOf a bs.length)

/-- The 64 words of a line. -/
def Sheet.line (sh : Sheet) (a : Nat) : List W32 := (List.range 64).map (fun l => BitVec.ofNat 32 (rdNat sh.rd (a + 4 * l) 4))

/-- The bytes of lane words. -/
def lineBytes (v : List W32) : List Byte := v.flatMap (fun w => bytesLE 4 w.toNat)

/-! ### Registers -/

/-- Scalar register i; x0 reads 0. -/
def Sheet.x (sh : Sheet) (i : Nat) : W32 := if i = 0 then 0 else nth sh.xregs i 0

/-- Write scalar register i; x0 discards. -/
def Sheet.setX (sh : Sheet) (i : Nat) (v : W32) : Sheet :=
  if i = 0 then sh else { sh with xregs := setNth sh.xregs i v }

/-- Vector register i. -/
def Sheet.v (sh : Sheet) (i : Nat) : List W32 := nth sh.vregs i zeroLine

/-- Write vector register i. -/
def Sheet.setV (sh : Sheet) (i : Nat) (v : List W32) : Sheet := { sh with vregs := setNth sh.vregs i v }

/-- Bank b. -/
def Sheet.bank (sh : Sheet) (b : Nat) : AccBank := nth sh.banks b bankReset

/-- Write bank b. -/
def Sheet.setBank (sh : Sheet) (b : Nat) (k : AccBank) : Sheet := { sh with banks := setNth sh.banks b k }

/-- Raise sticky flags (R57). -/
def Sheet.raise (sh : Sheet) (f : Nat) : Sheet :=
  { sh with csrs := { sh.csrs with flags := sh.csrs.flags ||| BitVec.ofNat 32 (f % 32) } }

/-! ### CSRs (R75, R76) -/

/-- FMT_A of FX_FMT. -/
def Csrs.fmtA (k : Csrs) : Nat := bitsOf k.fmt.toNat 14 10
/-- FMT_B of FX_FMT. -/
def Csrs.fmtB (k : Csrs) : Nat := bitsOf k.fmt.toNat 9 5
/-- FMT_D of FX_FMT. -/
def Csrs.fmtD (k : Csrs) : Nat := bitsOf k.fmt.toNat 4 0

/-- Write an FX CSR; none for an illegal instruction: a reserved code, a read-only or unknown CSR, or a
DRM of 5 to 7 (R75, R76). -/
def Csrs.write (k : Csrs) (csr : Nat) (v : W32) : Option Csrs :=
  let x := v.toNat
  match csr with
  | 0x800 => if 5 ≤ x % 8 then none else some { k with acr := (k.acr &&& 0x10#32) ||| (v &&& 7#32) }
  | 0x801 => some { k with flags := v &&& 0x1F#32 }
  | 0x802 =>
    if fmtReserved (bitsOf x 14 10) || fmtReserved (bitsOf x 9 5) || fmtReserved (bitsOf x 4 0) then none
    else some { k with fmt := v &&& 0x7FFF#32 }
  | 0x803 => if bitsOf x 31 30 = 3 then none else some { k with mshape := v &&& 0xCFFFFFFF#32 }
  | 0x804 => some { k with mstride := v }
  | 0x805 => some { k with mmeta := v &&& 0x7FFFF#32 }
  | 0x806 =>
    if bitsOf x 9 8 = 3 ∨ bitsOf x 7 6 = 3 ∨ 31 < bitsOf x 15 10 then none
    else some { k with tapcfg := v &&& 0xFFFF#32 }
  | 0x807 => some { k with tapptr := v &&& 0x7FFFC#32 }
  | 0x808 => some { k with rstream := v }
  | 0x809 => some { k with ridxLo := v }
  | 0x80A => some { k with ridxHi := v }
  | 0x80B => some { k with rstep := v &&& 0xFFFFFF#32 }
  | 0x80C => some { k with rld := v &&& 0xFFFF#32 }
  | 0x80D => if 95 < bitsOf x 6 0 then none else some { k with stager := v &&& 0x37F#32 }
  | 0x80E => if (demapBits (bitsOf x 31 28)).isNone then none else some { k with dmcfg := v &&& 0xF007FFFF#32 }
  | _ => none

/-- Read a writable FX CSR. -/
def Csrs.read (k : Csrs) (csr : Nat) : Option W32 :=
  match csr with
  | 0x800 => some k.acr
  | 0x801 => some k.flags
  | 0x802 => some k.fmt
  | 0x803 => some k.mshape
  | 0x804 => some k.mstride
  | 0x805 => some k.mmeta
  | 0x806 => some k.tapcfg
  | 0x807 => some k.tapptr
  | 0x808 => some k.rstream
  | 0x809 => some k.ridxLo
  | 0x80A => some k.ridxHi
  | 0x80B => some k.rstep
  | 0x80C => some k.rld
  | 0x80D => some k.stager
  | 0x80E => some k.dmcfg
  | _ => none

/-- The 64-bit base element index. -/
def Csrs.ridx (k : Csrs) : W64 := BitVec.ofNat 64 (k.ridxLo.toNat + k.ridxHi.toNat * 2 ^ 32)

/-- The draw context of an instruction (R60, R63, R75). -/
def Csrs.draw (k : Csrs) (seed : W64) : DrawCtx := ⟨seed, k.rstream, k.rstep.toNat, k.acr.getLsbD 4⟩

/-- The rounding mode of an instruction: RM, or DRM for 7 (R53, R75). -/
def Csrs.mode (k : Csrs) (rm : Nat) : Nat := if rm = 7 then k.acr.toNat % 8 else rm

/-- How element `index` is rounded (R53, R61, R85). -/
def Csrs.rnd (k : Csrs) (seed : W64) (o : FxOps) (index : W64) : LaneRnd :=
  let m := k.mode o.rm.val
  if m = 4 then ⟨⟨4, o.s, roundWord (k.draw seed) index false⟩, ⟨4, o.s, roundWord (k.draw seed) index true⟩⟩
  else ⟨⟨m, o.s, 0⟩, ⟨m, o.s, 0⟩⟩

/-! ### Release (R92) -/

/-- The sheet drops its task without a trace: window, records, flags, accumulators and outstanding transfers
are discarded, the regions the task claimed are untagged, every ready bit is set and the control core is
reset (R80, R92). Responses of the dropped transfers find no tag. -/
def Sheet.discard (sh : Sheet) : Sheet :=
  { sh with task := none, wait := none, window := [], stalled := [], records := [], deferred := [], dma := [],
            joined := none, notReady := [], bankBusy := [], draining := [], cntLatch := none,
            tags := sh.tags.filter (fun x => !sh.claimed.contains x.1), claimed := [],
            banks := List.replicate 4 bankReset, xregs := List.replicate 32 0, pc := 0, csrs := .zero }

/-- A task is committed: what it claimed becomes its context's own (R134, log entry 24), every ready bit is set
(R80) and the sheet holds no task. -/
def Sheet.finish (sh : Sheet) : Sheet :=
  { sh with task := none, wait := none, window := [], stalled := [], records := [], deferred := [], dma := [],
            joined := none, notReady := [], bankBusy := [], draining := [], cntLatch := none, claimed := [] }

/-- The sheet takes a task (R75, R80, R116): parameters in x10 to x23, CSRs at their start values. -/
def Sheet.start (sh : Sheet) (t : Task) (params : List W32) (shared : Bool) : Sheet :=
  let xs := (List.range 32).map (fun i => if 10 ≤ i ∧ i ≤ 23 then nth params (i - 10) 0 else 0#32)
  { sh with task := some t, killing := false, wait := none, xregs := xs, pc := 0,
            csrs := { Csrs.zero with acr := if shared then 0x10#32 else 0 },
            window := [], stalled := [], records := [], deferred := [], notReady := [], bankBusy := [], draining := [], claimed := [],
            banks := List.replicate 4 bankReset, joined := none, cntLatch := none }

/-! ### What an instruction reads and writes (R79) -/

/-- A resource of the hazard rules. `felt` stands for any line, `dma` orders FX.TFENCE with later reads
(R88, R282), `records` the task's record list, `latch` the half that FX.CNTRD holds, `all` is a fence. -/
inductive Res where
  | line (n : Nat)
  | felt
  | vreg (n : Nat)
  | bank (n : Nat)
  | tap (n : Nat)
  | xreg (n : Nat)
  | dma
  | records
  | latch
  | all
deriving DecidableEq, Repr

/-- Two resources clash. -/
def Res.clash : Res → Res → Bool
  | .all, _ => true
  | _, .all => true
  | .felt, .felt => true
  | .felt, .line _ => true
  | .line _, .felt => true
  | a, b => a == b

/-- What an instruction reads, writes, and needs marked ready before it issues. -/
structure Uses where
  ready : List Nat
  reads : List Res
  writes : List Res
deriving DecidableEq, Repr

/-- Two lists of resources clash. -/
def clashes (a b : List Res) : Bool := a.any (fun x => b.any (fun y => x.clash y))

/-- The second instruction must wait for the first (R79). -/
def Uses.blocks (older younger : Uses) : Bool :=
  clashes older.writes younger.reads || clashes older.writes younger.writes || clashes older.reads younger.writes

/-- Lines as resources. -/
def lineRes (l : List Nat) : List Res := l.map Res.line

/-- Uses of felt ranges read and vector registers. -/
def usesOf (rangesRead : List (Nat × Nat)) (reads : List Res) (rangesWritten : List (Nat × Nat)) (writes : List Res) : Uses :=
  let ls := rangesRead.flatMap (fun x => linesOf x.1 x.2)
  ⟨ls, lineRes ls ++ reads, lineRes (rangesWritten.flatMap (fun x => linesOf x.1 x.2)) ++ writes⟩

end Sys2Proof.Machine
end

