-- ==== Sys2Proof/Machine/FxVec.lean ====
section
/-! DEFINITION. The vector operations of custom-0 and their felt forms (R74, R77, R78, R85, R87): what makes
one illegal, what it uses, and one definition for each operation. -/

namespace Sys2Proof.Machine

/-- What an instruction takes from the chip beside its sheet: the command's seed, class, tensor lengths, output
formats and reduction slots, the pool bytes of its context, the AIC, chip and radio time, which of the sheet's counters
FX.CNTRD may read and their values, whether earlier commits of the context have drained (R282), the request limit
of R276, the chips of the domain, the routes that are valid, the receive queues bound to the task's slot and job, and that its
job lets it issue fabric requests (R316). -/
structure FxCtx where
  seed : W64
  cls : Nat
  inLens : List Nat
  outLens : List Nat
  outFmts : List Nat
  rslots : Nat
  pool : Nat
  aic : Nat
  tick : Int
  rtValid : Bool
  taiNs : Nat
  cntOk : List Bool
  counts : List Nat
  drained : Bool
  reqLimit : Nat
  domain : List Nat
  routes : List Nat
  rxqs : List Nat
  jobOk : Bool
deriving DecidableEq, Repr

/-- How an instruction leaves its sheet: completed, waiting in the window, trapped with a cause (R94), or
stopped by an uncorrectable felt word or a repeated residue mismatch (R95). -/
inductive FxOut where
  | ok (sh : Sheet)
  | wait (sh : Sheet)
  | trap (cause : Nat)
  | uncorrectable (addr : Nat)
  | repeated
deriving DecidableEq, Repr

/-- Cause ILLEGAL. -/
def trIllegal : Nat := 1
/-- Cause FELT_RANGE. -/
def trFelt : Nat := 2
/-- Cause STAGER. -/
def trStager : Nat := 3
/-- Cause OUT_RANGE. -/
def trOut : Nat := 4
/-- Cause COUNTER. -/
def trCounter : Nat := 5
/-- Cause SCALAR. -/
def trScalar : Nat := 6

/-- Trap with the first cause whose condition holds. -/
def firstTrap : List (Bool × Nat) → Option Nat
  | [] => none
  | (b, k) :: t => if b then some k else firstTrap t

/-- RM and S stand only where they apply; RM 5 and 6 never (R77). -/
def rmsBad (o : FxOps) (rmOk sOk : Bool) : Bool :=
  o.rm.val == 5 || o.rm.val == 6 || (!rmOk && o.rm.val != 0) || (!sOk && o.s)

/-- A felt line address is misaligned or outside felt (R94). -/
def lineBad (a : W32) : Bool := a.toNat % 256 != 0 || !feltOk a.toNat 256

/-! ### Legality and uses -/

/-- custom-0 operations that round (RM applies) by FUNCT6. -/
def vecRm (f : Nat) : Bool := [0, 1, 2, 3, 0x0E, 0x0F, 0x13, 0x14, 0x16].contains f

/-- custom-0 operations that can overflow (S applies) by FUNCT6. -/
def vecS (f : Nat) : Bool := [0, 1, 2, 3, 0x0E, 0x0F, 0x12, 0x13, 0x14, 0x15, 0x16].contains f

/-- custom-0 operations with a second source. -/
def vecTwo (f : Nat) : Bool := decide (f ≤ 0x0D) || [0x11, 0x13, 0x14, 0x16].contains f

/-- Register-form arithmetic, whose FMT_D must name a lane type (R74). -/
def vecArith (f : Nat) : Bool := decide (f ≤ 0x07) || [0x0F, 0x10, 0x12, 0x13, 0x14, 0x15, 0x16].contains f

/-- The trap that a custom-0 operation or its felt form raises before it enters the window, if any. -/
def vecCheck (f : Nat) (felt : Bool) (e : FxEntry) (o : FxOps) : Option Nat :=
  let d := e.csrs.fmtD
  let a := e.csrs.fmtA
  firstTrap [
    (decide (0x17 < f), trIllegal),
    (felt && [0x11, 0x12, 0x17].contains f, trIllegal),
    (rmsBad o (vecRm f) (vecS f), trIllegal),
    (f == 0x12 && decide (10 < o.src2.val), trIllegal),
    (f != 0x12 && !vecTwo f && o.src2.val != 0, trIllegal),
    (vecArith f && (laneTy d).isNone, trIllegal),
    (f == 0x0E && !((a == 0x00 && d == 0x0E) || (a == 0x0E && d == 0x00)), trIllegal),
    (felt && lineBad e.rs1, trFelt),
    (felt && vecTwo f && lineBad e.rs2, trFelt)]

/-- What a custom-0 operation or its felt form reads and writes. -/
def vecUses (f : Nat) (felt : Bool) (e : FxEntry) (o : FxOps) : Uses :=
  let extra := (if f = 0x03 then [Res.vreg o.dst.val] else []) ++ (if f = 0x08 then [Res.vreg 0] else [])
  let out := if f = 0x17 then [Res.xreg o.dst.val] else [Res.vreg o.dst.val]
  if felt then
    usesOf ([(e.rs1.toNat, 256)] ++ (if vecTwo f then [(e.rs2.toNat, 256)] else [])) extra [] out
  else
    usesOf [] ([Res.vreg o.src1.val] ++ (if vecTwo f then [Res.vreg o.src2.val] else []) ++ extra) [] out

/-! ### Shared steps -/

/-- The first source: a register, or a felt line in the felt form. -/
def srcA (felt : Bool) (sh : Sheet) (e : FxEntry) (o : FxOps) : List W32 :=
  if felt then sh.line e.rs1.toNat else sh.v o.src1.val

/-- The second source. -/
def srcB (felt : Bool) (sh : Sheet) (e : FxEntry) (o : FxOps) : List W32 :=
  if felt then sh.line e.rs2.toNat else sh.v o.src2.val

/-- The rounding of lane l (R85). -/
def laneRnd (x : FxCtx) (e : FxEntry) (o : FxOps) (l : Nat) : LaneRnd :=
  e.csrs.rnd x.seed o (e.csrs.ridx + BitVec.ofNat 64 l)

/-- Write lane results to vd and raise their flags. -/
def vecPut (sh : Sheet) (o : FxOps) (rs : List (W32 × Nat)) : FxOut :=
  .ok ((sh.setV o.dst.val (rs.map (·.1))).raise (rs.foldl (fun f r => f ||| r.2) 0))

/-- A lane-wise operation of two sources. -/
def vecMap2 (felt : Bool) (x : FxCtx) (sh : Sheet) (e : FxEntry) (o : FxOps)
    (g : LaneTy → LaneRnd → W32 → W32 → W32 × Nat) : FxOut :=
  match laneTy e.csrs.fmtD with
  | none => .trap trIllegal
  | some t =>
    let b := srcB felt sh e o
    vecPut sh o ((srcA felt sh e o).zipIdx.map (fun p => g t (laneRnd x e o p.2) p.1 (nth b p.2 0)))

/-- A lane-wise operation of two sources without type, rounding or flags. -/
def vecBits (felt : Bool) (sh : Sheet) (e : FxEntry) (o : FxOps) (g : W32 → W32 → W32) : FxOut :=
  let b := srcB felt sh e o
  vecPut sh o ((srcA felt sh e o).zipIdx.map (fun p => (g p.1 (nth b p.2 0), 0)))

/-! ### The operations (R78), each with its felt form -/

/-- FX.VADD. -/
def runVadd (felt : Bool) (x : FxCtx) (sh : Sheet) (e : FxEntry) (o : FxOps) : FxOut :=
  vecMap2 felt x sh e o (laneAdd false)

/-- FX.VSUB. -/
def runVsub (felt : Bool) (x : FxCtx) (sh : Sheet) (e : FxEntry) (o : FxOps) : FxOut :=
  vecMap2 felt x sh e o (laneAdd true)

/-- FX.VMUL. -/
def runVmul (felt : Bool) (x : FxCtx) (sh : Sheet) (e : FxEntry) (o : FxOps) : FxOut :=
  vecMap2 felt x sh e o laneMul

/-- FX.VFMA: vd is the addend. -/
def runVfma (felt : Bool) (x : FxCtx) (sh : Sheet) (e : FxEntry) (o : FxOps) : FxOut :=
  match laneTy e.csrs.fmtD with
  | none => .trap trIllegal
  | some t =>
    let b := srcB felt sh e o
    let d := sh.v o.dst.val
    vecPut sh o ((srcA felt sh e o).zipIdx.map (fun p =>
      laneFma t (laneRnd x e o p.2) p.1 (nth b p.2 0) (nth d p.2 0)))

/-- FX.VMIN. -/
def runVmin (felt : Bool) (x : FxCtx) (sh : Sheet) (e : FxEntry) (o : FxOps) : FxOut :=
  vecMap2 felt x sh e o (fun t _ a b => (laneMinMax false t a b, 0))

/-- FX.VMAX. -/
def runVmax (felt : Bool) (x : FxCtx) (sh : Sheet) (e : FxEntry) (o : FxOps) : FxOut :=
  vecMap2 felt x sh e o (fun t _ a b => (laneMinMax true t a b, 0))

/-- FX.VCMPLT. -/
def runVcmplt (felt : Bool) (x : FxCtx) (sh : Sheet) (e : FxEntry) (o : FxOps) : FxOut :=
  vecMap2 felt x sh e o (fun t _ a b => (laneCmp false t a b, 0))

/-- FX.VCMPEQ. -/
def runVcmpeq (felt : Bool) (x : FxCtx) (sh : Sheet) (e : FxEntry) (o : FxOps) : FxOut :=
  vecMap2 felt x sh e o (fun t _ a b => (laneCmp true t a b, 0))

/-- FX.VSEL: v0's lane selects. -/
def runVsel (felt : Bool) (sh : Sheet) (e : FxEntry) (o : FxOps) : FxOut :=
  let b := srcB felt sh e o
  let s := sh.v 0
  vecPut sh o ((srcA felt sh e o).zipIdx.map (fun p => (if nth s p.2 0 = 0 then nth b p.2 0 else p.1, 0)))

/-- FX.VAND. -/
def runVand (felt : Bool) (sh : Sheet) (e : FxEntry) (o : FxOps) : FxOut := vecBits felt sh e o (· &&& ·)

/-- FX.VOR. -/
def runVor (felt : Bool) (sh : Sheet) (e : FxEntry) (o : FxOps) : FxOut := vecBits felt sh e o (· ||| ·)

/-- FX.VXOR. -/
def runVxor (felt : Bool) (sh : Sheet) (e : FxEntry) (o : FxOps) : FxOut := vecBits felt sh e o (· ^^^ ·)

/-- FX.VSHL. -/
def runVshl (felt : Bool) (sh : Sheet) (e : FxEntry) (o : FxOps) : FxOut :=
  vecBits felt sh e o (fun a b => a <<< (b.toNat % 32))

/-- FX.VSHRA. -/
def runVshra (felt : Bool) (sh : Sheet) (e : FxEntry) (o : FxOps) : FxOut :=
  vecBits felt sh e o (fun a b => a.sshiftRight (b.toNat % 32))

/-- FX.VCVT: FMT_A to FMT_D. -/
def runVcvt (felt : Bool) (x : FxCtx) (sh : Sheet) (e : FxEntry) (o : FxOps) : FxOut :=
  vecPut sh o ((srcA felt sh e o).zipIdx.map (fun p => laneCvt (e.csrs.fmtD == 0x0E) (laneRnd x e o p.2) p.1))

/-- Lane 0 holds a value and the others 0. -/
def lane0 (w : W32) : List W32 := w :: List.replicate 63 0

/-- FX.VRSUM: INDEX is FX_RIDX (R85). -/
def runVrsum (felt : Bool) (x : FxCtx) (sh : Sheet) (e : FxEntry) (o : FxOps) : FxOut :=
  match laneTy e.csrs.fmtD with
  | none => .trap trIllegal
  | some t =>
    let (w, f) := lanesSum t (laneRnd x e o 0) (srcA felt sh e o)
    .ok ((sh.setV o.dst.val (lane0 w)).raise f)

/-- FX.VRMAX. -/
def runVrmax (felt : Bool) (sh : Sheet) (e : FxEntry) (o : FxOps) : FxOut :=
  match laneTy e.csrs.fmtD with
  | none => .trap trIllegal
  | some t => .ok (sh.setV o.dst.val (lane0 (lanesMax t (srcA felt sh e o))))

/-- FX.VPERM. -/
def runVperm (sh : Sheet) (o : FxOps) : FxOut :=
  .ok (sh.setV o.dst.val (lanesPerm (sh.v o.src1.val) (sh.v o.src2.val)))

/-- FX.VFN: SRC2 is the function. -/
def runVfn (x : FxCtx) (sh : Sheet) (o : FxOps) : FxOut :=
  vecPut sh o ((sh.v o.src1.val).map (laneFn x.aic o.src2.val o.s))

/-- FX.VCMUL. -/
def runVcmul (felt : Bool) (x : FxCtx) (sh : Sheet) (e : FxEntry) (o : FxOps) : FxOut :=
  vecMap2 felt x sh e o (fun _ r a b => laneCmul false r a b)

/-- FX.VCMULC. -/
def runVcmulc (felt : Bool) (x : FxCtx) (sh : Sheet) (e : FxEntry) (o : FxOps) : FxOut :=
  vecMap2 felt x sh e o (fun _ r a b => laneCmul true r a b)

/-- FX.VCMAG. -/
def runVcmag (felt : Bool) (x : FxCtx) (sh : Sheet) (e : FxEntry) (o : FxOps) : FxOut :=
  vecPut sh o ((srcA felt sh e o).zipIdx.map (fun p => laneCmag (laneRnd x e o p.2) p.1))

/-- FX.VSCALE. -/
def runVscale (felt : Bool) (x : FxCtx) (sh : Sheet) (e : FxEntry) (o : FxOps) : FxOut :=
  vecMap2 felt x sh e o laneScale

/-- FX.VMVXS: lane 0 into scalar rd. -/
def runVmvxs (sh : Sheet) (o : FxOps) : FxOut := .ok (sh.setX o.dst.val (nth (sh.v o.src1.val) 0 0))

/-- A felt form 0x20 + f performs custom-0 operation f on felt lines (R77). -/
def runFelt (f : Nat) (x : FxCtx) (sh : Sheet) (e : FxEntry) (o : FxOps) : FxOut :=
  match f with
  | 0x00 => runVadd true x sh e o
  | 0x01 => runVsub true x sh e o
  | 0x02 => runVmul true x sh e o
  | 0x03 => runVfma true x sh e o
  | 0x04 => runVmin true x sh e o
  | 0x05 => runVmax true x sh e o
  | 0x06 => runVcmplt true x sh e o
  | 0x07 => runVcmpeq true x sh e o
  | 0x08 => runVsel true sh e o
  | 0x09 => runVand true sh e o
  | 0x0A => runVor true sh e o
  | 0x0B => runVxor true sh e o
  | 0x0C => runVshl true sh e o
  | 0x0D => runVshra true sh e o
  | 0x0E => runVcvt true x sh e o
  | 0x0F => runVrsum true x sh e o
  | 0x10 => runVrmax true sh e o
  | 0x13 => runVcmul true x sh e o
  | 0x14 => runVcmulc true x sh e o
  | 0x15 => runVcmag true x sh e o
  | 0x16 => runVscale true x sh e o
  | _ => .trap trIllegal

end Sys2Proof.Machine
end

