-- ==== Sys2Proof/Machine/FxMem.lean ====
section
/-! DEFINITION. The DSP and memory instructions of custom-1 (R78, R86, R87): loads and stores between felt and
registers, conversions, gather and scatter, and the DSP instructions. -/

namespace Sys2Proof.Machine

/-- A felt range is outside felt. -/
def rangeBad (a : W32) (n : Nat) : Bool := !feltOk a.toNat n

/-! ### Whole lines -/

/-- FX.VLD before the window. -/
def vldCheck (e : FxEntry) (o : FxOps) : Option Nat :=
  firstTrap [(rmsBad o false false || o.src2.val != 0, trIllegal), (lineBad e.rs1, trFelt)]

/-- FX.VLD: one line into vd; what the felt read finds is the command's operand. -/
def runVld (sh : Sheet) (e : FxEntry) (o : FxOps) (found : FeltRead) : FxOut :=
  match found with
  | .uncorrectable a => .uncorrectable a
  | _ => .ok (sh.setV o.dst.val (sh.line e.rs1.toNat))

/-- FX.VST before the window: the source is named by SRC2. -/
def vstCheck (e : FxEntry) (o : FxOps) : Option Nat :=
  firstTrap [(rmsBad o false false || o.dst.val != 0, trIllegal), (lineBad e.rs1, trFelt)]

/-- FX.VST: one register into a line. -/
def runVst (sh : Sheet) (e : FxEntry) (o : FxOps) : FxOut :=
  .ok (sh.result e.rs1.toNat (lineBytes (sh.v o.src2.val)))

/-- FX.VLD2 before the window: vd must be even. -/
def vld2Check (e : FxEntry) (o : FxOps) : Option Nat :=
  firstTrap [(rmsBad o false false || o.dst.val % 2 != 0, trIllegal), (lineBad e.rs1 || lineBad e.rs2, trFelt)]

/-- FX.VLD2: two lines into an even register pair. -/
def runVld2 (sh : Sheet) (e : FxEntry) (o : FxOps) : FxOut :=
  .ok ((sh.setV o.dst.val (sh.line e.rs1.toNat)).setV (o.dst.val + 1) (sh.line e.rs2.toNat))

/-! ### Converting loads and stores (R49, R56, R78) -/

/-- Lane types and memory formats that convert into one another: complex with complex, real with real. -/
def convOk (t : Option LaneTy) (fmt : Nat) : Bool :=
  match t with
  | none => false
  | some .ci16 => (fmtComplex fmt).isSome
  | some _ => (fmtFp fmt).isSome || (fmtInt fmt).isSome || fmt == 0x0A

/-- Bytes of 64 elements of a format. -/
def bytes64 (fmt : Nat) : Nat := 8 * fmtBits fmt

/-- FX.VLDX before the window. -/
def vldxCheck (e : FxEntry) (o : FxOps) : Option Nat :=
  let a := e.csrs.fmtA
  firstTrap [(rmsBad o true true || !convOk (laneTy e.csrs.fmtD) a, trIllegal),
    (rangeBad e.rs1 (bytes64 a) || (fmtMx a && rangeBad e.rs2 2), trFelt)]

/-- One memory element into a lane. -/
def elemToLane (t : LaneTy) (r : LaneRnd) (fmt w scale : Nat) : W32 × Nat :=
  match t with
  | .ci16 =>
    if fmt = 0x11 then ciOut r (signed 32 w) (signed 32 (w / 2 ^ 32)) else (BitVec.ofNat 32 w, 0)
  | .fp32 =>
    (match fmtInt fmt with
     | some b => f32out r.i true (Fval.ofInt (signed b w))
     | none =>
       let v := fpElem fmt w scale
       f32out r.i (noNan [v]) v)
  | .int32 =>
    (match fmtInt fmt with
     | some b => (BitVec.ofInt 32 (signed b w), 0)
     | none =>
       let (x, f) := fpToInt 32 r.i (fpElem fmt w scale)
       (BitVec.ofNat 32 x, f))

/-- FX.VLDX: 64 elements of FMT_A into lanes of FMT_D; MX scales, one for each 32 elements, at rs2. -/
def runVldx (x : FxCtx) (sh : Sheet) (e : FxEntry) (o : FxOps) : FxOut :=
  match laneTy e.csrs.fmtD with
  | none => .trap trIllegal
  | some t =>
    let a := e.csrs.fmtA
    vecPut sh o ((List.range 64).map (fun l =>
      elemToLane t (laneRnd x e o l) a (rdElem sh.rd e.rs1.toNat (fmtBits a) l) (sh.rd (e.rs2.toNat + l / 32)).toNat))

/-- FX.VSTX before the window: the source register is named by DST. -/
def vstxCheck (e : FxEntry) (o : FxOps) : Option Nat :=
  let d := e.csrs.fmtD
  firstTrap [(rmsBad o true true || !convOk (laneTy e.csrs.fmtA) d, trIllegal),
    (rangeBad e.rs1 (bytes64 d) || (fmtMx d && rangeBad e.rs2 2), trFelt)]

/-- One lane as an element word of a format that is not MX. -/
def laneToElem (t : LaneTy) (r : LaneRnd) (fmt : Nat) (w : W32) : Nat × Nat :=
  match t with
  | .ci16 =>
    let (i, q) := ciParts w
    if fmt = 0x11 then (unsign 32 i + unsign 32 q * 2 ^ 32, 0) else (w.toNat, 0)
  | .fp32 => convertOut fmt r.i .fp32 w.toNat
  | .int32 => convertOut fmt r.i .int32 w.toNat

/-- The exact value of a real lane. -/
def laneValue (t : LaneTy) (w : W32) : Fval :=
  match t with
  | .fp32 => f32 w
  | _ => Fval.ofInt (i32 w)

/-- FX.VSTX: 64 lanes of FMT_A stored as FMT_D; MX blocks of 32 lanes with their scale bytes at rs2. -/
def runVstx (x : FxCtx) (sh : Sheet) (e : FxEntry) (o : FxOps) : FxOut :=
  match laneTy e.csrs.fmtA with
  | none => .trap trIllegal
  | some t =>
    let d := e.csrs.fmtD
    let v := sh.v o.dst.val
    if fmtMx d then
      let blk := fun b => mxBlock d (fun i => (laneRnd x e o (32 * b + i)).i) (((v.drop (32 * b)).take 32).map (laneValue t))
      let (s0, w0, f0) := blk 0
      let (s1, w1, f1) := blk 1
      let sh := sh.result e.rs1.toNat (packElems (fmtBits d) (w0 ++ w1))
      .ok ((sh.result e.rs2.toNat [BitVec.ofNat 8 s0, BitVec.ofNat 8 s1]).raise (f0 ||| f1))
    else
      let rs := v.zipIdx.map (fun p => laneToElem t (laneRnd x e o p.2) d p.1)
      .ok ((sh.result e.rs1.toNat (packElems (fmtBits d) (rs.map (·.1)))).raise (rs.foldl (fun f r => f ||| r.2) 0))

/-! ### Gather and scatter -/

/-- FX.VGATH and FX.VSCAT before the window. -/
def vgathCheck (o : FxOps) : Option Nat := firstTrap [(rmsBad o false false, trIllegal)]

/-- The per-lane addresses of a gather or scatter. -/
def gatherAddrs (sh : Sheet) (e : FxEntry) (o : FxOps) : List W32 := (sh.v o.src2.val).map (fun w => e.rs1 + w)

/-- FX.VGATH: 32-bit words at rs1 + vs2[l]. -/
def runVgath (sh : Sheet) (e : FxEntry) (o : FxOps) : FxOut :=
  let as := gatherAddrs sh e o
  if as.any (fun a => rangeBad a 4) then .trap trFelt
  else .ok (sh.setV o.dst.val (as.map (fun a => BitVec.ofNat 32 (rdNat sh.rd a.toNat 4))))

/-- FX.VSCAT: lanes of the register that DST names to rs1 + vs2[l], in lane order, so that the highest lane
wins. -/
def runVscat (sh : Sheet) (e : FxEntry) (o : FxOps) : FxOut :=
  let as := gatherAddrs sh e o
  if as.any (fun a => rangeBad a 4) then .trap trFelt
  else .ok ((as.zip (sh.v o.dst.val)).foldl (fun sh p => sh.result p.1.toNat (bytesLE 4 p.2.toNat)) sh)

/-! ### DSP -/

/-- FX.TAPLD before the window: DST[11:10] is the bank, the rest of DST unused. -/
def tapldCheck (e : FxEntry) (o : FxOps) : Option Nat :=
  firstTrap [(rmsBad o false false || o.dst.val % 8 != 0 || o.src2.val != 0, trIllegal), (rangeBad e.rs1 64, trFelt)]

/-- FX.TAPLD: 16 taps of 32 bits into a tap bank. -/
def runTapld (sh : Sheet) (e : FxEntry) (o : FxOps) : FxOut :=
  let h := (List.range 16).map (fun k => BitVec.ofNat 32 (rdNat sh.rd (e.rs1.toNat + 4 * k) 4))
  .ok { sh with taps := setNth sh.taps (o.dst.val / 8) h }

/-- FX.TAPMV before the window (R86). -/
def tapmvCheck (e : FxEntry) (o : FxOps) : Option Nat :=
  let t := tapCfg e.csrs.tapcfg
  firstTrap [(rmsBad o true true || !tapOk t || o.dst == o.src1 || o.dst == o.src2, trIllegal),
    (rangeBad e.csrs.tapptr (4 * tapMove t), trFelt)]

/-- FX.TAPMV: the filter, then the window's move; FX_TAPPTR advances when the instruction enters the
window. -/
def runTapmv (x : FxCtx) (sh : Sheet) (e : FxEntry) (o : FxOps) : FxOut :=
  let t := tapCfg e.csrs.tapcfg
  let a := tapMove t
  let w := sh.v o.src1.val ++ sh.v o.src2.val
  let h := nth sh.taps t.bank []
  let rs := (List.range 64).map (fun l => tapLane t (laneRnd x e o l) h w l)
  let fill := (List.range a).map (fun k => BitVec.ofNat 32 (rdNat sh.rd (e.csrs.tapptr.toNat + 4 * k) 4))
  let w := w.drop a ++ fill
  let sh := (sh.setV o.src1.val (w.take 64)).setV o.src2.val (w.drop 64)
  .ok ((sh.setV o.dst.val (rs.map (·.1))).raise (rs.foldl (fun f r => f ||| r.2) 0))

/-- The output pointer of FX.DEMAP. -/
def demapPtr (k : Csrs) : Nat := k.dmcfg.toNat % 2 ^ 19

/-- The bits per symbol of FX.DEMAP. -/
def demapQm (k : Csrs) : Nat := (demapBits (bitsOf k.dmcfg.toNat 31 28)).getD 0

/-- FX.DEMAP before the window. -/
def demapCheck (e : FxEntry) (o : FxOps) : Option Nat :=
  firstTrap [(rmsBad o true true || o.dst.val != 0 || demapQm e.csrs == 0, trIllegal),
    (!feltOk (demapPtr e.csrs) (64 * demapQm e.csrs), trFelt)]

/-- FX.DEMAP: 64 × Qm LLRs to felt at the pointer, which advances when the instruction enters the window. -/
def runDemap (x : FxCtx) (sh : Sheet) (e : FxEntry) (o : FxOps) : FxOut :=
  let b := sh.v o.src2.val
  let rs := (sh.v o.src1.val).zipIdx.flatMap (fun p =>
    demapLane (bitsOf e.csrs.dmcfg.toNat 31 28) (demapQm e.csrs) p.2 (laneRnd x e o p.2).i p.1 (nth b p.2 0))
  .ok ((sh.result (demapPtr e.csrs) (rs.map (fun r => BitVec.ofNat 8 r.1))).raise (rs.foldl (fun f r => f ||| r.2) 0))

/-- FX.CBXUPK and FX.CBXPK before the window: rs1 8-byte aligned, rs2 from 0 to 31. -/
def cbxCheck (e : FxEntry) (o : FxOps) : Option Nat :=
  firstTrap [(rmsBad o true true || decide (31 < e.rs2.toNat), trIllegal),
    (e.rs1.toNat % 8 != 0 || rangeBad e.rs1 200, trFelt)]

/-- FX.CBXUPK. -/
def runCbxupk (x : FxCtx) (sh : Sheet) (e : FxEntry) (o : FxOps) : FxOut :=
  let (v, f) := cbxUnpack (laneRnd x e o) sh.rd e.rs1.toNat e.rs2.toNat
  .ok ((sh.setV o.dst.val v).raise f)

/-- FX.CBXPK: the source register is named by DST. -/
def runCbxpk (x : FxCtx) (sh : Sheet) (e : FxEntry) (o : FxOps) : FxOut :=
  let (bs, f) := cbxPackLanes o.s (laneRnd x e o) (sh.v o.dst.val) e.rs2.toNat
  .ok ((sh.result e.rs1.toNat bs).raise f)

/-- CSRs after an instruction has entered the window: FX.TAPMV moves FX_TAPPTR and FX.DEMAP its pointer
(R86, R87). -/
def csrsAfter (i : Instr) (k : Csrs) : Csrs :=
  match i with
  | .fxTapmv _ _ => { k with tapptr := (k.tapptr + BitVec.ofNat 32 (4 * tapMove (tapCfg k.tapcfg))) &&& 0x7FFFC#32 }
  | .fxDemap _ _ =>
    { k with dmcfg := (k.dmcfg &&& 0xF0000000#32) ||| BitVec.ofNat 32 ((demapPtr k + 64 * demapQm k) % 2 ^ 19) }
  | _ => k

end Sys2Proof.Machine
end

