-- ==== Sys2Proof/Machine/FxMat.lean ====
section
/-! DEFINITION. The matrix instructions of custom-2 on one sheet (R81 to R85, R98 to R103, R109): FX.MMA in packed and
sheet mode, the issue of joined mode, and the accumulator instructions. -/

namespace Sys2Proof.Machine

/-- What an FX.MMA names: its DST bits and CSRs. -/
def mmaOpOf (k : Csrs) (o : FxOps) : MmaOp :=
  let m := k.mshape.toNat
  ⟨bitsOf m 31 30, bitsOf m 27 16, bitsOf m 15 0, o.dst.val.testBit 2, o.dst.val.testBit 1, o.s, k.fmtA, k.fmtB⟩

/-- The bank that DST[11:10] names. -/
def dstBank (o : FxOps) : Nat := o.dst.val / 8

/-- STRIDE_A. -/
def Csrs.strideA (k : Csrs) : Nat := bitsOf k.mstride.toNat 31 16
/-- STRIDE_B. -/
def Csrs.strideB (k : Csrs) : Nat := bitsOf k.mstride.toNat 15 0
/-- The metadata address. -/
def Csrs.meta_ (k : Csrs) : Nat := k.mmeta.toNat % 2 ^ 19

/-- Groups whose tiles a sheet holds: all of them, or one in eight in joined mode (R104). -/
def heldGroups (op : MmaOp) (first : Nat) : Nat := if op.mode = 2 then (op.steps + 7 - first) / 8 else op.steps

/-- The felt ranges an FX.MMA reads on a sheet at grid row `gr` and column `gc` (R104). -/
def mmaReads (op : MmaOp) (k : Csrs) (rs1 rs2 : W32) (gr gc : Nat) : List (Nat × Nat) :=
  if op.mode = 2 then
    let a := mmaRanges { op with sp := false, fmtB := 0 } rs1.toNat 0 k.strideA 0 0 (heldGroups op gc)
    let as := a.zipIdx.filterMap (fun x => if x.2 % 2 = 0 then some x.1 else none)
    let b := mmaRanges { op with fmtA := 0 } 0 rs2.toNat 0 k.strideB k.meta_ (heldGroups op gr)
    let n := if op.sp then 3 else 2
    let bs := b.zipIdx.filterMap (fun x => if x.2 % n = 0 then none else some x.1)
    as ++ bs
  else mmaRanges op rs1.toNat rs2.toNat k.strideA k.strideB k.meta_ op.steps

/-- FX.MMA before the window (R77, R81, R83, R99, R101). -/
def mmaCheck (e : FxEntry) (o : FxOps) (gr gc : Nat) : Option Nat :=
  let op := mmaOpOf e.csrs o
  firstTrap [(o.rm.val != 0 || o.dst.val.testBit 0 || !mmaLegal op e.csrs.strideA e.csrs.strideB, trIllegal),
    (e.rs1.toNat % 16 != 0 || e.rs2.toNat % 16 != 0, trFelt),
    ((mmaReads op e.csrs e.rs1 e.rs2 gr gc).any (fun x => !feltOk x.1 x.2), trFelt)]

/-- FX.MMA with CLR = 0 on a bank of another type is illegal (R84); this is judged when the bank is
ready. -/
def mmaBankOk (op : MmaOp) (kind : AccKind) (b : AccBank) : Bool := op.clr || b.kind == kind

/-- The bank an FX.MMA starts from: a bank of another type that CLR retypes starts from zeros where it is
enabled; its other values keep their bits (R82). -/
def runMma (sh : Sheet) (e : FxEntry) (o : FxOps) : FxOut :=
  let op := mmaOpOf e.csrs o
  match mmaKind op.fmtA op.fmtB with
  | none => .trap trIllegal
  | some kind =>
    let b := dstBank o
    let bank := sh.bank b
    if ¬ mmaBankOk op kind bank then .trap trIllegal
    else if op.mode = 2 then
      .ok { sh with joined := some ⟨b, op.clr, op.sp, o.s, e.rs1, e.rs2, e.csrs⟩, bankBusy := b :: sh.bankBusy }
    else
      let k := e.csrs
      let (vals, f) := mmaLocal op kind sh.rd e.rs1.toNat e.rs2.toNat k.strideA k.strideB k.meta_ bank.vals
      let sh := sh.setBank b ⟨kind, vals⟩
      let sh := { sh with bankBusy := b :: sh.bankBusy }
      .ok (sh.raise f)

/-- Bytes of a bank read from or written to felt in a format. -/
def bankBytes (fmt : Nat) : Nat := 32 * fmtBits fmt

/-- FX.ACCRD before the window; the bank's type decides the formats at issue (R84). -/
def accrdCheck (e : FxEntry) (o : FxOps) : Option Nat :=
  let d := e.csrs.fmtD
  firstTrap [(rmsBad o true true || o.dst.val % 8 != 0 || o.src2.val != 0 || !(accRdOk .fp32 d || accRdOk .ci32 d), trIllegal),
    (rangeBad e.rs1 (bankBytes d), trFelt)]

/-- FX.ACCRD: the bank to felt in row-major order; INDEX is FX_RIDX + r × FX_RLD + c (R85). -/
def runAccrd (x : FxCtx) (sh : Sheet) (e : FxEntry) (o : FxOps) : FxOut :=
  let d := e.csrs.fmtD
  let bank := sh.bank (dstBank o)
  if ¬ accRdOk bank.kind d then .trap trIllegal
  else
    let rs := bank.vals.zipIdx.map (fun p =>
      let ix := e.csrs.ridx + BitVec.ofNat 64 (p.2 / 16 * e.csrs.rld.toNat + p.2 % 16)
      let r := e.csrs.rnd x.seed o ix
      accOut d r.i r.q bank.kind p.1)
    let bs := packElems (fmtBits d) (rs.map (·.1))
    let ls := linesOf e.rs1.toNat bs.length
    let sh := (sh.wr e.rs1.toNat bs).clrReady ls
    let f := rs.foldl (fun (f : Nat) (r : Nat × Nat) => f ||| r.2) 0
    let sh := { sh with draining := ls ++ sh.draining }
    .ok (sh.raise f)

/-- FX.ACCLD before the window. -/
def accldCheck (e : FxEntry) (o : FxOps) : Option Nat :=
  let d := e.csrs.fmtD
  firstTrap [(rmsBad o false false || o.dst.val % 8 != 0 || o.src2.val != 0 || (accLdKind d).isNone, trIllegal),
    (rangeBad e.rs1 (bankBytes d), trFelt)]

/-- FX.ACCLD: 256 values, exactly. -/
def runAccld (sh : Sheet) (e : FxEntry) (o : FxOps) : FxOut :=
  let d := e.csrs.fmtD
  match accLdKind d with
  | none => .trap trIllegal
  | some k =>
    let b := dstBank o
    let vs := (List.range 256).map (fun i => BitVec.ofNat 64 (rdElem sh.rd e.rs1.toNat (fmtBits d) i))
    .ok { sh.setBank b ⟨k, vs⟩ with bankBusy := b :: sh.bankBusy }

/-- FX.ACCZ before the window. -/
def acczCheck (o : FxOps) : Option Nat :=
  firstTrap [(rmsBad o false false || o.dst.val % 8 != 0 || o.src1.val != 0 || o.src2.val != 0, trIllegal)]

/-- FX.ACCZ: zeros, the type kept. -/
def runAccz (sh : Sheet) (o : FxOps) : FxOut :=
  let b := dstBank o
  .ok { sh.setBank b ⟨(sh.bank b).kind, List.replicate 256 0⟩ with bankBusy := b :: sh.bankBusy }

/-- FX.ACCMV before the window: rs1 names the bank and rs2 the rows (log entry 25). -/
def accmvCheck (o : FxOps) : Option Nat := firstTrap [(rmsBad o false false, trIllegal)]

/-- The bank that FX.ACCMV moves from. -/
def accmvBank (e : FxEntry) : Nat := e.rs1.toNat % 4

/-- FX.ACCMV: four rows into vd; a CI32 bank is illegal. -/
def runAccmv (sh : Sheet) (e : FxEntry) (o : FxOps) : FxOut :=
  let bank := sh.bank (accmvBank e)
  if bank.kind = .ci32 then .trap trIllegal
  else .ok (sh.setV o.dst.val (((bank.vals.drop (64 * (e.rs2.toNat % 4))).take 64).map (fun w => w.setWidth 32)))

/-! ### A joined step (R104, R105) -/

/-- The op of a joined issue. -/
def JoinedIssue.op (j : JoinedIssue) : MmaOp :=
  let m := j.csrs.mshape.toNat
  ⟨2, bitsOf m 27 16, bitsOf m 15 0, j.clr, j.sp, j.s, j.csrs.fmtA, j.csrs.fmtB⟩

/-- Two joined issues agree on STEPS, the formats, SP and CLR (RM is 0 on both). -/
def JoinedIssue.agrees (a b : JoinedIssue) : Bool :=
  a.op.steps == b.op.steps && a.op.fmtA == b.op.fmtA && a.op.fmtB == b.op.fmtB && a.sp == b.sp && a.clr == b.clr

/-- The group g of the share at grid row r and column c: A from the sheet at (r, g mod 8) and B from the one
at (g mod 8, c), at local index g div 8, each held group starting a scale block (R104). -/
def joinedGroupAt (a b : JoinedIssue) (g : Nat) : GroupAt :=
  let j := g / 8
  let oa := a.a.toNat + 16 * j * a.csrs.strideA
  let ob := b.b.toNat + 16 * j * b.csrs.strideB
  ⟨oa, ob, oa + tileA a.op, ob + tileB b.op, b.csrs.meta_ + metaBytes b.op * j⟩

/-- One step g of the share at grid (r, c), over the 64 sheets in logical order. -/
def joinedStep (sheets : List (Sheet × JoinedIssue)) (kind : AccKind) (r c g : Nat) (bank : List W64 × Nat) : List W64 × Nat :=
  match sheets[8 * r + c]?, sheets[8 * r + g % 8]?, sheets[8 * (g % 8) + c]? with
  | some (_, me), some (sa, ja), some (sb, jb) =>
    mmaGroup me.op kind (fun _ _ => sa.rd) (fun _ _ => sb.rd) (fun _ _ => sb.rd) (fun _ _ => joinedGroupAt ja jb g) bank
  | _, _, _ => bank

/-- The lines of the tiles that step g reads are ready on their holders. -/
def joinedReady (sheets : List (Sheet × JoinedIssue)) (g : Nat) : Bool :=
  (List.range 8).all (fun i =>
    match sheets[8 * i + g % 8]?, sheets[8 * (g % 8) + i]? with
    | some (sa, ja), some (sb, jb) =>
      let p := joinedGroupAt ja ja g
      let q := joinedGroupAt jb jb g
      (linesOf p.a (tileA ja.op + scaleBytes ja.op ja.op.fmtA)).all sa.ready &&
      (linesOf q.b (tileB jb.op + scaleBytes jb.op jb.op.fmtB)).all sb.ready &&
      (!jb.sp || (linesOf q.m (metaBytes jb.op)).all sb.ready)
    | _, _ => false)

end Sys2Proof.Machine
end

