-- ==== Sys2Proof/Machine/Rv32.lean ====
section
/-! DEFINITION. The control core in user mode (R69, R70, R75, R76): RV32IMC over a sheet's scalar registers and
felt, with the FX CSRs. -/

namespace Sys2Proof.Machine

/-! ### Building 32-bit words, for the compressed forms -/

/-- An I-type word. -/
def encI (op f3 rd rs1 : Nat) (imm : Int) : Nat :=
  op + rd * 2 ^ 7 + f3 * 2 ^ 12 + rs1 * 2 ^ 15 + unsign 12 imm * 2 ^ 20

/-- An R-type word of the OP opcode. -/
def encR (f7 f3 rd rs1 rs2 : Nat) : Nat :=
  0x33 + rd * 2 ^ 7 + f3 * 2 ^ 12 + rs1 * 2 ^ 15 + rs2 * 2 ^ 20 + f7 * 2 ^ 25

/-- A store word. -/
def encS (f3 rs1 rs2 imm : Nat) : Nat :=
  0x23 + (imm % 32) * 2 ^ 7 + f3 * 2 ^ 12 + rs1 * 2 ^ 15 + rs2 * 2 ^ 20 + (imm / 32) * 2 ^ 25

/-- A branch word against x0. -/
def encB (f3 rs1 : Nat) (imm : Int) : Nat :=
  let i := unsign 13 imm
  0x63 + bitsOf i 11 11 * 2 ^ 7 + bitsOf i 4 1 * 2 ^ 8 + f3 * 2 ^ 12 + rs1 * 2 ^ 15 + bitsOf i 10 5 * 2 ^ 25 +
    bitsOf i 12 12 * 2 ^ 31

/-- A JAL word. -/
def encJ (rd : Nat) (imm : Int) : Nat :=
  let i := unsign 21 imm
  0x6F + rd * 2 ^ 7 + bitsOf i 19 12 * 2 ^ 12 + bitsOf i 11 11 * 2 ^ 20 + bitsOf i 10 1 * 2 ^ 21 + bitsOf i 20 20 * 2 ^ 31

/-- The offset of C.J and C.JAL. -/
def cjImm (h : Nat) : Int :=
  signed 12 (bitsOf h 5 3 * 2 + bitsOf h 11 11 * 16 + bitsOf h 2 2 * 32 + bitsOf h 7 7 * 64 + bitsOf h 6 6 * 128 +
    bitsOf h 10 9 * 256 + bitsOf h 8 8 * 1024 + bitsOf h 12 12 * 2048)

/-- The offset of C.BEQZ and C.BNEZ. -/
def cbImm (h : Nat) : Int :=
  signed 9 (bitsOf h 4 3 * 2 + bitsOf h 11 10 * 8 + bitsOf h 2 2 * 32 + bitsOf h 6 5 * 64 + bitsOf h 12 12 * 256)

/-- The 6-bit immediate of CI forms. -/
def ciImm (h : Nat) : Int := signed 6 (bitsOf h 6 2 + bitsOf h 12 12 * 32)

/-- A compressed instruction of RV32C as its 32-bit equivalent; none for a reserved form. -/
def expandC (h : Nat) : Option Nat :=
  let rdp := 8 + bitsOf h 4 2
  let rsp := 8 + bitsOf h 9 7
  let rd := bitsOf h 11 7
  let rs2 := bitsOf h 6 2
  match h % 4, bitsOf h 15 13 with
  | 0, 0 =>
    let i := bitsOf h 6 6 * 4 + bitsOf h 5 5 * 8 + bitsOf h 12 11 * 16 + bitsOf h 10 7 * 64
    if i = 0 then none else some (encI 0x13 0 rdp 2 i)
  | 0, 2 => some (encI 0x03 2 rdp rsp (bitsOf h 6 6 * 4 + bitsOf h 12 10 * 8 + bitsOf h 5 5 * 64 : Nat))
  | 0, 6 => some (encS 2 rsp rdp (bitsOf h 6 6 * 4 + bitsOf h 12 10 * 8 + bitsOf h 5 5 * 64))
  | 1, 0 => some (encI 0x13 0 rd rd (ciImm h))
  | 1, 1 => some (encJ 1 (cjImm h))
  | 1, 2 => some (encI 0x13 0 rd 0 (ciImm h))
  | 1, 3 =>
    if rd = 2 then
      let i := signed 10 (bitsOf h 6 6 * 16 + bitsOf h 2 2 * 32 + bitsOf h 5 5 * 64 + bitsOf h 4 3 * 128 + bitsOf h 12 12 * 512)
      if i = 0 then none else some (encI 0x13 0 2 2 i)
    else if ciImm h = 0 then none
    else some (0x37 + rd * 2 ^ 7 + unsign 20 (ciImm h) * 2 ^ 12)
  | 1, 4 =>
    (match bitsOf h 11 10 with
     | 0 => if bitsOf h 12 12 = 1 then none else some (encI 0x13 5 rsp rsp rs2)
     | 1 => if bitsOf h 12 12 = 1 then none else some (encI 0x13 5 rsp rsp (rs2 + 1024 : Nat))
     | 2 => some (encI 0x13 7 rsp rsp (ciImm h))
     | _ =>
       if bitsOf h 12 12 = 1 then none
       else match bitsOf h 6 5 with
         | 0 => some (encR 32 0 rsp rsp rdp)
         | 1 => some (encR 0 4 rsp rsp rdp)
         | 2 => some (encR 0 6 rsp rsp rdp)
         | _ => some (encR 0 7 rsp rsp rdp))
  | 1, 5 => some (encJ 0 (cjImm h))
  | 1, 6 => some (encB 0 rsp (cbImm h))
  | 1, 7 => some (encB 1 rsp (cbImm h))
  | 2, 0 => if bitsOf h 12 12 = 1 then none else some (encI 0x13 1 rd rd rs2)
  | 2, 2 => if rd = 0 then none else some (encI 0x03 2 rd 2 (bitsOf h 6 4 * 4 + bitsOf h 12 12 * 32 + bitsOf h 3 2 * 64 : Nat))
  | 2, 4 =>
    if bitsOf h 12 12 = 0 then
      if rs2 = 0 then (if rd = 0 then none else some (encI 0x67 0 0 rd 0)) else some (encR 0 0 rd 0 rs2)
    else if rs2 = 0 then (if rd = 0 then some 0x00100073 else some (encI 0x67 0 1 rd 0))
    else some (encR 0 0 rd rd rs2)
  | 2, 6 => some (encS 2 2 rs2 (bitsOf h 12 9 * 4 + bitsOf h 8 7 * 64))
  | _, _ => none

/-- The 32-bit form of an instruction word and its length in bytes; none for a reserved compressed
form. -/
def rvWord (w : W32) : Option (Nat × Nat) :=
  if w.toNat % 4 = 3 then some (w.toNat, 4) else (expandC (w.toNat % 2 ^ 16)).map (fun x => (x, 2))

/-! ### Fields -/

/-- rd. -/
def rvRd (w : Nat) : Nat := bitsOf w 11 7
/-- rs1. -/
def rvRs1 (w : Nat) : Nat := bitsOf w 19 15
/-- rs2. -/
def rvRs2 (w : Nat) : Nat := bitsOf w 24 20
/-- I immediate. -/
def rvImmI (w : Nat) : W32 := BitVec.ofInt 32 (signed 12 (w / 2 ^ 20))
/-- S immediate. -/
def rvImmS (w : Nat) : W32 := BitVec.ofInt 32 (signed 12 (bitsOf w 11 7 + bitsOf w 31 25 * 32))
/-- B immediate. -/
def rvImmB (w : Nat) : W32 :=
  BitVec.ofInt 32 (signed 13 (bitsOf w 11 8 * 2 + bitsOf w 30 25 * 32 + bitsOf w 7 7 * 2048 + bitsOf w 31 31 * 4096))
/-- J immediate. -/
def rvImmJ (w : Nat) : W32 :=
  BitVec.ofInt 32 (signed 21 (bitsOf w 30 21 * 2 + bitsOf w 20 20 * 2048 + bitsOf w 19 12 * 4096 + bitsOf w 31 31 * 2 ^ 20))

/-- The felt access of a load or store: its address and size in bytes, and whether it stores. -/
def rvAccess (sh : Sheet) (w : Nat) : Option (W32 × Nat × Bool) :=
  let f3 := bitsOf w 14 12
  match w % 128 with
  | 0x03 => if f3 = 3 ∨ 5 < f3 then none else some (sh.x (rvRs1 w) + rvImmI w, 2 ^ (f3 % 4), false)
  | 0x23 => if 2 < f3 then none else some (sh.x (rvRs1 w) + rvImmS w, 2 ^ f3, true)
  | _ => none

/-- OP and OP-IMM results. -/
def rvAlu (f3 : Nat) (alt : Bool) (a b : W32) : W32 :=
  match f3 with
  | 0 => if alt then a - b else a + b
  | 1 => a <<< (b.toNat % 32)
  | 2 => if a.slt b then 1 else 0
  | 3 => if a.ult b then 1 else 0
  | 4 => a ^^^ b
  | 5 => if alt then a.sshiftRight (b.toNat % 32) else a >>> (b.toNat % 32)
  | 6 => a ||| b
  | _ => a &&& b

/-- The M extension. -/
def rvMul (f3 : Nat) (a b : W32) : W32 :=
  match f3 with
  | 0 => a * b
  | 1 => BitVec.ofInt 32 ((a.toInt * b.toInt) / 2 ^ 32)
  | 2 => BitVec.ofInt 32 ((a.toInt * (b.toNat : Int)) / 2 ^ 32)
  | 3 => BitVec.ofNat 32 (a.toNat * b.toNat / 2 ^ 32)
  | 4 => if b = 0 then 0xFFFFFFFF#32 else BitVec.ofInt 32 (a.toInt.tdiv b.toInt)
  | 5 => if b = 0 then 0xFFFFFFFF#32 else BitVec.ofNat 32 (a.toNat / b.toNat)
  | 6 => if b = 0 then a else BitVec.ofInt 32 (a.toInt.tmod b.toInt)
  | _ => if b = 0 then a else BitVec.ofNat 32 (a.toNat % b.toNat)

/-- Branch conditions; none for a reserved one. -/
def rvBranch (f3 : Nat) (a b : W32) : Option Bool :=
  match f3 with
  | 0 => some (a == b)
  | 1 => some (a != b)
  | 4 => some (a.slt b)
  | 5 => some (!a.slt b)
  | 6 => some (a.ult b)
  | 7 => some (!a.ult b)
  | _ => none

/-- A CSR read in user mode: the FX CSRs, the read-only ones from the task and the time (R75, R76). -/
def rvCsrRead (x : FxCtx) (sh : Sheet) (csr : Nat) : Option W32 :=
  match csr with
  | 0xCC0 => some (BitVec.ofNat 32 (((sh.task.map (·.logical)).getD 0) % 64))
  | 0xCC1 => some (BitVec.ofNat 32 ((sh.task.map (·.index)).getD 0))
  | 0xCC2 => some (BitVec.ofNat 32 (frameOf x.tick * 2 ^ 21 + tickInFrame x.tick))
  | 0xCC3 => some (BitVec.ofNat 32 x.taiNs)
  | _ => sh.csrs.read csr

/-- A CSR instruction: read into rd, then write unless it is a set or clear with no source (the
read-only CSRs refuse a write). -/
def rvCsr (x : FxCtx) (sh : Sheet) (w : Nat) : FxOut :=
  let csr := w / 2 ^ 20
  let f3 := bitsOf w 14 12
  let src : W32 := if 4 ≤ f3 then BitVec.ofNat 32 (rvRs1 w) else sh.x (rvRs1 w)
  match rvCsrRead x sh csr with
  | none => .trap trIllegal
  | some old =>
    let new : Option W32 := match f3 % 4 with
      | 1 => some src
      | 2 => if rvRs1 w = 0 then none else some (old ||| src)
      | _ => if rvRs1 w = 0 then none else some (old &&& ~~~ src)
    match new with
    | none => .ok ((sh.setX (rvRd w) old))
    | some v =>
      match sh.csrs.write csr v with
      | none => .trap trIllegal
      | some k => .ok ({ sh with csrs := k }.setX (rvRd w) old)

/-- One RV32IM instruction, its 32-bit word and length: the sheet after it, or a trap (R70, R94). The
caller has judged the ordering of felt accesses. -/
def rvExec (x : FxCtx) (sh : Sheet) (w len : Nat) : FxOut :=
  let next : W32 := sh.pc + BitVec.ofNat 32 len
  let rd := rvRd w
  let a := sh.x (rvRs1 w)
  let b := sh.x (rvRs2 w)
  let f3 := bitsOf w 14 12
  let f7 := bitsOf w 31 25
  let fin := fun (sh : Sheet) => FxOut.ok { sh with pc := next }
  match w % 128 with
  | 0x37 => fin (sh.setX rd (BitVec.ofNat 32 (w / 2 ^ 12 * 2 ^ 12)))
  | 0x17 => fin (sh.setX rd (sh.pc + BitVec.ofNat 32 (w / 2 ^ 12 * 2 ^ 12)))
  | 0x6F => .ok { sh.setX rd next with pc := sh.pc + rvImmJ w }
  | 0x67 => if f3 = 0 then .ok { sh.setX rd next with pc := (a + rvImmI w) &&& 0xFFFFFFFE#32 } else .trap trIllegal
  | 0x63 =>
    (match rvBranch f3 a b with
     | none => .trap trIllegal
     | some t => .ok { sh with pc := if t then sh.pc + rvImmB w else next })
  | 0x03 =>
    (match rvAccess sh w with
     | none => .trap trIllegal
     | some (ad, n, _) =>
       if ¬ feltOk ad.toNat n then .trap trFelt
       else if ad.toNat % n ≠ 0 then .trap trScalar
       else
         let v := rdNat sh.rd ad.toNat n
         fin (sh.setX rd (if f3 < 4 then BitVec.ofInt 32 (signed (8 * n) v) else BitVec.ofNat 32 v)))
  | 0x23 =>
    (match rvAccess sh w with
     | none => .trap trIllegal
     | some (ad, n, _) =>
       if ¬ feltOk ad.toNat n then .trap trFelt
       else if ad.toNat % n ≠ 0 then .trap trScalar
       else fin (sh.wr ad.toNat (bytesLE n b.toNat)))
  | 0x13 =>
    if (f3 = 1 ∧ f7 ≠ 0) ∨ (f3 = 5 ∧ f7 ≠ 0 ∧ f7 ≠ 32) then .trap trIllegal
    else fin (sh.setX rd (rvAlu f3 (f3 == 5 && f7 == 32) a (rvImmI w)))
  | 0x33 =>
    if f7 = 1 then fin (sh.setX rd (rvMul f3 a b))
    else if f7 = 0 ∨ (f7 = 32 ∧ (f3 = 0 ∨ f3 = 5)) then fin (sh.setX rd (rvAlu f3 (f7 == 32) a b))
    else .trap trIllegal
  | 0x0F => if f3 = 0 then fin sh else .trap trIllegal
  | 0x73 =>
    if f3 = 0 then
      (if w = 0x00000073 ∨ w = 0x00100073 then .trap trScalar
       else if w = 0x10500073 then fin sh else .trap trIllegal)
    else if f3 = 4 then .trap trIllegal
    else (match rvCsr x sh w with
      | .ok sh => fin sh
      | r => r)
  | _ => .trap trIllegal

/-! ### FX words (R77) -/

/-- The instruction that an FX word of a sheet's program names; none for a reserved FUNCT6, which is an illegal
instruction (R78). -/
def fxDecode (s : SheetAt) (w : Nat) : Option Instr :=
  let f := bitsOf w 31 26
  let o : FxOps := ⟨Fin.ofNat 32 (rvRd w), Fin.ofNat 32 (rvRs1 w), Fin.ofNat 32 (rvRs2 w), w.testBit 25, Fin.ofNat 8 (bitsOf w 14 12)⟩
  match w % 128 with
  | 0x0B =>
    ([.fxVadd s o, .fxVsub s o, .fxVmul s o, .fxVfma s o, .fxVmin s o, .fxVmax s o, .fxVcmplt s o, .fxVcmpeq s o,
      .fxVsel s o, .fxVand s o, .fxVor s o, .fxVxor s o, .fxVshl s o, .fxVshra s o, .fxVcvt s o, .fxVrsum s o,
      .fxVrmax s o, .fxVperm s o, .fxVfn s o, .fxVcmul s o, .fxVcmulc s o, .fxVcmag s o, .fxVscale s o,
      .fxVmvxs s o] : List Instr)[f]?
  | 0x2B =>
    if 0x20 ≤ f then some (.feltForm s (Fin.ofNat 32 (f - 0x20)) o)
    else match f with
      | 0x00 => some (.fxVld s o .clean)
      | 0x01 => some (.fxVst s o)
      | 0x02 => some (.fxVld2 s o)
      | 0x03 => some (.fxVldx s o)
      | 0x04 => some (.fxVstx s o)
      | 0x05 => some (.fxVgath s o)
      | 0x06 => some (.fxVscat s o)
      | 0x08 => some (.fxTapld s o)
      | 0x09 => some (.fxTapmv s o)
      | 0x0A => some (.fxDemap s o)
      | 0x0B => some (.fxCbxupk s o)
      | 0x0C => some (.fxCbxpk s o)
      | _ => none
  | 0x5B =>
    ([.fxMma s o 0, .fxAccrd s o, .fxAccld s o, .fxAccz s o, .fxAccmv s o] : List Instr)[f]?
  | 0x7B =>
    ([.fxDma s o, .fxPref s o, .fxTfence s o, .fxFence s o, .fxWaitrdy s o, .fxMkrdy s o, .fxClrrdy s o, .fxWaitev s o,
      .fxStrec s o, .fxStred s o, .fxCommit s o, .fxRtwait s o, .fxRand s o, .fxCntrd s o, .fxStmsg s o] : List Instr)[f]?
  | _ => none

/-- The four FX opcodes. -/
def fxOpcode (w : Nat) : Bool := [0x0B, 0x2B, 0x5B, 0x7B].contains (w % 128)

end Sys2Proof.Machine
end

