-- ==== Sys2Proof/Machine/FxSync.lean ====
section
/-! DEFINITION. The control and synchronisation instructions of custom-3 on one sheet (R78, R80, R88 to R91, R320,
R390), but for FX.DMA and FX.PREF (FxDma.lean). -/

namespace Sys2Proof.Machine

/-! ### Ready marking (R80) -/

/-- FX.WAITRDY, FX.MKRDY and FX.CLRRDY before the window. -/
def rdyCheck (e : FxEntry) (o : FxOps) : Option Nat :=
  firstTrap [(rmsBad o false false || o.dst.val != 0, trIllegal), (!feltOk e.rs1.toNat e.rs2.toNat, trFelt)]

/-- The lines a ready-marking instruction names. -/
def rdyLines (e : FxEntry) : List Nat := linesOf e.rs1.toNat e.rs2.toNat

/-- FX.WAITRDY: it issues once the lines are ready and does nothing else. -/
def runWaitrdy (sh : Sheet) : FxOut := .ok sh

/-- FX.MKRDY. -/
def runMkrdy (sh : Sheet) (e : FxEntry) : FxOut := .ok (sh.mkReady (rdyLines e))

/-- FX.CLRRDY. -/
def runClrrdy (sh : Sheet) (e : FxEntry) : FxOut := .ok (sh.clrReady (rdyLines e))

/-! ### Fences (R88) -/

/-- FX.FENCE, FX.TFENCE and FX.COMMIT have no operands. -/
def bareCheck (o : FxOps) : Option Nat :=
  firstTrap [(rmsBad o false false || o.dst.val != 0 || o.src1.val != 0 || o.src2.val != 0, trIllegal)]

/-- Nothing that an earlier instruction started is still under way on the sheet: fills, drains, a joined
step, a wait. -/
def Sheet.quiet (sh : Sheet) : Bool :=
  sh.dma.isEmpty && sh.bankBusy.isEmpty && sh.draining.isEmpty && sh.joined.isNone && sh.wait.isNone

/-- FX.FENCE, the oldest in the window: it completes when every fill and drain is done. -/
def runFence (sh : Sheet) : FxOut := if sh.quiet then .ok sh else .wait sh

/-- FX.TFENCE: it completes when the context's earlier commits have drained. -/
def runTfence (x : FxCtx) (sh : Sheet) : FxOut := if x.drained then .ok sh else .wait sh

/-- FX.COMMIT waits in the window for COMMIT_BEGIN (R91). -/
def runCommit (sh : Sheet) : FxOut := .wait sh

/-! ### Waiting for events and radio time (R88, R89) -/

/-- FX.WAITEV before the window: kinds 0 to 2; an input word must lie in its slot (R117). For kind 2 the token
stands in the following scalar register, held in `rs2`. -/
def waitevCheck (x : FxCtx) (e : FxEntry) (o : FxOps) : Option Nat :=
  let k := bitsOf e.rs1.toNat 31 28
  firstTrap [(rmsBad o false false || o.src2.val != 0 || decide (2 < k) || (k == 2 && o.src1.val == 31), trIllegal),
    (k == 1 && decide (nth x.inLens (bitsOf e.rs1.toNat 26 24) 0 < 4 * bitsOf e.rs1.toNat 19 0 + 4), trOut)]

/-- FX.WAITEV begins its wait. -/
def runWaitev (sh : Sheet) (e : FxEntry) (o : FxOps) : FxOut :=
  let a := e.rs1.toNat
  match bitsOf a 31 28 with
  | 0 => .ok { sh with wait := some (.message o.dst.val (bitsOf a 11 0)) }
  | 1 => .ok { sh with wait := some (.inputWord o.dst.val (bitsOf a 26 24) (bitsOf a 19 0)) }
  | _ => .ok { sh with wait := some (.token o.dst.val e.rs2) }

/-- FX.RTWAIT before the window: legal only in class 0 (R89). -/
def rtwaitCheck (x : FxCtx) (o : FxOps) : Option Nat :=
  firstTrap [(rmsBad o false false || o.src2.val != 0 || x.cls != 0, trIllegal)]

/-- The outcome of an instant against the current radio time (R89): due now or ahead, 0; within the 512
frames behind, 1; none while it lies ahead. -/
def rtJudge (now : Int) (frame tick : Nat) : Option Nat :=
  let behind := (now - (frame * ticksPerFrame + tick : Nat)) % (1024 * ticksPerFrame : Nat)
  if behind = 0 then some 0 else if behind ≤ (512 * ticksPerFrame : Nat) then some 1 else none

/-- The next occurrence of an instant at or after `now`. -/
def rtNext (now : Int) (frame tick : Nat) : Int :=
  now + (((frame * ticksPerFrame + tick : Nat) : Int) - now) % (1024 * ticksPerFrame : Nat)

/-- FX.RTWAIT: completes at once when due or past, else waits. -/
def runRtwait (x : FxCtx) (sh : Sheet) (e : FxEntry) (o : FxOps) : FxOut :=
  let frame := bitsOf e.rs1.toNat 30 21
  let tick := bitsOf e.rs1.toNat 20 0
  let hold := fun (due : Option Int) => FxOut.ok { sh with wait := some (.radio o.dst.val frame tick due) }
  if x.rtValid then
    match rtJudge x.tick frame tick with
    | some v => .ok (sh.setX o.dst.val (BitVec.ofNat 32 v))
    | none => hold (some (rtNext x.tick frame tick))
  else hold none

/-! ### Commit records (R90, R116, R320) -/

/-- Size of the stager in bytes. -/
def stagerSize (k : Csrs) : Nat := (bitsOf k.stager.toNat 9 8 + 1) * 4096

/-- Felt address of the stager. -/
def stagerBase (k : Csrs) : Nat := bitsOf k.stager.toNat 6 0 * 4096

/-- A length and offset in 16-byte units lie in the stager, and the stager in felt. -/
def stagerBad (k : Csrs) (units off : Nat) : Bool :=
  units == 0 || decide (1024 < units) || decide (stagerSize k < 16 * (off + units)) || !feltOk (stagerBase k) (stagerSize k)

/-- FX.STREC before the window. -/
def strecCheck (x : FxCtx) (e : FxEntry) (o : FxOps) : Option Nat :=
  let n := bitsOf e.rs1.toNat 26 16
  firstTrap [(rmsBad o false false || o.dst.val % 4 != 0, trIllegal),
    (stagerBad e.csrs n (bitsOf e.rs1.toNat 9 0) || e.rs2.toNat % 16 != 0, trStager),
    (decide (nth x.outLens (o.dst.val / 4) 0 < e.rs2.toNat + 16 * n), trOut)]

/-- The record joins the task's records, of which there are at most 64. -/
def addRecord (sh : Sheet) (r : CommitRec) : FxOut :=
  if 64 ≤ sh.records.length then .trap trStager else .ok { sh with records := sh.records ++ [r] }

/-- FX.STREC. -/
def runStrec (sh : Sheet) (e : FxEntry) (o : FxOps) : FxOut :=
  addRecord sh ⟨.store, o.dst.val / 4, stagerBase e.csrs + 16 * bitsOf e.rs1.toNat 9 0, 16 * bitsOf e.rs1.toNat 26 16,
    e.rs2.toNat, 0, 0, false, (0, 0, 0), [], []⟩

/-- Elements that a partial of `bytes` bytes holds for a result format (R64). -/
def partialElems (fmt bytes : Nat) : Nat := if (fmtComplex fmt).isSome then bytes / 8 else bytes / 4

/-- Bytes that so many elements take in the result format. -/
def destBytes (fmt n : Nat) : Nat := n * fmtBits fmt / 8

/-- FX.STRED before the window. -/
def stredCheck (x : FxCtx) (e : FxEntry) (o : FxOps) : Option Nat :=
  let n := bitsOf e.rs1.toNat 26 16
  let slot := o.dst.val / 4
  let fmt := nth x.outFmts slot 0
  firstTrap [(rmsBad o true true || o.dst.val % 4 != 0, trIllegal),
    (stagerBad e.csrs n (bitsOf e.rs1.toNat 9 0) || decide (x.rslots ≤ bitsOf e.rs2.toNat 31 20), trStager),
    (decide (nth x.outLens slot 0 < 16 * bitsOf e.rs2.toNat 19 0 + destBytes fmt (partialElems fmt (16 * n))), trOut)]

/-- FX.STRED: the partial keeps the RM, S and counter registers of its instruction (R64). -/
def runStred (sh : Sheet) (e : FxEntry) (o : FxOps) : FxOut :=
  addRecord sh ⟨.reduction, o.dst.val / 4, stagerBase e.csrs + 16 * bitsOf e.rs1.toNat 9 0, 16 * bitsOf e.rs1.toNat 26 16,
    16 * bitsOf e.rs2.toNat 19 0, bitsOf e.rs2.toNat 31 20, e.csrs.mode o.rm.val, o.s,
    (e.csrs.rstream, e.csrs.ridx, e.csrs.rstep.toNat), [], []⟩

/-- The 16 words of a record descriptor in felt. -/
def feltWords (sh : Sheet) (a n : Nat) : List W32 := (List.range n).map (fun i => BitVec.ofNat 32 (rdNat sh.rd (a + 4 * i) 4))

/-- Word i of a list as a number. -/
def wordAt (ws : List W32) (i : Nat) : Nat := (nth ws i 0).toNat

/-- A 64-bit field at word i. -/
def wordAt64 (ws : List W32) (i : Nat) : Nat := wordAt ws i + wordAt ws (i + 1) * 2 ^ 32

/-- Atomic operations on four bytes (R323). -/
def aopBytes (aop : Nat) : Nat := if aop = 2 ∨ aop = 4 then 4 else 8

/-- The fields of a fabric record are illegal as R320 states them. -/
def msgIllegal (ws : List W32) (rs2 : W32) : Bool :=
  let w0 := wordAt ws 0
  let op := w0 % 256
  let cls := w0 / 2 ^ 8 % 256
  let dest := w0 / 2 ^ 16
  let target := wordAt ws 1 % 2 ^ 16
  let aop := wordAt ws 1 / 2 ^ 16 % 256
  let flags := wordAt ws 1 / 2 ^ 24
  let off := wordAt64 ws 2
  let key := wordAt ws 4
  let len := wordAt ws 5
  let src := wordAt64 ws 6
  let o0 := wordAt64 ws 8
  let o1 := wordAt64 ws 10
  let res := wordAt64 ws 12
  let srcSlot := flags % 2 = 1
  let resEn := flags / 2 % 2 = 1
  let units := bitsOf rs2.toNat 26 16
  let soff := bitsOf rs2.toNat 9 0
  let payload := op = 1 ∨ op = 3
  decide (op = 0 ∨ 5 < op) || decide (7 < cls) || (decide (op < 4) && decide (cls < 2)) || decide (3 < flags) ||
  wordAt64 ws 14 != 0 ||
  (decide payload && decide (if srcSlot then len < 16 ∨ 1048576 < len ∨ len % 16 ≠ 0 ∨ units ≠ 0 ∨ soff ≠ 0 ∨ 7 < src / 2 ^ 60 ∨
      bitsOf src 59 48 ≠ 0 ∨ src % 16 ≠ 0
    else len ≠ 0 ∨ src ≠ 0)) ||
  (!decide payload && decide (len ≠ 0 ∨ src ≠ 0 ∨ srcSlot ∨ units ≠ 0 ∨ soff ≠ 0)) ||
  (match op with
   | 1 => decide (off % 16 ≠ 0) || aop != 0 || o0 != 0 || o1 != 0 || res != 0 || decide resEn
   | 2 => decide (11 < aop) || decide (off % aopBytes aop ≠ 0) || (aop != 1 && o1 != 0) ||
          (if resEn then decide (7 < res / 2 ^ 60 ∨ bitsOf res 59 48 ≠ 0 ∨ res % 8 ≠ 0) else res != 0)
   | 3 => off != 0 || aop != 0 || o0 != 0 || o1 != 0 || res != 0 || decide resEn
   | 4 => aop != 0 || off != 0 || o0 != 0 || o1 != 0 || res != 0 || decide resEn || target != 0 || key != 0 || dest != 0
   | _ => aop != 0 || off != 0 || key != 0 || o1 != 0 || res != 0 || decide resEn || dest != 0 ||
          decide (o0 = 0 ∨ 4096 < o0))

/-- The conditions of R316 and R320 that trap with OUT_RANGE. -/
def msgOut (x : FxCtx) (ws : List W32) : Bool :=
  let op := wordAt ws 0 % 256
  let dest := wordAt ws 0 / 2 ^ 16
  let target := wordAt ws 1 % 2 ^ 16
  let flags := wordAt ws 1 / 2 ^ 24
  let src := wordAt64 ws 6
  let res := wordAt64 ws 12
  !x.jobOk || ((op == 1 || op == 2) && !x.domain.contains dest) ||
  ((op == 1 || op == 3) && flags % 2 == 1 && decide (nth x.inLens (src / 2 ^ 60) 0 < src % 2 ^ 48 + wordAt ws 5)) ||
  (op == 2 && flags / 2 % 2 == 1 && decide (nth x.outLens (res / 2 ^ 60) 0 < res % 2 ^ 48 + 8)) ||
  (op == 5 && !x.rxqs.contains target)

/-- FX.STMSG before the window: its address. -/
def stmsgCheck (e : FxEntry) (o : FxOps) : Option Nat :=
  firstTrap [(rmsBad o false false || o.dst.val != 0 || e.rs1.toNat % 64 != 0, trIllegal), (rangeBad e.rs1 64, trFelt)]

/-- FX.STMSG: the record's descriptor is read at issue. -/
def runStmsg (x : FxCtx) (sh : Sheet) (e : FxEntry) : FxOut :=
  let ws := feltWords sh e.rs1.toNat 16
  let op := wordAt ws 0 % 256
  let stager := (op = 1 ∨ op = 3) ∧ wordAt ws 1 / 2 ^ 24 % 2 = 0
  let n := bitsOf e.rs2.toNat 26 16
  let off := bitsOf e.rs2.toNat 9 0
  if msgIllegal ws e.rs2 then .trap trIllegal
  else if stager ∧ stagerBad e.csrs n off then .trap trStager
  else if msgOut x ws then .trap trOut
  else addRecord sh ⟨.message, 0, stagerBase e.csrs + 16 * off, if stager then 16 * n else 0, 0, 0, 0, false, (0, 0, 0), ws, []⟩

/-! ### Generator words and counters (R78, R390) -/

/-- FX.RAND before the window. -/
def randCheck (o : FxOps) : Option Nat :=
  firstTrap [(rmsBad o false false || decide (3 < o.src1.val) || o.src2.val == 0 || decide (4 < o.src2.val), trIllegal)]

/-- FX.RAND: word x_w of the generator for each lane. -/
def runRand (x : FxCtx) (sh : Sheet) (e : FxEntry) (o : FxOps) : FxOut :=
  .ok (sh.setV o.dst.val ((List.range 64).map (fun l =>
    let q := philox x.seed (drawCounter e.csrs.rstream (e.csrs.ridx + BitVec.ofNat 64 l) o.src2.val e.csrs.rstep.toNat)
    match o.src1.val with
    | 0 => q.x0
    | 1 => q.x1
    | 2 => q.x2
    | _ => q.x3)))

/-- FX.CNTRD before the window. -/
def cntrdCheck (x : FxCtx) (o : FxOps) : Option Nat :=
  firstTrap [(rmsBad o false false || decide (7 < o.src1.val) || decide (1 < o.src2.val), trIllegal),
    (!nth x.cntOk o.src1.val false, trCounter)]

/-- FX.CNTRD: half 0 reads VALUE[31:0] and latches VALUE[47:32]; half 1 returns the latched half. -/
def runCntrd (x : FxCtx) (sh : Sheet) (o : FxOps) : FxOut :=
  let v := nth x.counts o.src1.val 0
  if o.src2.val = 0 then
    .ok ({ sh with cntLatch := some (BitVec.ofNat 32 (v / 2 ^ 32)) }.setX o.dst.val (BitVec.ofNat 32 v))
  else .ok (sh.setX o.dst.val (sh.cntLatch.getD 0))

end Sys2Proof.Machine
end

