-- ==== Sys2Proof/Machine/Egress.lean ====
section
/-! DEFINITION. Egress scheduling and shaping of the Ethernet and fabric ports (R164 to R168, R330): token buckets, two-level
deficit round robin, and the shaper entries. -/

namespace Sys2Proof.Machine

/-! ### The state of a port's egress -/

/-- A bucket as it stands at reset: unlimited (log entry 32). -/
def bucketReset : Bucket := ⟨0, 0, 0, none⟩

/-- The smallest quantum (R165). -/
def quantumMin : Nat := 64

/-- A DRR queue at reset: not in use (log entry 32). -/
def queueReset : DrrQueue := ⟨⟨false, 2, 0, 0⟩, none, quantumMin, none, bucketReset, 0, []⟩

/-- A class of a sub-port at reset (log entry 32). -/
def classReset : ClassDrr := ⟨quantumMin, none, 0, 0, false⟩

/-- A class 0 queue at reset: not in use. -/
def class0Reset : Class0Queue := ⟨false, 0, 1, 0, none, []⟩

/-- A port's egress at reset. -/
def egReset : EgPort := ⟨[], [], [], [], [], []⟩

/-- The egress of port p: 0 to 3 Ethernet, 4 to 9 fabric. -/
def Chip.eg (c : Chip) (p : Nat) : EgPort := tabGetD c.egress p egReset

/-- Change the egress of port p. -/
def Chip.updEg (c : Chip) (p : Nat) (f : EgPort → EgPort) : Chip := { c with egress := tabPut c.egress p (f (c.eg p)) }

/-- DRR queue i of a port. -/
def EgPort.queue (e : EgPort) (i : Nat) : DrrQueue := tabGetD e.queues i queueReset

/-- Put DRR queue i. -/
def EgPort.setQueue (e : EgPort) (i : Nat) (q : DrrQueue) : EgPort := { e with queues := tabPut e.queues i q }

/-- The bucket of tenant group g. -/
def EgPort.group (e : EgPort) (g : Nat) : Bucket := tabGetD e.groups g bucketReset

/-- Class 0 queue i. -/
def EgPort.c0 (e : EgPort) (i : Nat) : Class0Queue := tabGetD e.class0 i class0Reset

/-- Put class 0 queue i. -/
def EgPort.setC0 (e : EgPort) (i : Nat) (q : Class0Queue) : EgPort := { e with class0 := tabPut e.class0 i q }

/-- A class of a sub-port. -/
def EgPort.cls (e : EgPort) (sub k : Nat) : ClassDrr := tabGetD e.classes (sub * 8 + k) classReset

/-- Put a class of a sub-port. -/
def EgPort.setCls (e : EgPort) (sub k : Nat) (x : ClassDrr) : EgPort := { e with classes := tabPut e.classes (sub * 8 + k) x }

/-! ### Token buckets (R166, R167) -/

/-- A bucket holds so many bytes; one whose REFILL is 0 is unlimited. -/
def Bucket.holds (b : Bucket) (n : Nat) : Bool := b.refill == 0 || decide (n * 1024 ≤ b.level)

/-- Take bytes from a bucket. -/
def Bucket.take (b : Bucket) (n : Nat) : Bucket := if b.refill = 0 then b else { b with level := b.level - n * 1024 }

/-- A refill: a waiting change first takes effect, then the level gains REFILL and is capped at BURST. -/
def Bucket.refilled (b : Bucket) : Bucket :=
  let b := match b.next with
    | some (r, s) => { b with refill := r, burst := s, next := none }
    | none => b
  if b.refill = 0 then b else { b with level := min (b.burst * 256 * 1024) (b.level + b.refill) }

/-- A queue at a 1.024 µs boundary. -/
def DrrQueue.refilled (q : DrrQueue) : DrrQueue :=
  { q with bucket := q.bucket.refilled, quantum := q.nextQuantum.getD q.quantum, nextQuantum := none }

/-- A port at a 1.024 µs boundary. -/
def EgPort.refilled (e : EgPort) : EgPort :=
  { e with queues := e.queues.map (fun x => (x.1, x.2.refilled)),
           groups := e.groups.map (fun x => (x.1, x.2.refilled)),
           classes := e.classes.map (fun x => (x.1, { x.2 with quantum := x.2.nextQuantum.getD x.2.quantum, nextQuantum := none })) }

/-- BUCKET_REFILL (R166, R167). -/
def bucketRefill (c : Chip) : Chip := { c with egress := c.egress.map (fun x => (x.1, x.2.refilled)) }

/-- Both buckets of a queue hold a counted length. -/
def EgPort.eligible (e : EgPort) (i n : Nat) : Bool :=
  (e.queue i).bucket.holds n && (e.group (e.queue i).place.group).holds n

/-- Both buckets lose a counted length. -/
def EgPort.charge (e : EgPort) (i n : Nat) : EgPort :=
  let g := (e.queue i).place.group
  let e := { e with groups := tabPut e.groups g ((e.group g).take n) }
  e.setQueue i { e.queue i with bucket := (e.queue i).bucket.take n }

/-! ### Deficit round robin (R165) -/

/-- The head frame of a queue with its counted length, where it is eligible. -/
def EgPort.head (e : EgPort) (ovh i : Nat) : Option (Frame × Nat) :=
  match (e.queue i).frames with
  | [] => none
  | f :: _ => if e.eligible i (f.length + ovh) then some (f, f.length + ovh) else none

/-- The queues of a class of a sub-port, in index order. -/
def EgPort.members (e : EgPort) (sub k : Nat) : List Nat :=
  e.queues.filterMap (fun x => if x.2.place.enable ∧ x.2.place.cls = k ∧ x.2.place.subport = sub then some x.1 else none)

/-- The member after one, in a ring. -/
def nextMember (ms : List Nat) (i : Nat) : Nat := ((ms.find? (fun j => decide (i < j))).getD (ms.headD 0))

/-- Walk the queues of a class until one may send: its index, head frame and counted length, and the port with the deficits
that the visits added. -/
def EgPort.pickQueue (ovh sub k : Nat) (ms : List Nat) : Nat → EgPort → Option (Nat × Frame × Nat × EgPort)
  | 0, _ => none
  | n + 1, e =>
    let x := e.cls sub k
    let go := fun (e : EgPort) (x : ClassDrr) => e.setCls sub k { x with queue := nextMember ms x.queue, visiting := false }
    if ¬ ms.contains x.queue then pickQueue ovh sub k ms n (go e x)
    else match e.head ovh x.queue with
      | none => pickQueue ovh sub k ms n (go e x)
      | some (f, len) =>
        let q := e.queue x.queue
        let e := if x.visiting then e else (e.setQueue x.queue { q with deficit := q.deficit + q.quantum }).setCls sub k { x with visiting := true }
        if len ≤ (e.queue x.queue).deficit then some (x.queue, f, len, e)
        else pickQueue ovh sub k ms n (go e (e.cls sub k))

/-- Rounds that surely reach a sender: a quantum of 64 bytes needs 154 visits for the largest counted length. -/
def drrRounds (members : Nat) : Nat := 160 * (members + 1)

/-- The class of a sub-port that the outer round robin visits, and whether its visit has begun. -/
def EgPort.at_ (e : EgPort) (sub : Nat) : Nat × Bool := tabGetD e.visit sub (2, false)

/-- Put the outer round robin. -/
def EgPort.setAt (e : EgPort) (sub : Nat) (x : Nat × Bool) : EgPort := { e with visit := tabPut e.visit sub x }

/-- The class after one, from 2 to 7. -/
def nextClass (k : Nat) : Nat := if 7 ≤ k then 2 else k + 1

/-- Walk the classes until one may send. A class that has frames but none eligible is passed over, its deficit unchanged; an
empty one's deficit becomes 0. -/
def EgPort.pickClass (ovh sub : Nat) : Nat → EgPort → Option (Nat × Frame × Nat × EgPort)
  | 0, _ => none
  | n + 1, e =>
    let (k, begun) := e.at_ sub
    let ms := e.members sub k
    let go := fun (e : EgPort) => e.setAt sub (nextClass k, false)
    if ¬ ms.any (fun i => (e.head ovh i).isSome) then
      let e := if ms.all (fun i => (e.queue i).frames.isEmpty) then e.setCls sub k { e.cls sub k with deficit := 0 } else e
      pickClass ovh sub n (go e)
    else
      let x := e.cls sub k
      let e := if begun then e else (e.setCls sub k { x with deficit := x.deficit + x.quantum }).setAt sub (k, true)
      match e.pickQueue ovh sub k ms (drrRounds ms.length) with
      | none => pickClass ovh sub n (go e)
      | some (i, f, len, e') =>
        if len ≤ (e.cls sub k).deficit then some (i, f, len, e') else pickClass ovh sub n (go e)

/-- A queue that has become empty: deficit 0, and a waiting move takes effect (R165, R167). -/
def DrrQueue.emptied (q : DrrQueue) : DrrQueue :=
  if q.frames.isEmpty then { q with deficit := 0, place := q.move.getD q.place, move := none } else q

/-- Send the head frame of a queue: deficits and buckets lose the counted length. -/
def EgPort.sendHead (e : EgPort) (sub i len : Nat) : EgPort :=
  let k := (e.queue i).place.cls
  let x := e.cls sub k
  let e := (e.charge i len).setCls sub k { x with deficit := x.deficit - len }
  let q := e.queue i
  e.setQueue i ({ q with deficit := q.deficit - len, frames := q.frames.drop 1 }).emptied

/-- The DRR classes of a sub-port send a frame. -/
def EgPort.drr (e : EgPort) (ovh sub : Nat) : Option (Frame × EgPort) :=
  match e.pickClass ovh sub (drrRounds 6) with
  | some (i, f, len, e) => some (f, e.sendHead sub i len)
  | none => none

/-! ### Shaper entries (R166 to R168) -/

/-- A staging register of a port: 0 V0, 1 V1, 2 C0, 3 C1. -/
def shpStage (p i : Nat) : RegRef := if p < 4 then R.SHP_STAGE p i else R.FSHP_STAGE (p - 4) i

/-- SHP_STAT of a port. -/
def shpStat (p : Nat) : RegRef := if p < 4 then R.SHP_STAT p else R.FSHP_STAT (p - 4)

/-- The staged words match their complements (R37). -/
def Chip.shpStaged (c : Chip) (p : Nat) : Bool :=
  c.reg (shpStage p 2) == ~~~ (c.reg (shpStage p 0)) && c.reg (shpStage p 3) == ~~~ (c.reg (shpStage p 1))

/-- Put a result in SHP_STAT.ERR. -/
def Chip.shpResult (c : Chip) (p err : Nat) : Chip := c.setFld (shpStat p) F.SHP_STAT.ERR err

/-- REFILL. -/
def shpRefill : Fld := ⟨36, 28⟩
/-- BURST. -/
def shpBurst : Fld := ⟨20, 16⟩
/-- QUANTUM. -/
def shpQuantum : Fld := ⟨0, 20⟩
/-- DROP_AFTER. -/
def shpDrop : Fld := ⟨0, 21⟩
/-- ENABLE. -/
def shpEnable : Fld := ⟨15, 1⟩
/-- CLASS. -/
def shpClass : Fld := ⟨12, 3⟩
/-- SUBPORT. -/
def shpSub : Fld := ⟨10, 2⟩
/-- GROUP. -/
def shpGroup : Fld := ⟨4, 6⟩

/-- A staged entry holds a value out of its range, or a kind or index that the port has not (R166, R168, R330). -/
def shpInvalid (p kind index : Nat) (v0 v1 : W64) : Bool :=
  match kind with
  | 0 => decide (fget v0 shpBurst < 39) || decide (fget v0 shpQuantum < 64) || decide (fget v1 shpClass < 2) ||
         (decide (4 ≤ p) && fget v1 shpSub != 0)
  | 1 => decide (fget v0 shpQuantum < 64) || decide (index % 8 < 2) || decide (32 ≤ index) || (decide (4 ≤ p) && decide (8 ≤ index))
  | 2 => decide (fget v0 shpBurst < 39) || decide (64 ≤ index)
  | _ => decide (4 ≤ p) || fget v0 shpDrop == 0 || decide (1228799 < fget v0 shpDrop)

/-- An entry's two words as they would be read back. -/
def EgPort.words (e : EgPort) (kind index : Nat) : W64 × W64 :=
  match kind with
  | 0 =>
    let q := e.queue index
    let b := q.bucket.next.getD (q.bucket.refill, q.bucket.burst)
    let p := q.move.getD q.place
    (BitVec.ofNat 64 (b.1 * 2 ^ 36 + b.2 * 2 ^ 20 + q.nextQuantum.getD q.quantum),
     BitVec.ofNat 64 ((if p.enable then 2 ^ 15 else 0) + p.cls * 2 ^ 12 + p.subport * 2 ^ 10 + p.group * 2 ^ 4))
  | 1 =>
    let x := e.cls (index / 8) (index % 8)
    (BitVec.ofNat 64 (x.nextQuantum.getD x.quantum), 0)
  | 2 =>
    let g := e.group index
    let b := g.next.getD (g.refill, g.burst)
    (BitVec.ofNat 64 (b.1 * 2 ^ 36 + b.2 * 2 ^ 20), 0)
  | _ =>
    let q := e.c0 index
    (BitVec.ofNat 64 q.dropAfter,
     BitVec.ofNat 64 (q.txLate * 2 ^ 32 + (if q.enable then 2 ^ 15 else 0) + q.subport * 2 ^ 10))

/-- Store a valid entry: rates and quanta wait for the refill, a move for the queue to become empty (R167). -/
def EgPort.store (e : EgPort) (kind index : Nat) (v0 v1 : W64) : EgPort :=
  match kind with
  | 0 =>
    let q := e.queue index
    let p : QueuePlace := ⟨fget v1 shpEnable != 0, fget v1 shpClass, fget v1 shpSub, fget v1 shpGroup⟩
    e.setQueue index ({ q with bucket := { q.bucket with next := some (fget v0 shpRefill, fget v0 shpBurst) },
                               nextQuantum := some (fget v0 shpQuantum),
                               move := if p = q.place then none else some p }).emptied
  | 1 => e.setCls (index / 8) (index % 8) { e.cls (index / 8) (index % 8) with nextQuantum := some (fget v0 shpQuantum) }
  | 2 => { e with groups := tabPut e.groups index { e.group index with next := some (fget v0 shpRefill, fget v0 shpBurst) } }
  | _ => e.setC0 index { e.c0 index with enable := fget v1 shpEnable != 0, subport := fget v1 shpSub, dropAfter := fget v0 shpDrop }

/-- The port exists on this assembly (R146, R310). -/
def Chip.portExists (c : Chip) (p : Nat) : Bool :=
  c.ident.part != .fdn12h1d || decide (p < 2) || (decide (4 ≤ p) && decide (p < 7))

/-- The change-log entry number of a shaper entry: port, kind, index (log entry 33). -/
def shpEntry (p kind index : Nat) : Nat := (if p < 4 then p else p - 4) * 4096 + kind * 1024 + index

/-- SHP_WRITE (R166 to R168). -/
def shpWrite (r : Requester) (port : Fin 10) (kind : Fin 4) (index : Fin 1024) (c : Chip) : Chip :=
  let p := port.val
  let v0 := c.reg (shpStage p 0)
  let v1 := c.reg (shpStage p 1)
  if ¬ mayReachBar0 r ∨ ¬ c.portExists p then c
  else if c.early r then c.noteEarly
  else if ¬ c.shpStaged p then (c.softError atChip 0x09 .complementMismatch).shpResult p 1
  else if shpInvalid p kind.val index.val v0 v1 then c.shpResult p 2
  else
    let old := (c.eg p).words kind.val index.val
    let e := (c.eg p).store kind.val index.val v0 v1
    let new := e.words kind.val index.val
    let c := c.logTable (c.origin r) (if p < 4 then 1 else 2) (shpEntry p kind.val index.val) old.1 old.2 new.1 new.2
    (c.updEg p (fun _ => e)).shpResult p 0

/-- SHP_READ_BACK (R168): an entry and its complements into staging. -/
def shpReadBack (r : Requester) (port : Fin 10) (kind : Fin 4) (index : Fin 1024) (c : Chip) : Chip :=
  let p := port.val
  let w := (c.eg p).words kind.val index.val
  if ¬ mayReachBar0 r ∨ ¬ c.portExists p then c
  else if c.early r then c.noteEarly
  else
    ((((c.setReg (shpStage p 0) w.1).setReg (shpStage p 1) w.2).setReg (shpStage p 2) (~~~ w.1)).setReg (shpStage p 3)
      (~~~ w.2)).shpResult p 0

end Sys2Proof.Machine
end

