-- ==== Sys2Proof/Machine/Counters.lean ====
section
/-! DEFINITION. Performance counters (R383 to R393): configuration and value writes, counting, overflow,
chaining, sampling, the counter interrupt and FREEZE. -/

namespace Sys2Proof.Machine

/-- How many counters a unit has (R383). -/
def cntNumber : CounterUnit → Nat
  | .sheet _ => 8
  | .quire _ => 16
  | .ream _ => 32
  | .chip => 64

/-- The count word of counter n of a unit. -/
def cntCount : CounterUnit → Nat → RegRef
  | .sheet s, n => R.SC_COUNT s.ream s.quire s.pos n
  | .quire q, n => R.QC_COUNT q.ream q.quire n
  | .ream r, n => R.RC_COUNT r n
  | .chip, n => R.CHIPC_COUNT n

/-- The configuration word of counter n of a unit. -/
def cntCfg : CounterUnit → Nat → RegRef
  | .sheet s, n => R.SC_CFG s.ream s.quire s.pos n
  | .quire q, n => R.QC_CFG q.ream q.quire n
  | .ream r, n => R.RC_CFG r n
  | .chip, n => R.CHIPC_CFG n

/-- The sample word of counter n of a unit. -/
def cntSample : CounterUnit → Nat → RegRef
  | .sheet s, n => R.SC_SAMPLE s.ream s.quire s.pos n
  | .quire q, n => R.QC_SAMPLE q.ream q.quire n
  | .ream r, n => R.RC_SAMPLE r n
  | .chip, n => R.CHIPC_SAMPLE n

/-- The kind of an event code at a level (R385): none where the code is not listed, some true for a
level, some false for an event that adds. Code 0 counts nothing and fits either QUAL. -/
def eventKind : CounterUnit → Nat → Option Bool
  | .sheet _, e => if e = 9 ∨ e = 11 then some true else if 1 ≤ e ∧ e ≤ 16 then some false else none
  | .quire _, e => if e = 5 then some true else if 1 ≤ e ∧ e ≤ 10 then some false else none
  | .ream _, e =>
    if e = 3 ∨ e = 4 ∨ e = 5 ∨ e = 9 then some true else if 1 ≤ e ∧ e ≤ 11 then some false else none
  | .chip, e => if e = 13 ∨ e = 14 then some true else if 1 ≤ e ∧ e ≤ 14 then some false else none

/-- SLOT_EN, SLOT and CLASS_FILT stand only where the level has them (R384). -/
def cntReservedOk (u : CounterUnit) (v : W64) : Bool :=
  match u with
  | .sheet _ => fget v F.SC_CFG.CLASS_FILT != 3
  | .quire _ => fget v F.SC_CFG.SLOT_EN == 0 && fget v F.SC_CFG.SLOT == 0 && fget v F.SC_CFG.CLASS_FILT != 3
  | _ => fget v F.SC_CFG.SLOT_EN == 0 && fget v F.SC_CFG.SLOT == 0 && fget v F.SC_CFG.CLASS_FILT == 0

/-- A configuration word that R384 to R386 accept for counter n of a unit. -/
def cntCfgOk (u : CounterUnit) (n : Nat) (v : W64) : Bool :=
  let chain := fget v F.SC_CFG.CHAIN_IN != 0
  let ev := fget v F.SC_CFG.EVENT
  let evOk := chain || ev == 0 ||
    (match eventKind u ev with
     | none => false
     | some level => level == (fget v F.SC_CFG.QUAL != 0))
  evOk && !(chain && n == 0) && cntReservedOk u v

/-- The bit of CNT_IRQ that a configuration word at a register-file key feeds (R393). -/
def cntIrqBit (addr : Nat) : Option Nat :=
  if 0x600008 ≤ addr ∧ addr < 0x600408 ∧ (addr - 0x600008) % 16 = 0 then some 36
  else if addr < 0x1000000 ∨ 0x5000000 ≤ addr then none
  else
    let r := (addr - 0x1000000) / 0x1000000
    let o := (addr - 0x1000000) % 0x1000000
    if 0xC00008 ≤ o ∧ o < 0xC00208 ∧ (o - 0xC00008) % 16 = 0 then some (32 + r)
    else if o < 0x800000 then
      let q := o / 0x100000
      let b := o % 0x100000
      if 0x10008 ≤ b ∧ b < 0x10108 ∧ (b - 0x10008) % 16 = 0 then some (r * 8 + q)
      else if 0x40000 ≤ b ∧ b < 0x40000 + 66 * 0x1000 ∧ 0x108 ≤ b % 0x1000 ∧ b % 0x1000 < 0x188 ∧
          (b % 0x1000 - 0x108) % 16 = 0 then some (r * 8 + q)
      else none
    else none

/-- CNT_IRQ as a view (R393): a bit for each unit one of whose counters holds OVF with INT_EN. -/
def Chip.cntIrqWord (c : Chip) : Nat :=
  let w := c.regs.foldl (fun acc (a, v) =>
    match cntIrqBit a with
    | none => acc
    | some k => if fget v F.SC_CFG.OVF != 0 && fget v F.SC_CFG.INT_EN != 0 then setBit acc k else acc) 0
  if w = 0 then 0 else setBit w 63

/-- MSI-X entry 3 follows CNT_IRQ.ANY (R389, R403). -/
def Chip.cntRefresh (c : Chip) : Chip := c.irqLevel 3 (c.cntIrqWord != 0)

/-- What a sample takes beside the time: the program counter and context of a sheet's task. -/
structure CntCause where
  pc : W32
  ctx : Nat
  slot : Option Nat
  cls : Option Nat
deriving DecidableEq, Repr

/-- No task causes the event. -/
def noCause : CntCause := ⟨0, 0xFFFF, none, none⟩

/-- Take a sample on an overflow (R389). -/
def cntSampleTake (c : Chip) (u : CounterUnit) (n : Nat) (k : CntCause) : Chip :=
  if fget (c.reg (cntCfg u n)) F.SC_CFG.SAMPLE_EN = 0 then c
  else
    let r := cntSample u n
    let c := if c.flag r F.SC_SAMPLE.VALID then c.bump r F.SC_SAMPLE.LOST 1 else c
    let c := match u with
      | .sheet _ => (c.setFld r F.SC_SAMPLE.PC k.pc.toNat).setFld r F.SC_SAMPLE.CTX k.ctx
      | _ => c.setFld r F.QC_SAMPLE.TIME (c.taiNs % 2 ^ 32)
    c.mark r F.SC_SAMPLE.VALID

/-- Add to counter n, carrying up a chain (R387). The fuel is the number of counters above n. -/
def cntAdd (c : Chip) (u : CounterUnit) (k : CntCause) : Nat → Nat → Nat → Chip
  | fuel, n, inc =>
    let cfg := c.reg (cntCfg u n)
    if fget cfg F.SC_CFG.ENABLE = 0 ∨ fget cfg F.SC_CFG.STOPPED ≠ 0 ∨ c.flag R.CNT_CTL F.CNT_CTL.FREEZE then c
    else
      let v := c.fld (cntCount u n) F.SC_COUNT.VALUE
      if v + inc < 2 ^ 48 then c.setFld (cntCount u n) F.SC_COUNT.VALUE (v + inc)
      else
        let c := (cntSampleTake c u n k).mark (cntCfg u n) F.SC_CFG.OVF
        let up := c.reg (cntCfg u (n + 1))
        match fuel with
        | f + 1 =>
          if n + 1 < cntNumber u ∧ fget up F.SC_CFG.CHAIN_IN ≠ 0 ∧ fget up F.SC_CFG.ENABLE ≠ 0 then
            cntAdd (c.setFld (cntCount u n) F.SC_COUNT.VALUE ((v + inc) % 2 ^ 48)) u k f (n + 1) 1
          else ((c.setFld (cntCount u n) F.SC_COUNT.VALUE (2 ^ 48 - 1)).mark (cntCfg u n) F.SC_CFG.STOPPED)
        | 0 => ((c.setFld (cntCount u n) F.SC_COUNT.VALUE (2 ^ 48 - 1)).mark (cntCfg u n) F.SC_CFG.STOPPED)

/-- Counter n of a unit counts an event of this code caused so (R384 to R386). -/
def cntCounts (cfg : W64) (code : Nat) (k : CntCause) : Bool :=
  fget cfg F.SC_CFG.ENABLE != 0 && fget cfg F.SC_CFG.CHAIN_IN == 0 && fget cfg F.SC_CFG.EVENT == code &&
  fget cfg F.SC_CFG.QUAL == 0 &&
  (fget cfg F.SC_CFG.SLOT_EN == 0 || k.slot == some (fget cfg F.SC_CFG.SLOT)) &&
  (match fget cfg F.SC_CFG.CLASS_FILT with
   | 0 => true
   | 1 => k.cls == some 0
   | _ => k.cls == some 1 || k.cls == some 2 || k.cls == some 3)

/-- An event of kind E happens `inc` times at a unit. -/
def Chip.perf (c : Chip) (u : CounterUnit) (code inc : Nat) (k : CntCause := noCause) : Chip :=
  let hit := (List.range (cntNumber u)).filter (fun n => cntCounts (c.reg (cntCfg u n)) code k)
  if inc = 0 ∨ hit.isEmpty then c
  else (hit.foldl (fun c n => cntAdd c u k (cntNumber u - n) n inc) c).cntRefresh

/-- A level sampled over one cycle of a unit's clock (R386, QUAL 1 to 3): `before` is its value in the
cycle before. -/
def Chip.perfLevel (c : Chip) (u : CounterUnit) (code before now : Nat) : Chip :=
  let hit := (List.range (cntNumber u)).filter (fun n =>
    let cfg := c.reg (cntCfg u n)
    let th := fget cfg F.SC_CFG.THRESH
    fget cfg F.SC_CFG.ENABLE != 0 && fget cfg F.SC_CFG.CHAIN_IN == 0 && fget cfg F.SC_CFG.EVENT == code &&
    (match fget cfg F.SC_CFG.QUAL with
     | 1 => decide (th < now)
     | 2 => decide (now ≤ th)
     | 3 => decide (before ≤ th) && decide (th < now)
     | _ => false))
  if hit.isEmpty then c else (hit.foldl (fun c n => cntAdd c u noCause (cntNumber u - n) n 1) c).cntRefresh

/-- A configuration write (R384): refused whole for a reserved code or an invalid combination. -/
def cntCfgWrite (c : Chip) (u : CounterUnit) (n : Nat) (v : W64) : Chip :=
  if cntNumber u ≤ n then c
  else if cntCfgOk u n v then
    let r := cntCfg u n
    let old := c.reg r
    let keep := fmask F.SC_CFG.STOPPED ||| fmask F.SC_CFG.OVF
    let rw := ~~~ (keep ||| 0x7F#64)
    let ovf := if fget v F.SC_CFG.OVF != 0 then old &&& fmask F.SC_CFG.STOPPED else old &&& keep
    (c.setReg r ((v &&& rw) ||| ovf)).cntRefresh
  else c.mark R.CNT_CTL F.CNT_CTL.CFG_REFUSED

/-- A value write (R388): refused while ENABLE is 1, else it sets VALUE and clears STOPPED. -/
def cntValueWrite (c : Chip) (u : CounterUnit) (n : Nat) (v : W64) : Chip :=
  if cntNumber u ≤ n then c
  else if c.flag (cntCfg u n) F.SC_CFG.ENABLE then c.mark R.CNT_CTL F.CNT_CTL.CFG_REFUSED
  else (c.setFld (cntCount u n) F.SC_COUNT.VALUE v.toNat).setFlag (cntCfg u n) F.SC_CFG.STOPPED false

/-- COUNTER_CFG_WRITE (R384). -/
def counterCfgWrite (r : Requester) (u : CounterUnit) (n : Nat) (v : W64) (c : Chip) : Chip :=
  if mayReachBar0 r then cntCfgWrite c u n v else c

/-- COUNTER_VALUE_WRITE (R388). -/
def counterValueWrite (r : Requester) (u : CounterUnit) (n : Nat) (v : W64) (c : Chip) : Chip :=
  if mayReachBar0 r then cntValueWrite c u n v else c

/-- COUNTER_OVERFLOW (R387): an increment that carries VALUE past 2⁴⁸ − 1; any other increment is not
this event and changes nothing. `ctx` is the context of the sheet's task. -/
def counterOverflow (u : CounterUnit) (n inc : Nat) (pc : W32) (ctx : Nat) (c : Chip) : Chip :=
  if n < cntNumber u ∧ inc ≤ 65535 ∧ 2 ^ 48 ≤ c.fld (cntCount u n) F.SC_COUNT.VALUE + inc then
    (cntAdd c u ⟨pc, ctx, none, none⟩ (cntNumber u - n) n inc).cntRefresh
  else c

/-- CNT_FREEZE (R388): FREEZE stops every counter, which keeps VALUE and ENABLE; clearing it resumes. -/
def cntFreeze (r : Requester) (freeze : Bool) (c : Chip) : Chip :=
  if mayReachBar0 r then c.setFlag R.CNT_CTL F.CNT_CTL.FREEZE freeze else c

/-- The counter words of a unit return to their reset values (R391). -/
def cntReset (c : Chip) (u : CounterUnit) : Chip :=
  { c with regs := c.regs.filter (fun (a, _) =>
      !((List.range (cntNumber u)).any (fun n =>
        a == (cntCount u n).addr || a == (cntCfg u n).addr || a == (cntSample u n).addr))) }

end Sys2Proof.Machine
end

