-- ==== Sys2Proof/Machine/Dram.lean ====
section
/-! DEFINITION. A tenant's memory: windows of the deckle (R288, R291), translation pages (R258), reads and writes of
the device virtual range and of host windows, dirty-page logging (R300), and use of the tiers (R266). -/

namespace Sys2Proof.Machine

/-! ### Windows (R291) -/

/-- The size of a device virtual range. -/
def vaSpan : Nat := 2 ^ 57

/-- A window of a slot, read from its two registers. -/
structure Win where
  base : Nat
  size : Nat
  type : Nat
  write : Bool
  read : Bool
  hostBase : Nat
  slice : Nat
deriving DecidableEq, Repr

/-- The window that two words spell. -/
def winOf (w0 w1 : W64) : Win :=
  ⟨fget w0 F.WIN0.VA_BASE * 2 ^ 30, fget w0 F.WIN0.SIZE_GIB * 2 ^ 30, fget w0 F.WIN0.TYPE, fget w0 F.WIN0.WRITE != 0,
    fget w0 F.WIN0.READ != 0, fget w1 F.WIN1.HOST_BASE * 2 ^ 30, fget w1 F.WIN1.SLICE⟩

/-- Window w of a slot. -/
def Chip.win (c : Chip) (slot w : Nat) : Win := winOf (c.reg (R.WIN0 slot w)) (c.reg (R.WIN1 slot w))

/-- An address lies in a window that is in use. -/
def Win.has (w : Win) (va : Nat) : Bool := w.type != 0 && decide (w.base ≤ va) && decide (va < w.base + w.size)

/-- A range lies wholly in a window. -/
def Win.holds (w : Win) (va n : Nat) : Bool := w.type != 0 && decide (w.base ≤ va) && decide (va + n ≤ w.base + w.size)

/-- The sixteen windows of a slot. -/
def Chip.wins (c : Chip) (slot : Nat) : List Win := (List.range 16).map (c.win slot)

/-- The window that holds an address. -/
def Chip.winAt (c : Chip) (slot va : Nat) : Option Win := (c.wins slot).find? (fun w => w.has va)

/-- The PASID part of a host-window request (R295): 0 without one, PASID + 1 with one. -/
def Chip.pasid (c : Chip) (slice : Nat) : Nat :=
  if c.flag (R.SLICE slice) F.SLICE.PASID_EN then c.fld (R.SLICE slice) F.SLICE.PASID + 1 else 0

/-- The key of a host byte: PASID part and host I/O virtual address. -/
def hostKey (pasid addr : Nat) : Nat := pasid * 2 ^ 64 + addr % 2 ^ 64

/-! ### Pages (R258) -/

/-- Bytes of a page size code. -/
def pageBytes : Nat → Nat
  | 0 => 4096
  | 1 => 65536
  | 2 => 2097152
  | _ => 1073741824

/-- The key of a device byte or page. -/
def devKey (slot va : Nat) : Nat := slot * vaSpan + va % vaSpan

/-- The slot of a key. -/
def keySlot (k : Nat) : Nat := k / vaSpan

/-- The address of a key. -/
def keyVa (k : Nat) : Nat := k % vaSpan

/-- The mapped page that holds an address, with its key. -/
def Chip.pageAt (c : Chip) (slot va : Nat) : Option (Nat × Page) :=
  let k := devKey slot va
  c.pages.find? (fun x => decide (x.1 ≤ k) && decide (k < x.1 + pageBytes x.2.size))

/-- The pages of a slot that touch a range. -/
def Chip.pagesIn (c : Chip) (slot va n : Nat) : Tab Page :=
  let k := devKey slot va
  c.pages.filter (fun x => decide (x.1 < k + n) && decide (k < x.1 + pageBytes x.2.size))

/-- A page is revoked (R274). -/
def Page.isRevoked (p : Page) : Bool := p.place == .revoked

/-! ### Checks -/

/-- What a check of one access finds. -/
inductive Access where
  | ok
  | prot
  | sealed_
  | revoked
deriving DecidableEq, Repr

/-- The 4 KiB blocks that a range touches. -/
def blocksOf (va n : Nat) : List Nat :=
  if n = 0 then [] else (List.range ((va + n - 1) / 4096 + 1 - va / 4096)).map (fun i => va / 4096 + i)

/-- A deckle register of a slot has lost its complement: every access counts as outside the deckle (R334). -/
def Chip.deckleBad (c : Chip) (slot : Nat) : Bool :=
  c.damaged.any (fun o =>
    match o with
    | .deckle s _ => s.val == slot
    | _ => false)

/-- One 4 KiB block of an access: its window's type and permission, and for a device window its page; the host aborts every access while
its port is down (R360). -/
def Chip.checkBlock (c : Chip) (slot : Nat) (write : Bool) (block : Nat) : Access :=
  let va := block * 4096
  match c.winAt slot va with
  | none => .prot
  | some w =>
    if (if write then !w.write else !w.read) then .prot
    else if w.type = 2 then (if c.pins.perstN then .ok else .prot)
    else match c.pageAt slot va with
      | none => .prot
      | some (_, p) =>
        if p.isRevoked then .revoked
        else if write && p.sealed_ then .sealed_
        else if (if write then !p.write else !p.read) then .prot
        else .ok

/-- The first failing block decides. -/
def firstBad : List Access → Access
  | [] => .ok
  | .ok :: t => firstBad t
  | a :: _ => a

/-- An access of a slot to a range (R258, R288): bits [63:57] of an address must be 0. -/
def Chip.check (c : Chip) (slot va n : Nat) (write : Bool) : Access :=
  if vaSpan < va + n ∨ c.deckleBad slot then .prot else firstBad ((blocksOf va n).map (c.checkBlock slot write))

/-- A range is permitted, sealed pages counted as writable by their attribute alone (checks 6 and 7 of R118). -/
def Chip.permitted (c : Chip) (slot va n : Nat) (write : Bool) : Bool :=
  match c.check slot va n write with
  | .ok => true
  | .sealed_ => true
  | _ => false

/-- A range touches a sealed page. -/
def Chip.touchesSealed (c : Chip) (slot va n : Nat) : Bool := (c.pagesIn slot va n).any (fun x => x.2.sealed_)

/-! ### Reading and writing -/

/-- One byte of a slot's range: from a host window by its PASID, else from the device pages. -/
def Chip.tread (c : Chip) (slot va : Nat) : Byte :=
  match c.winAt slot va with
  | some w =>
    if w.type = 2 then memGet c.host (hostKey (c.pasid w.slice) (w.hostBase + (va - w.base)))
    else memGet c.mem (devKey slot va)
  | none => 0

/-- Bytes of a slot's range. -/
def Chip.treadN (c : Chip) (slot va n : Nat) : List Byte := (List.range n).map (fun i => c.tread slot (va + i))

/-- A little-endian number of a slot's range. -/
def Chip.treadNat (c : Chip) (slot va n : Nat) : Nat := natLE (c.treadN slot va n)

/-- A page lies in the HBM of a lost ream (R341). -/
def Chip.pageLost (c : Chip) (p : Page) : Bool :=
  match p.place with
  | .t2 r => c.reamLost r
  | _ => false

/-- A 64-byte line holds poisoned data, or lies in the HBM of a lost ream. -/
def Chip.poisoned (c : Chip) (slot va n : Nat) : Bool :=
  c.poison.any (fun l => decide (l + 64 > devKey slot va) && decide (l < devKey slot va + n)) ||
  (c.health.hardCause == 0x12 && (c.pagesIn slot va n).any (fun x => c.pageLost x.2))

/-- A poisoned read is counted at the CXL device it came from (R256, R284). -/
def Chip.notePoison (c : Chip) (slot va n : Nat) : Chip :=
  (List.range 2).foldl (fun (c : Chip) (d : Nat) =>
    let on := fun (x : Nat × Page) => x.2.place == .cxl d && c.poison.any (fun l =>
      decide (max x.1 (devKey slot va) < l + 64) && decide (l < min (x.1 + pageBytes x.2.size) (devKey slot va + n)))
    if (c.pagesIn slot va n).any on then c.bump (R.CXL_STAT d) F.CXL_STAT.POISON 1 else c) c

/-- Set a bit of a dirty bitmap in host memory (R300): bit k in bit k mod 8 of byte k div 8. -/
def setDirty (host : Memory) (base k : Nat) : Memory :=
  let a := hostKey 0 (base + k / 8)
  memPut host a (memGet host a ||| BitVec.ofNat 8 (2 ^ (k % 8)))

/-- The bit index of an address in the bitmap of its window's type (R300): windows of the type
concatenated in index order, pages of `unit` bytes. -/
def dirtyIndex (ws : List Win) (type unit va : Nat) : Option Nat :=
  let r := ws.foldl (fun (acc : Nat × Option Nat) w =>
    if w.type ≠ type then acc
    else match acc.2 with
      | some _ => acc
      | none => if w.has va then (acc.1, some ((acc.1 + (va - w.base)) / unit)) else (acc.1 + w.size, none)) (0, none)
  r.2

/-- Log the page of one written address while DIRTY_EN is 1. -/
def Chip.dirtyByte (c : Chip) (slot va : Nat) : Chip :=
  let bank := c.fld (R.DIRTY_STAT slot) F.DIRTY_STAT.BANK
  match c.winAt slot va with
  | none => c
  | some w =>
    if w.type = 2 then
      match dirtyIndex (c.wins slot) 2 4096 va with
      | none => c
      | some k => { c with host := setDirty c.host (c.fld (R.DIRTY_H slot bank) F.DIRTY_H.BASE * 4096) k }
    else
      match dirtyIndex (c.wins slot) 1 65536 va with
      | none => c
      | some k => { c with host := setDirty c.host (c.fld (R.DIRTY_D slot bank) F.DIRTY_D.BASE * 4096) k }

/-- Log every page of a written range. -/
def Chip.dirty (c : Chip) (slot va n : Nat) : Chip :=
  if c.flag (R.DCK_CTL slot) F.DCK_CTL.DIRTY_EN then
    ((blocksOf va n).map (fun b => max va (b * 4096))).foldl (fun c a => c.dirtyByte slot a) c
  else c

/-- Add the 64 KiB blocks of a written range to a dirty set. -/
def addBlocks (l : List Nat) (va n : Nat) : List Nat :=
  let bs := (List.range ((va + n - 1) / 65536 + 1 - va / 65536)).map (fun i => va / 65536 + i)
  l ++ bs.filter (fun b => !l.contains b)

/-- A write to an enabled mirror entry's range is noted for both halves (R348). -/
def MirrorEntry.noteWrite (e : MirrorEntry) (slot va n : Nat) : MirrorEntry :=
  let base := fget e.v1 ⟨21, 36⟩ * 2097152
  let len := fget e.v0 ⟨18, 16⟩ * 2097152
  if n = 0 ∨ e.slot ≠ slot ∨ fget e.v0 ⟨34, 1⟩ = 0 ∨ base + len ≤ va ∨ va + n ≤ base then e
  else { e with dirtyA := addBlocks e.dirtyA va n, dirtyB := addBlocks e.dirtyB va n }

/-- Put bytes into a slot's range without a check. -/
def Chip.tput (c : Chip) (slot va : Nat) : List Byte → Chip
  | [] => c
  | b :: t =>
    let c := match c.winAt slot va with
      | some w =>
        if w.type = 2 then
          { c with host := memPut c.host (hostKey (c.pasid w.slice) (w.hostBase + (va - w.base))) b }
        else { c with mem := memPut c.mem (devKey slot va) b }
      | none => c
    c.tput slot (va + 1) t

/-- A write that the part makes on a slot's behalf: the bytes, the dirty log, the mirrors' dirty blocks, and the
poison of lines that it covers whole. -/
def Chip.twrite (c : Chip) (slot va : Nat) (bs : List Byte) : Chip :=
  let c := (c.tput slot va bs).dirty slot va bs.length
  { c with mirrors := c.mirrors.map (fun x => (x.1, x.2.noteWrite slot va bs.length)),
           poison := c.poison.filter (fun l => !(decide (devKey slot va ≤ l) && decide (l + 64 ≤ devKey slot va + bs.length))) }

/-- A read counts toward its page (R269). -/
def Chip.countRead (c : Chip) (slot va : Nat) : Chip :=
  match c.pageAt slot va with
  | none => c
  | some (k, p) => { c with pages := tabPut c.pages k { p with reads := p.reads + 1, lastRead := c.interval } }

/-! ### Use of the tiers (R266 to R268) -/

/-- The tier a page is charged to: 0 T2, 1 T3, 2 T4; none when revoked or when charged to the radio
reservation. -/
def Page.tier (p : Page) : Option Nat :=
  match p.place with
  | .t2 _ => some 0
  | .cxl _ => some 1
  | .hostPool _ => some 1
  | .t4 _ => some 2
  | .revoked => none

/-- Couch bytes charged to a slot's T2 (R134). -/
def Chip.couchBytes (c : Chip) (slot : Nat) : Nat :=
  c.contexts.foldl (fun a x => if x.2.slot = slot then a + x.2.couchPages * 2097152 else a) 0

/-- The use of a tier by a slot in bytes: its pages that neither the radio reservation nor the prefix pool
pays for, and its couch areas in T2. -/
def Chip.tierUse (c : Chip) (slot tier : Nat) : Nat :=
  let pages := c.pages.foldl (fun a x =>
    if keySlot x.1 = slot ∧ x.2.radio = false ∧ x.2.pfx = false ∧ x.2.tier = some tier then a + pageBytes x.2.size else a) 0
  pages + (if tier = 0 then c.couchBytes slot else 0)

/-- The quota of a tier in bytes. -/
def Chip.tierQuota (c : Chip) (slot tier : Nat) : Nat :=
  let r := c.reg (R.DCK_QUOTA slot)
  2 ^ 30 * (match tier with
    | 0 => fget r F.DCK_QUOTA.T2_GIB
    | 1 => fget r F.DCK_QUOTA.T3_GIB
    | _ => fget r F.DCK_QUOTA.T4_GIB)

/-- HBM of an assembly in GiB (R22): 64 GiB in each stack. -/
def Part.hbmGib : Part → Nat
  | .fdn12h2d => 768
  | .fdn8h2d => 512
  | .fdn12h1d => 768

/-- GiB lent to neighbours: windows taken and not yet returned. -/
def Chip.lentGib (c : Chip) : Nat :=
  (List.range 16).foldl (fun a w =>
    if c.fld (R.LEND_STAT w) F.LEND_STAT.STATE = 0 then a else a + c.fld (R.LEND_WIN0 w) F.LEND_WIN0.SIZE_GIB) 0

/-- Bytes of T2 that are free: the HBM less the radio reservation, the prefix-cache share, lent windows,
mapped pages and couch areas. -/
def Chip.t2Free (c : Chip) : Nat :=
  let all := 2 ^ 30 * (c.ident.part.hbmGib - c.fld R.TIER_CFG F.TIER_CFG.RADIO_T2_GIB -
    c.fld R.TIER_CFG F.TIER_CFG.PFX_T2_GIB - c.lentGib)
  let used := c.pages.foldl (fun a x => if x.2.radio = false ∧ x.2.pfx = false ∧ x.2.tier = some 0 then a + pageBytes x.2.size else a) 0
  let couch := c.contexts.foldl (fun a x => a + x.2.couchPages * 2097152) 0
  all - used - couch

/-- Bytes held by pages at a place. -/
def Chip.placeUse (c : Chip) (p : PagePlace) : Nat :=
  c.pages.foldl (fun a x => if x.2.place = p then a + pageBytes x.2.size else a) 0

/-- Capacity of a place other than T2, in bytes. -/
def Chip.placeCap (c : Chip) : PagePlace → Nat
  | .cxl d => 2 ^ 30 * c.fld (R.CXL_STAT d) F.CXL_STAT.CAP_GIB
  | .hostPool h => if c.flag (R.HOST_POOL h) F.HOST_POOL.ENABLE then 2 ^ 30 * c.fld (R.HOST_POOL h) F.HOST_POOL.SIZE_GIB else 0
  | .t4 w =>
    if c.fld (R.BORROW_STAT w) F.BORROW_STAT.STATE = 2 then 2 ^ 30 * c.fld (R.BORROW_WIN0 w) F.BORROW_WIN0.SIZE_GIB else 0
  | _ => 0

/-- A place has room for so many bytes. -/
def Chip.placeRoom (c : Chip) (p : PagePlace) (n : Nat) : Bool := decide (c.placeUse p + n ≤ c.placeCap p)

/-- The T3 places, expanders first. -/
def t3Places : List PagePlace := (List.range 2).map .cxl ++ (List.range 8).map .hostPool

/-- The T4 places. -/
def t4Places : List PagePlace := (List.range 16).map .t4

/-- The first place of a list with room. -/
def Chip.findPlace (c : Chip) (l : List PagePlace) (n : Nat) : Option PagePlace := l.find? (fun p => c.placeRoom p n)

/-- A slot's quota of a tier has room. -/
def Chip.quotaRoom (c : Chip) (slot tier n : Nat) : Bool := decide (c.tierUse slot tier + n ≤ c.tierQuota slot tier)

/-- The kind of a slot: 0 inference, 1 radio, 2 management. -/
def Chip.slotKind (c : Chip) (slot : Nat) : Nat := c.fld (R.DCK_CTL slot) F.DCK_CTL.KIND

/-- The state of a slot (R286): 0 free, 1 active, 2 draining. -/
def Chip.slotState (c : Chip) (slot : Nat) : Nat := c.fld (R.TEN_STAT slot) F.TEN_STAT.STATE

/-- GiB, rounded up. -/
def gibUp (n : Nat) : Nat := ceilDiv n (2 ^ 30)

/-! ### Words firmware sends unprompted (R304) -/

/-- The key of a mailbox: the host's four first, then four for each slice. -/
def mbxKey (side : MbxSide) (n : Nat) : Nat :=
  match side with
  | .host => n
  | .slice i => (i.val + 1) * 4 + n

/-- The inward word register of a mailbox. -/
def mbxIn (side : MbxSide) (n : Nat) : RegRef :=
  match side with
  | .host => R.HMBX_IN n
  | .slice i => R.MBX_IN i.val n

/-- The outward word register of a mailbox. -/
def mbxOut (side : MbxSide) (n : Nat) : RegRef :=
  match side with
  | .host => R.HMBX_OUT n
  | .slice i => R.MBX_OUT i.val n

/-- The status register of a mailbox. -/
def mbxStat (side : MbxSide) : RegRef :=
  match side with
  | .host => R.HMBX_STAT
  | .slice i => R.MBX_STAT i.val

/-- Firmware has a word for a mailbox: it joins the queue of up to 16, beyond which it is dropped and
counted (R302). -/
def Chip.mbxPost (c : Chip) (side : MbxSide) (n : Nat) (w : W32) : Chip :=
  let k := mbxKey side n
  let q := tabGetD c.mbxQueue k []
  if 16 ≤ q.length then c.bump (mbxStat side) F.MBX_STAT.FW_DROP 1
  else { c with mbxQueue := tabPut c.mbxQueue k (q ++ [w]) }

/-- Slice page commands act only through an enabled slice whose entry keeps its complement (R334). -/
def Chip.sliceOn (c : Chip) (i : Nat) : Bool := c.flag (R.SLICE i) F.SLICE.ENABLE && !c.damaged.contains (.sliceEntry (Fin.ofNat 1024 i))

/-- An unprompted word to MBX_IN[0] of every enabled slice bound to a slot. -/
def Chip.mbxTell (c : Chip) (slot type data : Nat) : Chip :=
  ((List.range 1024).filter (fun i => c.sliceOn i && c.sliceSlot i == slot)).foldl
    (fun c i => c.mbxPost (.slice (Fin.ofNat 1024 i)) 0 (BitVec.ofNat 32 (type * 2 ^ 28 + data % 2 ^ 28))) c

/-- An allocation refused for its quota is told to the slot (R304). -/
def Chip.quotaFull (c : Chip) (slot tier : Nat) : Chip := c.mbxTell slot 3 (tier * 2 ^ 26)

end Sys2Proof.Machine
end

