-- ==== Sys2Proof/Machine/Tasks.lean ====
section
/-! DEFINITION. Tasks on sheets (R126 to R133): gangs and queues, giving a free sheet its next task, the kill and the
re-queue, and how a command ends before its time. -/

namespace Sys2Proof.Machine

/-! ### Commands and contexts -/

/-- An outstanding command. -/
def Chip.command (c : Chip) (uid : Nat) : Option Command := c.commands.find? (fun k => k.uid == uid)

/-- Change an outstanding command. -/
def Chip.updCommand (c : Chip) (uid : Nat) (f : Command → Command) : Chip :=
  { c with commands := c.commands.map (fun k => if k.uid = uid then f k else k) }

/-- A context. -/
def Chip.context (c : Chip) (n : Nat) : Option Context := tabGet c.contexts n

/-- The position of a context's logical sheet t: quire × 64 + logical sheet in the quire. -/
def Context.posOf (x : Context) (i : Nat) : Nat := nth x.gang i 0

/-- The index in its gang of a position. -/
def Context.indexOf (x : Context) (pos : Nat) : Option Nat := x.gang.findIdx? (· == pos)

/-- A quire at reset. -/
def quireReset : Quire := ⟨[], [], [], [], none, [], false, 0, 0⟩

/-- Quire q. -/
def Chip.quire (c : Chip) (q : Nat) : Quire := tabGetD c.quires q quireReset

/-- Change quire q. -/
def Chip.updQuire (c : Chip) (q : Nat) (f : Quire → Quire) : Chip :=
  { c with quires := tabPut c.quires q (f (c.quire q)) }

/-- The sheet keys of a quire: its 66 positions, each with a place for a second logical sheet. -/
def quireKeys (q : Nat) : List Nat := (List.range 132).map (fun i => q * 132 + i)

/-- The quire of a sheet key. -/
def keyQuire (k : Nat) : Nat := k / 132

/-- The primary key of a sheet's position. -/
def keyPrimary (k : Nat) : Nat := k / 2 * 2

/-- The logical sheet that a key carries, if any (R108). -/
def Chip.keyLogical (c : Chip) (k : Nat) : Option Nat :=
  let p := c.sheetK (keyPrimary k)
  if p.role = .active then p.logical[k % 2]? else none

/-- The key that carries a logical sheet of a quire. -/
def Chip.sheetOf (c : Chip) (q l : Nat) : Option Nat := (quireKeys q).find? (fun k => c.keyLogical k == some l)

/-- The number of active sheets of a quire (R12). -/
def Chip.activeSheets (c : Chip) (q : Nat) : Nat :=
  ((List.range 66).filter (fun p => (c.sheetK (q * 132 + 2 * p)).role == .active)).length

/-- A quire runs work: it is neither isolated nor asleep (QUIRE_HEALTH.STATE 0). -/
def Chip.quireUp (c : Chip) (q : Nat) : Bool := c.fld (R.QUIRE_HEALTH q) F.QUIRE_HEALTH.STATE == 0

/-- The radio floor of a ream in sheets (R204); a mismatched FLOOR_CFG counts as no floor (R334). -/
def Chip.floorSheets (c : Chip) (ream : Nat) : Nat :=
  if c.damaged.contains (.floorCfg (Fin.ofNat 4 ream)) then 0 else c.fld (R.FLOOR_CFG ream) F.FLOOR_CFG.FLOOR_SHEETS

/-- A quire is not isolated (QUIRE_HEALTH.STATE 1, or 3 while it is tested). -/
def Chip.quireIn (c : Chip) (q : Nat) : Bool :=
  c.fld (R.QUIRE_HEALTH q) F.QUIRE_HEALTH.STATE != 1 && c.fld (R.QUIRE_HEALTH q) F.QUIRE_HEALTH.STATE != 3

/-- A ream is in emergency (R211): it places no class 1 to 3 task. -/
def Chip.emergency (c : Chip) (ream : Nat) : Bool := c.flag (R.REAM_CAP ream) F.REAM_CAP.EMERG

/-- The radio-home quire of a ream (R200): its lowest quire that is not isolated. -/
def Chip.radioHome (c : Chip) (ream : Nat) : Nat :=
  ((List.range 8).find? (fun i => c.quireIn (ream * 8 + i))).getD 0 + ream * 8

/-- The radio region of a ream's radio-home pool in MiB: the field's value, in emergency 6 (R204). -/
def Chip.radioMib (c : Chip) (ream : Nat) : Nat :=
  if c.emergency ream then 6 else c.fld (R.FLOOR_CFG ream) F.FLOOR_CFG.RADIO_POOL_MIB

/-- A logical sheet of a quire belongs to the radio floor: floor sheets go in ascending order from quire 0, past isolated
quires (R204). -/
def Chip.inFloor (c : Chip) (q l : Nat) : Bool :=
  c.quireIn q &&
  decide (((List.range (q % 8)).filter (fun i => c.quireIn (q / 8 * 8 + i))).length * 64 + l < c.floorSheets (q / 8))

/-! ### Queues (R126) -/

/-- The queue of a logical sheet of a quire. -/
def Quire.queue (x : Quire) (l : Nat) : List Task :=
  match x.queues.find? (fun t => t.logical == l) with
  | some t => t.tasks
  | none => []

/-- Put the queue of a logical sheet. -/
def Quire.setQueue (x : Quire) (l : Nat) (ts : List Task) : Quire :=
  let rest := x.queues.filter (fun t => t.logical != l)
  { x with queues := if ts.isEmpty then rest else ⟨l, ts⟩ :: rest }

/-- The task queue of a position. -/
def Chip.queueAt (c : Chip) (pos : Nat) : List Task := (c.quire (pos / 64)).queue (pos % 64)

/-- Put the task queue of a position. -/
def Chip.setQueueAt (c : Chip) (pos : Nat) (ts : List Task) : Chip := c.updQuire (pos / 64) (fun x => x.setQueue (pos % 64) ts)

/-- The ream of a position. -/
def posReam (pos : Nat) : Nat := pos / 512

/-- Tasks that wait in a ream's scheduler (R126). -/
def Chip.waitingAt (c : Chip) (ream : Nat) : List Task := tabGetD c.waiting ream []

/-- The position a task runs on: its context's logical sheet. -/
def Chip.taskPos (c : Chip) (t : Task) : Nat :=
  match c.context t.ctx with
  | some x => x.posOf t.logical
  | none => 0

/-- A task goes to the tail of its own queue, or waits in its ream's scheduler when that holds 16 entries. -/
def Chip.enqueue (c : Chip) (t : Task) : Chip :=
  let pos := c.taskPos t
  let q := c.queueAt pos
  if 16 ≤ q.length then
    { c with waiting := tabPut c.waiting (posReam pos) (c.waitingAt (posReam pos) ++ [t]) }
  else c.setQueueAt pos (q ++ [t])

/-- Tasks that waited in a ream's scheduler move on, in order, to queues with room. -/
def Chip.refill (c : Chip) (ream : Nat) : Chip :=
  let ts := c.waitingAt ream
  ts.foldl (fun c t => c.enqueue t) { c with waiting := tabDel c.waiting ream }

/-! ### Choosing a task for a free sheet (R129, R130) -/

/-- The effective deadline of a class 1 command (R130). -/
def Chip.effDeadline (c : Chip) (k : Command) : Nat :=
  if k.desc.deadline = 0 then k.accepted + c.fld (R.DCK_CTL k.slot) F.DCK_CTL.DEF_DEADLINE * 10000 else k.desc.deadline

/-- The submission queue of a command. -/
def Command.sqOf (k : Command) : Nat :=
  match k.source with
  | .sq q _ _ _ => q
  | .event _ => 0

/-- The order of R129 as a list compared from its head: class, then the class's own order. -/
def Chip.taskRank (c : Chip) (rr : Nat) (t : Task) : List Nat :=
  match c.command t.cmd with
  | none => [4]
  | some k =>
    match t.cls with
    | 0 => [0, k.desc.deadline, k.accepted, k.uid, t.index]
    | 1 => [1, c.effDeadline k, k.accepted, k.slot, k.sqOf, k.uid, t.index]
    | 2 => [2, (k.slot + 63 - rr) % 64, k.accepted, k.uid, t.index]
    | _ => [3, k.accepted, k.uid, t.index]

/-- Lexicographic order. -/
def listLt : List Nat → List Nat → Bool
  | [], [] => false
  | [], _ :: _ => true
  | _ :: _, [] => false
  | a :: s, b :: t => decide (a < b) || (a == b && listLt s t)

/-- The first of a list of tasks in an order of ranks. -/
def bestTask (rank : Task → List Nat) : List Task → Option Task
  | [] => none
  | t :: ts =>
    match bestTask rank ts with
    | none => some t
    | some u => if listLt (rank u) (rank t) then some u else some t

/-- A task may run: its command has not ended and its context is on chip (class 0 tasks are pinned). -/
def Chip.runnable (c : Chip) (t : Task) : Bool :=
  (match c.command t.cmd with
   | some k => k.ending.isNone
   | none => false) &&
  (t.cls == 0 ||
   (match c.context t.ctx with
    | some x => x.place == .onChip
    | none => t.ctx == 0xFFFF))

/-- A sheet can take a task: active, empty, not releasing, and its quire runs work. -/
def Chip.freeSheet (c : Chip) (k : Nat) : Bool :=
  let sh := c.sheetK k
  (c.keyLogical k).isSome && sh.task.isNone && !sh.killing && !(c.sheetK (keyPrimary k)).retireAsked && c.quireUp (keyQuire k)

/-- Start a task on a sheet (R75, R116). -/
def Chip.startTask (c : Chip) (k : Nat) (t : Task) : Chip :=
  match c.command t.cmd with
  | none => c
  | some cmd =>
    let shared := match tabGet c.programs cmd.desc.program with
      | some p => p.shared
      | none => false
    let sh := (c.sheetK k).start { t with logical := (c.keyLogical k).getD 0 } cmd.desc.params shared
    c.setSheetK k { sh with started := c.time.uptime }

/-- The sheets of a ream that run class 0 tasks. -/
def Chip.radioSheets (c : Chip) (ream : Nat) : Nat :=
  (c.sheets.filter (fun x => keyQuire x.1 / 8 == ream && (match x.2.task with
    | some t => t.cls == 0
    | none => false))).length

/-- The most sheets that radio has held at once on a ream (R220). -/
def Chip.notePeak (c : Chip) (ream : Nat) : Chip :=
  c.setFld (R.ACQ_STAT ream) F.ACQ_STAT.PEAK_SHEETS (max (c.fld (R.ACQ_STAT ream) F.ACQ_STAT.PEAK_SHEETS) (c.radioSheets ream))

/-- Class 0 tasks ready on a ream (R205). -/
def Chip.radioAt (c : Chip) (ream : Nat) : List Task := tabGetD c.radioReady ream []

/-- The class 0 task that a ream's next sheet goes to: one whose sheet failed while it was taken (R14), else the first in
order. -/
def Chip.nextRadio (c : Chip) (ream : Nat) : Option Task :=
  let ready := (c.radioAt ream).filter c.runnable
  match (tabGetD c.radioFirst ream []).find? (fun t => ready.contains t) with
  | some t => some t
  | none => bestTask (c.taskRank 0) ready

/-! ### Kill and re-queue (R92, R107, R132) -/

/-- Free the walk slots of a sheet's task (R232). -/
def Chip.freeWalks (c : Chip) (key : Nat) : Chip :=
  let q := keyQuire key
  { c with
    walks := tabUpd c.walks q [] (fun l => l.map (fun w => match w with
      | some x => if x.key = key then none else some x
      | none => none))
    walkWait := c.walkWait.filter (fun x => x.1 != key) }

/-- The positions of a gang that lie in one quire. -/
def Context.posIn (x : Context) (q : Nat) : List Nat := x.gang.filter (fun p => p / 64 == q)

/-- The shortest queue among positions, the lowest position on a tie. -/
def Chip.shortest (c : Chip) : List Nat → Option Nat
  | [] => none
  | p :: ps =>
    match c.shortest ps with
    | none => some p
    | some r => if (c.queueAt r).length < (c.queueAt p).length then some r else some p

/-- A command is pinned, or joined: its tasks keep their own logical sheets (R127). -/
def Command.fixedSheets (k : Command) : Bool := k.desc.flags.testBit 3 || k.desc.mode == 2

/-- The share of a command's task indices that goes to a ream: the reams of the gang in order, each in proportion to its logical
sheets among those that the command uses (R126). -/
def reamShare (gang : List Nat) (tasks ream : Nat) : Nat × Nat :=
  let below := (gang.filter (fun p => decide (posReam p < ream))).length
  let upto := (gang.filter (fun p => decide (posReam p ≤ ream))).length
  (tasks * below / gang.length, tasks * upto / gang.length)

/-- The position on whose queue task t of a command first goes (R126): logical sheet t mod FOOTPRINT; where the context spans
reams, the task's place among the sheets of the ream whose range holds it; in joined mode logical sheet t mod 64 of the quire that
takes group t div 64 (log entry 36). -/
def Chip.homePos (x : Context) (k : Command) (t : Nat) : Nat :=
  let gang := x.gang.take k.desc.footprint
  if k.desc.mode = 2 then
    let quires := (gang.map (fun p => p / 64)).eraseDups
    nth quires (t / 64 % quires.length) 0 * 64 + t % 64
  else
    let ream := ((List.range 4).find? (fun r =>
      let s := reamShare gang k.desc.tasks r
      decide (s.1 ≤ t) && decide (t < s.2))).getD 0
    let own := gang.filter (fun p => posReam p == ream)
    if own.length = gang.length then nth gang (t % gang.length) 0 else nth own (t % own.length) 0

/-- Put a killed task back at the head of a queue of its gang, its attempt number increased (R132); a class 0 task
returns to its home ream's ready tasks. `pos` is where it ran. -/
def Chip.requeue (c : Chip) (t : Task) (pos : Nat) : Chip :=
  let t := { t with attempt := t.attempt + 1 }
  if t.cls = 0 then
    { c with radioReady := tabPut c.radioReady (posReam pos) (t :: c.radioAt (posReam pos)) }
  else
    match c.context t.ctx, c.command t.cmd with
    | some x, some k =>
      let own := Chip.homePos x k t.index
      let target := if k.fixedSheets then own else (c.shortest (x.posIn (pos / 64))).getD own
      let t := { t with logical := (x.indexOf target).getD 0 }
      if x.place = .onChip then c.setQueueAt target (t :: c.queueAt target)
      else { c with contexts := tabPut c.contexts t.ctx { x with queued := t :: x.queued } }
    | _, _ => c

/-- The position of a sheet's key. -/
def Chip.keyPos (c : Chip) (k : Nat) : Nat := keyQuire k * 64 + (c.keyLogical k).getD 0

/-- Kill the task of one sheet (R92): the sheet drops it without a trace and starts its release; the attempt
counts in RERUNS when it runs again. -/
def Chip.killSheet (c : Chip) (k : Nat) (again : Bool) : Chip :=
  let sh := c.sheetK k
  match sh.task with
  | none => c
  | some t =>
    let c := c.perf (.sheet (keyAt k)) 0x0F 1 ⟨sh.pc, t.ctx, some t.slot, some t.cls⟩
    let c := (c.setSheetK k { sh.discard with killing := true }).freeWalks k
    let c := c.bump (R.SCHED_CNT0 (keyQuire k / 8)) F.SCHED_CNT0.KILLS 1
    if again then
      (c.updCommand t.cmd (fun m => { m with reruns := m.reruns + 1 })).requeue t (c.keyPos k)
    else c

/-- The sheets that run tasks of one joined group. -/
def Chip.groupKeys (c : Chip) (cmd group : Nat) : List Nat :=
  c.sheets.filterMap (fun x =>
    match x.2.task with
    | some t => if t.cmd = cmd ∧ t.index / 64 = group then some x.1 else none
    | none => none)

/-- The task indices of a joined group of a command. -/
def Command.groupOf (m : Command) (group : Nat) : List Nat :=
  ((List.range 64).map (fun i => group * 64 + i)).filter (fun i => decide (i < m.desc.tasks))

/-- A task of a command waits in a queue or with a couched context. -/
def Chip.waits (c : Chip) (uid i : Nat) : Bool :=
  let is := fun (t : Task) => t.cmd == uid && t.index == i
  c.quires.any (fun x => x.2.queues.any (fun y => y.tasks.any is)) || c.waiting.any (fun x => x.2.any is) ||
    c.contexts.any (fun x => x.2.queued.any is || x.2.images.any (fun y => y.task.any is))

/-- A kill request for a sheet's task; for one of a joined group it kills all of the group, whose 64 tasks run again together, those too that
have committed, unless all have (R107). -/
def Chip.killTask (c : Chip) (k : Nat) (again : Bool) : Chip :=
  match (c.sheetK k).task with
  | none => c
  | some t =>
    match c.command t.cmd with
    | none => c.killSheet k false
    | some m =>
      if m.desc.mode = 2 then
        let keys := c.groupKeys t.cmd (t.index / 64)
        let own := m.groupOf (t.index / 64)
        let again := again && !own.all (fun i => m.committed.contains i)
        let gone := own.filter (fun i => m.committed.contains i && !c.waits t.cmd i &&
          !keys.any (fun j => (c.sheetK j).task.any (fun u => u.index == i)))
        let d := keys.foldl (fun c j => c.killSheet j again) c
        if again then gone.foldl (fun d i => d.requeue { t with index := i, attempt := 0 } (c.keyPos k)) d else d
      else c.killSheet k again

/-- A task belongs to a joined command of class 1 to 3. -/
def Chip.isJoined (c : Chip) (t : Task) : Bool :=
  t.cls != 0 && (match c.command t.cmd with
    | some m => m.desc.mode == 2
    | none => false)

/-- The sheets of a quire that run tasks of joined groups. -/
def Chip.joinedOn (c : Chip) (q : Nat) : List Nat := (quireKeys q).filter (fun k => (c.sheetK k).task.any c.isJoined)

/-- A joined group may be placed on a quire: no sheet of it holds a class 0 task, and none is part of the radio floor (R106). -/
def Chip.joinedOk (c : Chip) (q : Nat) : Bool :=
  (quireKeys q).all (fun k => !(c.sheetK k).task.any (fun t => t.cls == 0)) && (List.range 64).all (fun l => !c.inFloor q l)

/-! ### Class 0 tasks and the next task of a sheet (R106, R129, R205) -/

/-- A class 0 task needs a sheet of a quire: the joined groups that have begun there are killed (R106). -/
def Chip.clearJoined (c : Chip) (q ream : Nat) : Chip :=
  let keys := c.joinedOn q
  if keys.isEmpty then c
  else
    let c := (keys.foldl (fun (c : Chip) k => c.killTask k true) c).bump (R.GUST_CNT ream) F.GUST_CNT.KILLS keys.length
    c.perf (.ream (Fin.ofNat 4 ream)) 0x02 keys.length

/-- A ready class 0 task starts on a sheet. -/
def Chip.startRadio (c : Chip) (k ream : Nat) (t : Task) : Chip :=
  let c := c.clearJoined (keyQuire k) ream
  let c := { c with
    radioReady := tabPut c.radioReady ream ((c.radioAt ream).filter (fun u => u != t)),
    radioFirst := tabUpd c.radioFirst ream [] (fun l => l.filter (fun u => u != t)) }
  (c.startTask k t).notePeak ream

/-- Give a free sheet its next task (R129): class 0 first, then, outside the radio floor (R204), its own queue in class
order, a joined task only where R106 lets its group be placed. Class 3 runs only when nothing else waits for the sheet, which the class order gives. -/
def Chip.assign (c : Chip) (k : Nat) : Chip :=
  if ¬ c.freeSheet k then c
  else
    let q := keyQuire k
    let ream := q / 8
    match c.nextRadio ream with
    | some t => c.startRadio k ream t
    | none =>
      match c.keyLogical k with
      | none => c
      | some l =>
        if c.inFloor q l || c.emergency ream then c
        else
          let ts := (c.quire q).queue l
          match bestTask (c.taskRank (c.quire q).rr) (ts.filter (fun t => c.runnable t && (!c.isJoined t || c.joinedOk q))) with
          | none => c
          | some t =>
            let c := c.updQuire q (fun x =>
              { x.setQueue l (ts.filter (fun u => u != t)) with rr := if t.cls = 2 then t.slot else x.rr })
            (c.startTask k t).refill ream

/-- Every free sheet of a quire is offered its next task. -/
def Chip.assignQuire (c : Chip) (q : Nat) : Chip := (quireKeys q).foldl (fun c k => c.assign k) c

/-- Every free sheet of a ream is offered its next task. -/
def Chip.assignReam (c : Chip) (ream : Nat) : Chip := (List.range 8).foldl (fun c q => c.assignQuire (ream * 8 + q)) c

/-- The sheets that run tasks which satisfy a test. -/
def Chip.keysWhere (c : Chip) (p : Task → Bool) : List Nat :=
  c.sheets.filterMap (fun x =>
    match x.2.task with
    | some t => if p t then some x.1 else none
    | none => none)

/-- The task of a couched sheet is dropped without a trace (R92, R136): the regions it claimed are untagged. -/
def SheetImage.kill (i : SheetImage) : SheetImage :=
  { i with task := none, wait := none, window := [], stalled := [], records := [], deferred := [], notReady := [],
           tags := i.tags.filter (fun x => !i.claimed.contains x.1), claimed := [],
           banks := List.replicate 4 bankReset, xregs := List.replicate 32 0, pc := 0, csrs := .zero }

/-- Drop the waiting tasks that satisfy a test from every queue. -/
def Chip.dropTasks (c : Chip) (p : Task → Bool) : Chip :=
  let keep := fun (ts : List Task) => ts.filter (fun t => !p t)
  let quire := fun (x : Quire) => { x with queues := x.queues.map (fun q => { q with tasks := keep q.tasks }) }
  let image := fun (i : SheetImage) => if i.task.any p then i.kill else i
  let ctx := fun (x : Context) => { x with queued := keep x.queued, images := x.images.map image }
  { c with
    quires := c.quires.map (fun x => (x.1, quire x.2)),
    waiting := c.waiting.map (fun x => (x.1, keep x.2)),
    radioReady := c.radioReady.map (fun x => (x.1, keep x.2)),
    contexts := c.contexts.map (fun x => (x.1, ctx x.2)) }

/-! ### What a context holds on chip -/

/-- A context's own tag on a region: what a sheet holds for it. -/
def Sheet.regionsOf (sh : Sheet) (n : Nat) : List Nat := (sh.tags.filter (fun x => x.2 == n)).map (·.1)

/-- A sheet without what it held for a context. -/
def Sheet.leave (sh : Sheet) (n : Nat) : Sheet :=
  let mine := match sh.task with
    | some t => t.ctx == n
    | none => false
  let sh := if mine then sh.discard else sh
  let rs := sh.regionsOf n
  { sh with tags := sh.tags.filter (fun x => x.2 != n), felt := sh.felt.filter (fun x => !rs.contains (x.1 / 4096)) }

/-- A quire's pool without a context's bytes. -/
def Quire.dropPool (y : Quire) (n : Nat) : Quire := { y with pool := y.pool.filter (fun x => x.1 / 2 ^ 32 != n) }

/-- What a context holds on chip is freed. -/
def Chip.freeContext (c : Chip) (n : Nat) : Chip :=
  let c : Chip := { c with sheets := c.sheets.map (fun (y : Nat × Sheet) => (y.1, y.2.leave n)),
                           quires := c.quires.map (fun (y : Nat × Quire) => (y.1, y.2.dropPool n)) }
  { c with contexts := tabDel c.contexts n, swaps := c.swaps.filter (fun s => s.2 != n) }

/-- A command ends before its time: its uncommitted tasks are killed, none is placed any more, and it completes
with this status once its begun commits have drained (R94, R125, R131, R280). The first ending stands. -/
def Chip.endCommand (c : Chip) (uid : Nat) (e : CmdEnd) : Chip :=
  match c.command uid with
  | none => c
  | some m =>
    if m.ending.isSome then c
    else
      let c := c.updCommand uid (fun m => { m with ending := some e })
      let c := c.dropTasks (fun t => t.cmd == uid)
      (c.keysWhere (fun t => t.cmd == uid)).foldl (fun c k => c.killSheet k false) c

/-- The status of a trap cause (R94). -/
def trapStatus (cause : Nat) : Nat := if cause = 4 ∨ cause = 5 then 0x10 else 0x13

/-- A trap kills the task and ends its command (R94). -/
def Chip.trap (c : Chip) (k cause : Nat) : Chip :=
  let sh := c.sheetK k
  match sh.task with
  | none => c
  | some t => c.endCommand t.cmd ⟨trapStatus cause, cause, sh.pc.toNat⟩

/-- A context's commits that have not drained: their slots (R282). -/
def Chip.undrained (c : Chip) (ctx : Nat) : Bool := c.quires.any (fun x => x.2.slots.any (fun s => s.task.ctx == ctx))

end Sys2Proof.Machine
end

