-- ==== Sys2Proof/Machine/Tenants.lean ====
section
/-! DEFINITION. Tenant slots, deckles, keys, slices, rings, dirty-log banks, mailboxes and locks (R285 to R308). -/

namespace Sys2Proof.Machine

/-! ### Complemented writes (R7) -/

/-- Release what a requester holds of the complemented pair whose first value word stands at `a`; `two` says that the pair has two
value words (R7). -/
def Chip.releasePair (c : Chip) (r : Requester) (a : Nat) (two : Bool) : Chip :=
  c.setReq r (fun q => { q with held := if two then tabDel (tabDel (tabDel q.held a) (a + 8)) (a + 16) else tabDel q.held a })

/-- Who may write configuration at an early stage, and the comparison of a complemented write: a mismatch keeps
the old value and raises INTEGRITY at the owning level; the requester's held words are released. -/
def pairWrite (r : Requester) (at_ : ErrAt) (a : Nat) (two ok : Bool) (apply : Chip → Chip) (c : Chip) : Chip :=
  if ¬ mayReachBar0 r then c
  else if c.early r then c.noteEarly
  else (if ok then apply c else c.integrity at_).releasePair r a two

/-- A refused tenant write: CFG_REFUSED and the reason in TEN_STAT (R289). -/
def Chip.tenRefuse (c : Chip) (slot err : Nat) : Chip :=
  (c.mark (R.TEN_STAT slot) F.TEN_STAT.CFG_REFUSED).setFld (R.TEN_STAT slot) F.TEN_STAT.ERR err

/-- An accepted tenant command: ERR reads done. -/
def Chip.tenDone (c : Chip) (slot : Nat) : Chip := c.setFld (R.TEN_STAT slot) F.TEN_STAT.ERR 0

/-! ### Cells of a slot -/

/-- A cell is not down (CELL_STAT.STATE); a shed cell stays down (R212). -/
def Chip.cellUp (c : Chip) (cell : Nat) : Bool :=
  let s := c.fld (R.CELL_STAT cell) F.CELL_STAT.STATE
  s != 0 && s != 5

/-- The cell range of a slot (R299). -/
def Chip.cellRange (c : Chip) (slot : Nat) : Nat × Nat :=
  (c.fld (R.DCK_RADIO slot) F.DCK_RADIO.CELL_BASE, c.fld (R.DCK_RADIO slot) F.DCK_RADIO.CELL_COUNT)

/-- A number lies in a (base, count) range. -/
def inRange (x : Nat) (r : Nat × Nat) : Bool := decide (r.1 ≤ x) && decide (x < r.1 + r.2)

/-- Some cell of the slot is not down. -/
def Chip.slotCellsUp (c : Chip) (slot : Nat) : Bool :=
  (List.range 1024).any (fun k => inRange k (c.cellRange slot) && c.cellUp k)

/-- The value of a TLV of a cell's configuration. -/
def Cell.tlv (x : Cell) (tag : Nat) : Option Nat := (x.cfg.tlvs.find? (fun t => t.tag == tag)).map (fun t => natLE t.value)

/-! ### The deckle (R288 to R290) -/

/-- The registers of a slot's deckle as they would stand after a write. -/
structure Deckle where
  ctl : W64
  quota : W64
  limits : W64
  radio : W64
  wins : List Win
deriving DecidableEq, Repr

/-- The deckle of a slot. -/
def Chip.deckle (c : Chip) (slot : Nat) : Deckle :=
  ⟨c.reg (R.DCK_CTL slot), c.reg (R.DCK_QUOTA slot), c.reg (R.DCK_LIMITS slot), c.reg (R.DCK_RADIO slot), c.wins slot⟩

/-- A deckle with one register replaced. -/
def Deckle.put (d : Deckle) (reg : DeckleReg) (v0 v1 : W64) : Deckle :=
  match reg with
  | .ctl => { d with ctl := v0 }
  | .quota => { d with quota := v0 }
  | .limits => { d with limits := v0 }
  | .radio => { d with radio := v0 }
  | .win w => { d with wins := setNth d.wins w.val (winOf v0 v1) }
  | _ => d

/-- Two (base, count) ranges overlap. -/
def overlap (a b : Nat × Nat) : Bool := decide (a.1 < b.1 + b.2) && decide (b.1 < a.1 + a.2)

/-- The vector range of a limits word. -/
def vecRange (l : W64) : Nat × Nat := (fget l F.DCK_LIMITS.VEC_BASE, fget l F.DCK_LIMITS.VEC_COUNT)

/-- The cell range of a radio word. -/
def radioRange (r : W64) : Nat × Nat := (fget r F.DCK_RADIO.CELL_BASE, fget r F.DCK_RADIO.CELL_COUNT)

/-- Field values out of their ranges (R305, R427). -/
def Deckle.invalid (d : Deckle) (slot : Nat) : Bool :=
  let kind := fget d.ctl F.DCK_CTL.KIND
  let v := vecRange d.limits
  let r := radioRange d.radio
  kind == 3 || (slot == 0) != (kind == 2) || fget d.ctl F.DCK_CTL.DEF_DEADLINE == 0 ||
  decide (768 < fget d.quota F.DCK_QUOTA.T2_GIB) || decide (256 < fget d.quota F.DCK_QUOTA.T4_GIB) ||
  decide (64 < fget d.limits F.DCK_LIMITS.SQ_MAX) || decide (64 < fget d.limits F.DCK_LIMITS.CQ_MAX) ||
  decide (16 < fget d.limits F.DCK_LIMITS.ETH_TX_MAX) || decide (64 < fget d.limits F.DCK_LIMITS.ETH_RX_MAX) ||
  decide (64 < v.2) || (v.2 != 0 && decide (v.1 < 32 ∨ 2048 < v.1 + v.2)) ||
  decide (1024 < r.1 + r.2) || (kind != 1 && r.2 != 0) ||
  d.wins.any (fun w => w.type == 3 || (w.type != 0 && (w.size == 0 || decide (vaSpan < w.base + w.size)))) ||
  (List.range 16).any (fun i => (List.range 16).any (fun j =>
    match d.wins[i]?, d.wins[j]? with
    | some a, some b => decide (i < j) && a.type != 0 && b.type != 0 && overlap (a.base, a.size) (b.base, b.size)
    | _, _ => false))

/-- Another slot in use whose vector or cell range overlaps, or more than 8 radio slots. -/
def Chip.deckleConflict (c : Chip) (slot : Nat) (d : Deckle) : Bool :=
  let others := (List.range 64).filter (fun t => t != slot)
  let radios := (others.filter (fun t => c.slotKind t == 1)).length + (if fget d.ctl F.DCK_CTL.KIND = 1 then 1 else 0)
  let live := c.slotState slot != 0 || fget d.ctl F.DCK_CTL.ENABLE != 0
  decide (8 < radios) ||
  (live && others.any (fun t => c.slotState t != 0 &&
    (overlap (vecRange d.limits) (vecRange (c.reg (R.DCK_LIMITS t))) ||
     overlap (radioRange d.radio) (radioRange (c.reg (R.DCK_RADIO t))))))

/-- A range of a slot lies in a part of its windows that new windows no longer give. -/
def removedPart (old new : List Win) (va n : Nat) : Bool :=
  old.any (fun w => w.type != 0 && overlap (w.base, w.size) (va, n)) &&
  (blocksOf va n).any (fun b =>
    let a := max va (b * 4096)
    match old.find? (fun w => w.has a) with
    | none => false
    | some w =>
      match new.find? (fun x => x.has a) with
      | none => true
      | some x => x.type != w.type || (w.type == 2 && (x.hostBase + (a - x.base) != w.hostBase + (a - w.base))))

/-- Entry bytes of a ring kind (R296). -/
def ringEntry (kind : Nat) : Nat := if kind ≤ 1 then 64 else 32

/-- Bytes of a ring's memory: its entries, and the head index after a transmit ring. -/
def Ring.bytes (r : Ring) : Nat := ringEntry r.kind * 2 ^ r.log2 + (if r.kind = 2 then 4 else 0)

/-- The memory ranges of a slot that R289 protects beside its mapped pages: rings, IF_RING of its cells, and the
descriptors' tensor tables and ranges of its outstanding commands. -/
def Chip.pinnedRanges (c : Chip) (slot : Nat) : List (Nat × Nat) :=
  (c.rings.filter (fun r => r.slot == slot)).map (fun r => (r.base, r.bytes)) ++
  c.cells.filterMap (fun x =>
    if x.2.slot = slot then
      match x.2.tlv 0xA007 with
      | some a => if a = 0 then none else some (a, 16)
      | none => none
    else none) ++
  (c.commands.filter (fun k => k.slot == slot)).flatMap (fun k =>
    (if k.desc.tensorTab = 0 then [] else [(k.desc.tensorTab, 512)]) ++
      (k.tensors.filter (fun t => t.length != 0)).map (fun t => (t.base, t.length)))

/-- A window change that R289 refuses: something in use lies in the part removed, or DIRTY_EN is 1. -/
def Chip.windowBusy (c : Chip) (slot : Nat) (old new : List Win) : Bool :=
  let narrowed := old.any (fun w => w.type != 0 && !(new.any (fun x =>
    x.type == w.type && decide (x.base ≤ w.base) && decide (w.base + w.size ≤ x.base + x.size) &&
    (w.type == 1 || x.hostBase + (w.base - x.base) == w.hostBase))))
  narrowed && (c.flag (R.DCK_CTL slot) F.DCK_CTL.DIRTY_EN ||
    (c.pages.any (fun x => keySlot x.1 == slot && removedPart old new (keyVa x.1) (pageBytes x.2.size))) ||
    (c.pinnedRanges slot).any (fun r => removedPart old new r.1 r.2))

/-- Rings of a kind that a slot has created. -/
def Chip.ringCount (c : Chip) (slot kind : Nat) : Nat := (c.rings.filter (fun r => r.slot == slot && r.kind == kind)).length

/-- A limit below the rings created. -/
def Chip.limitBelow (c : Chip) (slot : Nat) (l : W64) : Bool :=
  decide (fget l F.DCK_LIMITS.SQ_MAX < c.ringCount slot 0) || decide (fget l F.DCK_LIMITS.CQ_MAX < c.ringCount slot 1) ||
  decide (fget l F.DCK_LIMITS.ETH_TX_MAX < c.ringCount slot 2) || decide (fget l F.DCK_LIMITS.ETH_RX_MAX < c.ringCount slot 3)

/-- A cell of the slot that a new range gives up is not down. -/
def Chip.cellsLeft (c : Chip) (slot : Nat) (new : Nat × Nat) : Bool :=
  (List.range 1024).any (fun k => inRange k (c.cellRange slot) && !inRange k new && c.cellUp k)

/-- What the life of a slot allows of a new DCK_CTL (R285, R286, R299): KIND changes only while free; ENABLE and
RELEASE are cleared by hardware alone; RELEASE needs an active slot other than 0 whose cells are down. -/
def Chip.ctlBad (c : Chip) (slot : Nat) (new : W64) : Bool :=
  let old := c.reg (R.DCK_CTL slot)
  let st := c.slotState slot
  let f := F.DCK_CTL.ENABLE
  let g := F.DCK_CTL.RELEASE
  (fget old F.DCK_CTL.KIND != fget new F.DCK_CTL.KIND && st != 0) ||
  (fget old f != 0 && fget new f == 0) || (fget old g != 0 && fget new g == 0) ||
  (st == 0 && fget new g != 0) ||
  (fget old g == 0 && fget new g != 0 && (slot == 0 || st != 1 || (c.slotKind slot == 1 && c.slotCellsUp slot)))

/-- The reason a deckle write is refused, 0 for none (R289, R305). -/
def Chip.deckleErr (c : Chip) (slot : Nat) (reg : DeckleReg) (v0 v1 : W64) : Nat :=
  let old := c.deckle slot
  let d := old.put reg v0 v1
  if reg = .ctl ∧ c.ctlBad slot v0 then 2
  else if d.invalid slot then 6
  else if c.cellsLeft slot (radioRange d.radio) then 2
  else if c.windowBusy slot old.wins d.wins then 4
  else if c.limitBelow slot d.limits then 5
  else if c.deckleConflict slot d then 3
  else 0

/-- Free words for a key: eight draws of the DRBG (R293), whose bits are open. -/
def Chip.drawKey (c : Chip) : Nat → List W64 × Chip
  | 0 => ([], c)
  | n + 1 =>
    let (w, c) := c.free
    let (l, c) := c.drawKey n
    (w :: l, c)

/-- A slot gets a generated key. -/
def Chip.generateKey (c : Chip) (slot : Nat) : Chip :=
  let (ws, c) := c.drawKey 8
  ({ c with keys := tabPut c.keys slot ws }).mark (R.TEN_STAT slot) F.TEN_STAT.KEY_VALID

/-- Steps 1 to 3 of a release (R287): fetching stops, uncommitted tasks are killed and no completion is written,
contexts, queued requests and unsent fabric records go. A command with a begun commit stays until that has drained. -/
def Chip.beginDrain (c : Chip) (slot : Nat) : Chip :=
  let c := c.dropTasks (fun t => t.slot == slot)
  let c := (c.keysWhere (fun t => t.slot == slot)).foldl (fun c k => c.killSheet k false) c
  let begun := fun (k : Command) => c.quires.any (fun x => x.2.slots.any (fun y => y.task.cmd == k.uid))
  let c : Chip := { c with
    commands := (c.commands.filter (fun k => k.slot != slot || begun k)).map (fun k =>
      if k.slot = slot then { k with ending := some ⟨0, 0, 0⟩, deferred := [], partials := [] } else k),
    engines := c.engines.map (fun (x : Nat × List FabRec) =>
      (x.1, x.2.filter (fun r => r.slot != slot || r.gone != 0 || r.state == .sent))),
    drains := c.drains ++ [⟨slot, c.time.uptime⟩] }
  ((c.contexts.filter (fun x => x.2.slot == slot)).map (·.1)).foldl (fun c n => c.freeContext n) c

/-- The register map's names of a deckle register's value words. -/
def deckleIds : DeckleReg → RegId × RegId
  | .ctl => (.DCK_CTL, .DCK_CTL)
  | .quota => (.DCK_QUOTA, .DCK_QUOTA)
  | .limits => (.DCK_LIMITS, .DCK_LIMITS)
  | .shp => (.DCK_SHP, .DCK_SHP)
  | .fab _ => (.DCK_FAB, .DCK_FAB)
  | .radio => (.DCK_RADIO, .DCK_RADIO)
  | .win _ => (.WIN0, .WIN1)

/-- Apply an accepted deckle write, its reserved bits ignored (R8): it is logged, and DCK_CTL moves the slot's state (R286, R304). -/
def applyDeckle (origin slot : Nat) (reg : DeckleReg) (v0 v1 : W64) (c : Chip) : Chip :=
  let v0 := regWrite (deckleIds reg).1 0 v0
  let v1 := regWrite (deckleIds reg).2 0 v1
  let err := c.deckleErr slot reg v0 v1
  if err ≠ 0 then c.tenRefuse slot err
  else
    let c := c.tenDone slot
    match reg with
    | .ctl =>
      let old := c.reg (R.DCK_CTL slot)
      let c := c.setLogged origin (R.DCK_CTL slot) v0
      if fget v0 F.DCK_CTL.RELEASE ≠ 0 ∧ fget old F.DCK_CTL.RELEASE = 0 then
        ((c.setFld (R.TEN_STAT slot) F.TEN_STAT.STATE 2).mbxTell slot 4 0).beginDrain slot
      else if fget v0 F.DCK_CTL.ENABLE ≠ 0 ∧ c.slotState slot = 0 then
        let c := c.setFld (R.TEN_STAT slot) F.TEN_STAT.STATE 1
        if c.flag (R.TEN_STAT slot) F.TEN_STAT.KEY_VALID then c else c.generateKey slot
      else c
    | .quota => c.setLogged origin (R.DCK_QUOTA slot) v0
    | .limits => c.setLogged origin (R.DCK_LIMITS slot) v0
    | .shp => c.setLogged origin (R.DCK_SHP slot) v0
    | .fab f => c.setLogged origin (R.DCK_FAB slot f.val) v0
    | .radio => c.setLogged origin (R.DCK_RADIO slot) v0
    | .win w => (c.setLogged origin (R.WIN0 slot w.val) v0).setLogged origin (R.WIN1 slot w.val) v1

/-- The offset of the first value word of a deckle register. -/
def deckleAddr (slot : Nat) : DeckleReg → Nat
  | .ctl => (R.DCK_CTL slot).addr
  | .quota => (R.DCK_QUOTA slot).addr
  | .limits => (R.DCK_LIMITS slot).addr
  | .shp => (R.DCK_SHP slot).addr
  | .fab f => (R.DCK_FAB slot f.val).addr
  | .radio => (R.DCK_RADIO slot).addr
  | .win w => (R.WIN0 slot w.val).addr

/-- DECKLE_WRITE (R289): the value and complement words of one deckle register. -/
def deckleWrite (r : Requester) (slot : Fin 64) (reg : DeckleReg) (v0 v1 c0 c1 : W64) (c : Chip) : Chip :=
  let two := match reg with
    | .win _ => true
    | _ => false
  pairWrite r atChip (deckleAddr slot.val reg) two (c0 == ~~~ v0 && (!two || c1 == ~~~ v1)) (applyDeckle (c.origin r) slot.val reg v0 v1) c

/-- SLOT_ENABLE (R286): DCK_CTL with ENABLE written to 1. -/
def slotEnable (r : Requester) (slot : Fin 64) (c : Chip) : Chip :=
  pairWrite r atChip (R.DCK_CTL slot).addr false true (applyDeckle (c.origin r) slot.val .ctl (fput (c.reg (R.DCK_CTL slot)) F.DCK_CTL.ENABLE 1) 0) c

/-- SLOT_RELEASE (R287): DCK_CTL with RELEASE written to 1. -/
def slotRelease (r : Requester) (slot : Fin 64) (c : Chip) : Chip :=
  pairWrite r atChip (R.DCK_CTL slot).addr false true (applyDeckle (c.origin r) slot.val .ctl (fput (c.reg (R.DCK_CTL slot)) F.DCK_CTL.RELEASE 1) 0) c

/-! ### Keys (R293) -/

/-- The eight staged key words and their complements match. -/
def Chip.keyStaged (c : Chip) (slot : Nat) : Bool :=
  (List.range 8).all (fun k => c.reg (R.KEY_C slot k) == ~~~ (c.reg (R.KEY_V slot k)))

/-- After every KEY_CMD the staging words read 0. -/
def Chip.clearKeyStage (c : Chip) (slot : Nat) : Chip :=
  (List.range 8).foldl (fun c k => (c.setReg (R.KEY_V slot k) 0).setReg (R.KEY_C slot k) 0) c

/-- KEY_CMD (R293): refused unless the slot is free; logged with zeros when accepted. -/
def keyCmd (r : Requester) (slot : Nat) (load : Bool) (c : Chip) : Chip :=
  if ¬ mayReachBar0 r then c
  else if c.early r then c.noteEarly
  else
    let done :=
      if c.slotState slot ≠ 0 then c.tenRefuse slot 2
      else if load ∧ ¬ c.keyStaged slot then (c.integrity atChip).setFld (R.TEN_STAT slot) F.TEN_STAT.ERR 1
      else
        let ws := (List.range 8).map (fun k => c.reg (R.KEY_V slot k))
        let c := ((c.logOp (c.origin r) 4 slot 0 0).tenDone slot).mend (.keyRam (Fin.ofNat 64 slot))
        if load then ({ c with keys := tabPut c.keys slot ws }).mark (R.TEN_STAT slot) F.TEN_STAT.KEY_VALID
        else c.generateKey slot
    done.clearKeyStage slot

/-- KEY_LOAD (R293). -/
def keyLoad (r : Requester) (slot : Fin 64) (c : Chip) : Chip := keyCmd r slot.val true c

/-- KEY_GENERATE (R293). -/
def keyGenerate (r : Requester) (slot : Fin 64) (c : Chip) : Chip := keyCmd r slot.val false c

/-! ### Slices (R295) -/

/-- Rings or host windows name a slice. -/
def Chip.sliceNamed (c : Chip) (i : Nat) : Bool :=
  c.rings.any (fun r => r.slice == i) ||
  (List.range 64).any (fun s => (c.wins s).any (fun w => w.type == 2 && w.slice == i))

/-- The reason a slice write is refused, 0 for none (R295). -/
def Chip.sliceErr (c : Chip) (i : Nat) (new : W64) : Nat :=
  let old := c.reg (R.SLICE i)
  let en := fget new F.SLICE.ENABLE != 0
  let oen := fget old F.SLICE.ENABLE != 0
  let slot := fget new F.SLICE.SLOT
  let oslot := fget old F.SLICE.SLOT
  if en && (!oen || slot != oslot) && c.slotState slot != 1 then 2
  else if en && fget new F.SLICE.PASID_EN != 0 && (List.range 1024).any (fun j =>
      j != i && c.flag (R.SLICE j) F.SLICE.ENABLE && c.flag (R.SLICE j) F.SLICE.PASID_EN &&
      c.fld (R.SLICE j) F.SLICE.PASID == fget new F.SLICE.PASID) then 3
  else if oen && (!en || slot != oslot) && c.slotState oslot != 2 && c.sliceNamed i then 2
  else 0

/-- Apply a slice write; a refusal is reported in both slots it concerns. -/
def applySlice (origin i : Nat) (v : W64) (c : Chip) : Chip :=
  let v := regWrite .SLICE 0 v
  let err := c.sliceErr i v
  let slot := fget v F.SLICE.SLOT
  let oslot := c.sliceSlot i
  if err = 0 then c.setLogged origin (R.SLICE i) v
  else
    let c := c.tenRefuse oslot err
    if slot = oslot then c else c.tenRefuse slot err

/-- SLICE_WRITE (R295). -/
def sliceWrite (r : Requester) (i : Fin 1024) (v k : W64) (c : Chip) : Chip :=
  pairWrite r atChip (R.SLICE i.val).addr false (k == ~~~ v) (applySlice (c.origin r) i.val v) c

/-! ### Rings (R296 to R298) -/

/-- Staged ring fields. -/
def rsKind : Fld := ⟨60, 4⟩
/-- INDEX. -/
def rsIndex : Fld := ⟨54, 6⟩
/-- LOG2_ENTRIES. -/
def rsLog2 : Fld := ⟨50, 4⟩
/-- VECTOR. -/
def rsVector : Fld := ⟨44, 6⟩
/-- RADIO. -/
def rsRadio : Fld := ⟨43, 1⟩
/-- INT_EN. -/
def rsInt : Fld := ⟨42, 1⟩
/-- BUF_UNITS. -/
def rsBuf : Fld := ⟨24, 16⟩
/-- BASE. -/
def rsBase : Fld := ⟨12, 45⟩

/-- A ring of a slot by kind and index. -/
def Chip.ring (c : Chip) (slot kind index : Nat) : Option Ring :=
  c.rings.find? (fun r => r.slot == slot && r.kind == kind && r.index == index)

/-- Change a ring. -/
def Chip.updRing (c : Chip) (slot kind index : Nat) (f : Ring → Ring) : Chip :=
  { c with rings := c.rings.map (fun r => if r.slot = slot ∧ r.kind = kind ∧ r.index = index then f r else r) }

/-- The limit of a ring kind (R296). -/
def ringLimit (l : W64) : Nat → Nat
  | 0 => fget l F.DCK_LIMITS.SQ_MAX
  | 1 => fget l F.DCK_LIMITS.CQ_MAX
  | 2 => fget l F.DCK_LIMITS.ETH_TX_MAX
  | 3 => fget l F.DCK_LIMITS.ETH_RX_MAX
  | _ => 1

/-- The reason a creation is refused, 0 for none (R296, R298, R299, R307). -/
def Chip.ringErr (c : Chip) (slot : Nat) (v0 v1 : W64) : Nat :=
  let kind := fget v1 rsKind
  let lg := fget v1 rsLog2
  let radio := fget v1 rsRadio != 0
  let l := c.reg (R.DCK_LIMITS slot)
  let base := fget v0 rsBase * 4096
  let size := ringEntry kind * 2 ^ lg + (if kind = 2 then 4 else 0)
  if c.slotState slot ≠ 1 then 8
  else if 5 < kind then 7
  else if lg < (if 4 ≤ kind then 6 else 4) ∨ 12 < lg ∨ ((kind = 3 ∨ kind = 5) ∧ (fget v1 rsBuf = 0 ∨ 4095 < fget v1 rsBuf)) then 7
  else if (4 ≤ kind ∨ radio) ∧ c.slotKind slot ≠ 1 ∨ (radio ∧ kind ≠ 0) then 5
  else if ringLimit l kind ≤ fget v1 rsIndex then 2
  else if (c.ring slot kind (fget v1 rsIndex)).isSome then 3
  else if kind ≠ 0 ∧ fget l F.DCK_LIMITS.VEC_COUNT ≤ fget v1 rsVector then 7
  else if ¬ (c.wins slot).any (fun w => w.read && w.write && w.holds base size) then 4
  else 0

/-- The log entries of a ring that is made or deleted (R296, R374 table 8). -/
def Chip.logRing (c : Chip) (slot kind index : Nat) (o0 o1 n0 n1 : W64) : Chip :=
  c.logTable (slot + 2) 8 (slot * 4096 + kind * 512 + index * 8) o0 o1 n0 n1

/-- The staged words of a slice page match their complements. -/
def Chip.ringStaged (c : Chip) (i : Nat) : Bool :=
  c.reg (R.RING_STAGE i 2) == ~~~ (c.reg (R.RING_STAGE i 0)) && c.reg (R.RING_STAGE i 3) == ~~~ (c.reg (R.RING_STAGE i 1))

/-- Put a result in RING_STAT.ERR. -/
def Chip.ringResult (c : Chip) (i err : Nat) : Chip := c.setFld (R.RING_STAT i) F.RING_STAT.ERR err

/-- RING_CREATE (R296). -/
def ringCreate (slice : Fin 1024) (c : Chip) : Chip :=
  let i := slice.val
  let slot := c.sliceSlot i
  let v0 := c.reg (R.RING_STAGE i 0)
  let v1 := c.reg (R.RING_STAGE i 1)
  if ¬ c.sliceOn i then c
  else if c.early .host then c.noteEarly
  else if ¬ c.ringStaged i then (c.integrity atChip).ringResult i 1
  else
    let err := c.ringErr slot v0 v1
    if err ≠ 0 then c.ringResult i err
    else
      let kind := fget v1 rsKind
      let r : Ring := ⟨slot, kind, fget v1 rsIndex, i, fget v0 rsBase * 4096, fget v1 rsLog2, fget v1 rsVector,
        fget v1 rsRadio != 0, fget v1 rsInt != 0, fget v1 rsBuf, 0, 0, true, [], false, false, v0, v1⟩
      let c := c.logRing slot kind r.index 0 0 v0 v1
      ({ c with rings := c.rings ++ [r] }).ringResult i 0

/-- An outstanding command of a slot names a completion queue. -/
def Chip.cqNamed (c : Chip) (slot q : Nat) : Bool :=
  c.commands.any (fun k => k.slot == slot && (match k.source with
    | .sq _ cq _ _ => cq == q
    | .event _ => false))

/-- An outstanding command of a slot was fetched from a submission queue. -/
def Chip.sqBusy (c : Chip) (slot q : Nat) : Bool :=
  c.commands.any (fun k => k.slot == slot && (match k.source with
    | .sq s _ _ _ => s == q
    | .event _ => false)) ||
  c.rings.any (fun r => r.slot == slot && r.kind == 1 && r.held.any (fun h => h.sq == q))

/-- RING_DELETE (R297). A submission queue stops at once and stays busy until its commands have completed. -/
def ringDelete (slice : Fin 1024) (c : Chip) : Chip :=
  let i := slice.val
  let slot := c.sliceSlot i
  let v1 := c.reg (R.RING_STAGE i 1)
  let kind := fget v1 rsKind
  let ix := fget v1 rsIndex
  if ¬ c.sliceOn i then c
  else if c.early .host then c.noteEarly
  else if ¬ c.ringStaged i then (c.integrity atChip).ringResult i 1
  else
    match c.ring slot kind ix with
    | none => c.ringResult i 3
    | some r =>
      if r.slice ≠ i ∨ r.deleting then c.ringResult i 3
      else if kind = 1 ∧ c.cqNamed slot ix then c.ringResult i 6
      else if 4 ≤ kind ∧ c.slotCellsUp slot then c.ringResult i 6
      else
        let c := (c.logRing slot kind ix r.stage0 r.stage1 0 0).ringResult i 0
        if kind = 0 ∧ c.sqBusy slot ix then
          (c.updRing slot 0 ix (fun x => { x with deleting := true })).mark (R.RING_STAT i) F.RING_STAT.BUSY
        else { c with rings := c.rings.filter (fun x => !(x.slot == slot && x.kind == kind && x.index == ix)) }

/-- SQ_DELETE_COMPLETE (R297): every command fetched from the deleted queue has completed. -/
def sqDeleteComplete (slot : Fin 64) (q : Fin 64) (c : Chip) : Chip :=
  match c.ring slot.val 0 q.val with
  | some r =>
    if r.deleting ∧ ¬ c.sqBusy slot.val q.val then
      let c := { c with rings := c.rings.filter (fun x => !(x.slot == slot.val && x.kind == 0 && x.index == q.val)) }
      if c.rings.any (fun x => x.slice == r.slice && x.deleting) then c
      else c.setFlag (R.RING_STAT r.slice) F.RING_STAT.BUSY false
    else c
  | none => c

/-- RING_READ_BACK (R307): a ring's settings and their complements into staging. -/
def ringReadBack (slice : Fin 1024) (c : Chip) : Chip :=
  let i := slice.val
  let v1 := c.reg (R.RING_STAGE i 1)
  if ¬ c.sliceOn i then c
  else if c.early .host then c.noteEarly
  else
    match c.ring (c.sliceSlot i) (fget v1 rsKind) (fget v1 rsIndex) with
    | some r =>
      if r.slice = i then
        ((((c.setReg (R.RING_STAGE i 0) r.stage0).setReg (R.RING_STAGE i 1) r.stage1).setReg (R.RING_STAGE i 2)
          (~~~ r.stage0)).setReg (R.RING_STAGE i 3) (~~~ r.stage1)).ringResult i 0
      else c.ringResult i 3
    | none => c.ringResult i 3

/-- Signal a vector of a slot's range (R298). -/
def Chip.slotVector (c : Chip) (slot off : Nat) : Chip :=
  let v := vecRange (c.reg (R.DCK_LIMITS slot))
  if off < v.2 then c.msix (v.1 + off) else c

/-! ### Dirty-log banks (R301) -/

/-- DIRTY_SWAP (R301): later writes go to the other bank; the cached bits of the old one are flushed. A swap while
BUSY is ignored. -/
def dirtySwap (r : Requester) (slot : Fin 64) (c : Chip) : Chip :=
  let st := R.DIRTY_STAT slot.val
  if ¬ mayReachBar0 r then c
  else if c.early r then c.noteEarly
  else if c.flag st F.DIRTY_STAT.BUSY then c
  else ((c.mark st F.DIRTY_STAT.BUSY).setFld st F.DIRTY_STAT.BANK (1 - c.fld st F.DIRTY_STAT.BANK)).bump st F.DIRTY_STAT.SWAPS 1

/-- DIRTY_SWAP_COMPLETE (R301). -/
def dirtySwapComplete (slot : Fin 64) (c : Chip) : Chip := c.setFlag (R.DIRTY_STAT slot.val) F.DIRTY_STAT.BUSY false

/-! ### Mailboxes (R302, R304) -/

/-- The mailbox side of a requester: the host physical function, or a slice through its enabled page. -/
def Chip.mbxSide (c : Chip) (r : Requester) : Option MbxSide :=
  match r with
  | .host => some .host
  | .slice i => if c.sliceOn i.val then some (.slice i) else none
  | _ => none

/-- MBX_OUT_WRITE (R302): stored when FULL is 0, else ignored as an overrun. -/
def mbxOutWrite (r : Requester) (n : Fin 4) (v : W32) (c : Chip) : Chip :=
  match c.mbxSide r with
  | none => c
  | some side =>
    let m := mbxOut side n.val
    if c.flag m F.MBX_OUT.FULL then
      (c.mark (mbxStat side) F.MBX_STAT.STICKY_OVERRUN).bump (mbxStat side) F.MBX_STAT.OVR_CNT 1
    else c.setReg m (BitVec.ofNat 64 (2 ^ 63 + v.toNat))

/-- MBX_IN_READ (R302): returns the word and FULL, then clears FULL. -/
def mbxInRead (r : Requester) (n : Fin 4) (c : Chip) : Chip :=
  match c.mbxSide r with
  | none => c
  | some side =>
    let m := mbxIn side n.val
    (c.setFlag m F.MBX_IN.FULL false).send (.readData r (c.reg m))

/-- The use of a tier in GiB that a USE_QUERY reports: of the slice's slot, or of every slot to the host. -/
def Chip.useGib (c : Chip) (side : MbxSide) (tier : Nat) : Nat :=
  match side with
  | .slice i => gibUp (c.tierUse (c.sliceSlot i.val) tier)
  | .host => gibUp ((List.range 64).foldl (fun a s => a + c.tierUse s tier) 0)

/-- Firmware's reply to a word (R304). -/
def Chip.mbxReply (c : Chip) (side : MbxSide) (w : W32) : W32 :=
  let x := w.toNat
  let t := x / 2 ^ 28
  let ok := fun (d : Nat) => BitVec.ofNat 32 (15 * 2 ^ 28 + d % 2 ^ 26)
  if t = 1 then ok x
  else if t = 2 ∧ bitsOf x 27 26 ≠ 3 then ok (c.useGib side (bitsOf x 27 26))
  else BitVec.ofNat 32 (15 * 2 ^ 28 + 2 ^ 27)

/-- Firmware takes the word of a mailbox whose type is one of `types`, FULL clears, and its reply goes to
MBX_IN[n] of the same side (R302, R304). -/
def Chip.mbxAnswer (c : Chip) (side : MbxSide) (n : Nat) (types : Nat → Bool) : Chip :=
  let m := mbxOut side n
  let w : W32 := (c.reg m).setWidth 32
  if c.flag m F.MBX_OUT.FULL && types (w.toNat / 2 ^ 28) then
    (c.setFlag m F.MBX_OUT.FULL false).mbxPost side n (c.mbxReply side w)
  else c

/-- FIRMWARE_MBX_TAKE (R304): the word that waits is taken and answered, whatever its type. -/
def firmwareMbxTake (side : MbxSide) (n : Fin 4) (c : Chip) : Chip := c.mbxAnswer side n.val (fun _ => true)

/-- PING (R304): a waiting word of type PING is answered with its value. -/
def mbxPing (side : MbxSide) (n : Fin 4) (c : Chip) : Chip := c.mbxAnswer side n.val (fun t => t == 1)

/-- USE_QUERY (R304): a waiting word of type USE_QUERY is answered with the tier's use in GiB. -/
def mbxUseQuery (side : MbxSide) (n : Fin 4) (c : Chip) : Chip := c.mbxAnswer side n.val (fun t => t == 2)

/-- FIRMWARE_MBX_STORE (R302): firmware stores its next queued word once FULL is clear, and signals MBX_VEC where
MBX_IRQ_EN is set. -/
def firmwareMbxStore (side : MbxSide) (n : Fin 4) (c : Chip) : Chip :=
  let k := mbxKey side n.val
  let m := mbxIn side n.val
  match tabGetD c.mbxQueue k [] with
  | [] => c
  | w :: t =>
    if c.flag m F.MBX_IN.FULL then c
    else
      let c := { c with mbxQueue := if t.isEmpty then tabDel c.mbxQueue k else tabPut c.mbxQueue k t }
      let c := c.setReg m (BitVec.ofNat 64 (2 ^ 63 + w.toNat))
      match side with
      | .host => c.irq 0
      | .slice i =>
        if c.flag (R.SLICE i.val) F.SLICE.MBX_IRQ_EN then c.slotVector (c.sliceSlot i.val) (c.fld (R.SLICE i.val) F.SLICE.MBX_VEC)
        else c

/-! ### Shared mailboxes and locks (R303) -/

/-- The owner number of a requester's path. -/
def Chip.ownerNumber (c : Chip) (r : Requester) : Nat :=
  match r with
  | .host => 1
  | .slice i => c.sliceSlot i.val + 2
  | .firmware => 0xF0
  | .monitor => 0xF1

/-- A path reaches shared mailbox and lock n: the host, firmware and monitor through BAR0, a slice where its slot's
SHMBX_MASK allows it. -/
def Chip.sharedOpen (c : Chip) (r : Requester) (n : Nat) : Bool :=
  match r with
  | .slice i => c.sliceOn i.val && (c.fld (R.DCK_CTL (c.sliceSlot i.val)) F.DCK_CTL.SHMBX_MASK).testBit n
  | _ => true

/-- Lock n. -/
def Chip.lock (c : Chip) (n : Nat) : Lock := tabGetD c.locks n ⟨0, false⟩

/-- Put lock n; a free unbroken lock is not listed. -/
def Chip.setLock (c : Chip) (n : Nat) (l : Lock) : Chip :=
  { c with locks := if l.owner = 0 ∧ l.broken = false then tabDel c.locks n else tabPut c.locks n l }

/-- The status register a shared mailbox counts overruns in: the writer's. -/
def Chip.sharedStat (c : Chip) (r : Requester) : RegRef := mbxStat ((c.mbxSide r).getD .host)

/-- SHMBX_WRITE (R303): a mailbox send by a path that reaches it. DEDUCED: the lock is for the parties to keep, the mailbox does not
ask for it (log entry 55). -/
def shmbxWrite (r : Requester) (n : Fin 16) (v : W32) (c : Chip) : Chip :=
  if ¬ c.sharedOpen r n.val then c
  else if c.flag (R.SHMBX n.val) F.SHMBX.FULL then
    (c.mark (c.sharedStat r) F.MBX_STAT.STICKY_OVERRUN).bump (c.sharedStat r) F.MBX_STAT.OVR_CNT 1
  else c.setReg (R.SHMBX n.val) (BitVec.ofNat 64 (2 ^ 63 + v.toNat))

/-- SHMBX_READ (R303): a mailbox receive; 0 to a path that does not reach it. -/
def shmbxRead (r : Requester) (n : Fin 16) (c : Chip) : Chip :=
  if ¬ c.sharedOpen r n.val then c.send (.readData r 0)
  else (c.setFlag (R.SHMBX n.val) F.SHMBX.FULL false).send (.readData r (c.reg (R.SHMBX n.val)))

/-- LOCK_READ (R303): takes a free lock and returns 0; else the owner's number, or 0xFE of a broken lock. -/
def lockRead (r : Requester) (n : Fin 16) (c : Chip) : Chip :=
  let l := c.lock n.val
  if ¬ c.sharedOpen r n.val then c.send (.readData r 0)
  else if l.broken then c.send (.readData r 0xFE)
  else if l.owner = 0 then (c.setLock n.val ⟨c.ownerNumber r, false⟩).send (.readData r 0)
  else c.send (.readData r (BitVec.ofNat 64 l.owner))

/-- LOCK_RELEASE (R303): the owner's number from the owner's path frees the lock; any other write is counted. -/
def lockRelease (r : Requester) (n : Fin 16) (v : W32) (c : Chip) : Chip :=
  let l := c.lock n.val
  if ¬ c.sharedOpen r n.val then c
  else if ¬ l.broken ∧ l.owner ≠ 0 ∧ v.toNat % 256 = l.owner ∧ c.ownerNumber r = l.owner then c.setLock n.val ⟨0, false⟩
  else c.bump R.LOCK_STAT F.LOCK_STAT.RELEASE_BAD 1

/-- One forced release, logged (R303). -/
def Chip.forceLock (c : Chip) (origin n : Nat) : Chip :=
  let l := c.lock n
  (c.logOp origin 8 n (BitVec.ofNat 32 l.owner) 0).setLock n ⟨0, false⟩

/-- LOCK_FORCE (R303): bit n frees lock n. -/
def lockForce (r : Requester) (mask : W16) (c : Chip) : Chip :=
  if ¬ mayReachBar0 r then c
  else if c.early r then c.noteEarly
  else ((List.range 16).filter (fun n => mask.toNat.testBit n)).foldl (fun d n => d.forceLock (c.origin r) n) c

end Sys2Proof.Machine
end

