-- ==== Sys2Proof/Machine/Tiers.lean ====
section
/-! DEFINITION. Mapping operations (R258 to R265), migration between the tiers (R266 to R270), host memory donated
as T3 (R257) and windows lent to and borrowed from neighbours (R271 to R275). -/

namespace Sys2Proof.Machine

/-! ### Mapping operations (R259) -/

/-- One mapping operation: OP, slot, first address, page size code, page count, the word V1 and the origin. -/
structure MapOp where
  op : Nat
  slot : Nat
  va : Nat
  size : Nat
  count : Nat
  attrs : W64
  origin : Nat
deriving DecidableEq, Repr

/-- COUNT of MAP_STAGE_V1. -/
def mapCount : Fld := ⟨44, 20⟩
/-- SLOT. -/
def mapSlot : Fld := ⟨38, 6⟩
/-- HOME. -/
def mapHome : Fld := ⟨35, 3⟩
/-- PIN. -/
def mapPin : Fld := ⟨34, 1⟩
/-- WRITE. -/
def mapWrite : Fld := ⟨33, 1⟩
/-- READ. -/
def mapRead_ : Fld := ⟨32, 1⟩
/-- RADIO. -/
def mapRadio : Fld := ⟨31, 1⟩
/-- SEALED. -/
def mapSealed : Fld := ⟨30, 1⟩
/-- TIER. -/
def mapTier : Fld := ⟨28, 2⟩

/-- The staged operation. -/
def Chip.stagedMap (c : Chip) (op origin : Nat) : MapOp :=
  let v0 := c.reg (R.MAP_STAGE 0)
  let v1 := c.reg (R.MAP_STAGE 1)
  ⟨op, fget v1 mapSlot, fget v0 ⟨12, 45⟩ * 4096, fget v0 ⟨10, 2⟩, fget v1 mapCount + 1, v1, origin⟩

/-- Bytes of the range. -/
def MapOp.bytes (m : MapOp) : Nat := m.count * pageBytes m.size

/-- The page addresses of the range. -/
def MapOp.vas (m : MapOp) : List Nat := (List.range m.count).map (fun i => m.va + i * pageBytes m.size)

/-- A page of this size at this address. -/
def Chip.pageExact (c : Chip) (slot size va : Nat) : Option Page :=
  match tabGet c.pages (devKey slot va) with
  | some p => if p.size = size then some p else none
  | none => none

/-- Change a page. -/
def Chip.updPage (c : Chip) (slot va : Nat) (f : Page → Page) : Chip :=
  match tabGet c.pages (devKey slot va) with
  | some p => { c with pages := tabPut c.pages (devKey slot va) (f p) }
  | none => c

/-- A range meets the memory of a ring of the slot (R296). -/
def Chip.ringOver (c : Chip) (slot va n : Nat) : Bool :=
  c.rings.any (fun r => r.slot == slot && overlap (r.base, r.bytes) (va, n))

/-- The memory of a receive queue: slot, first address, bytes (R325). -/
def RxQueue.range (q : RxQueue) : Nat × Nat × Nat :=
  (fget q.v1 ⟨26, 6⟩, fget q.v0 ⟨12, 45⟩ * 4096, 2 ^ (fget q.v1 ⟨20, 4⟩ + fget q.v1 ⟨15, 5⟩))

/-- A receive queue is enabled. -/
def RxQueue.on (q : RxQueue) : Bool := fget q.v1 ⟨0, 1⟩ != 0

/-- A range meets the memory of an enabled receive queue of the slot (R325). -/
def Chip.rxqOver (c : Chip) (slot va n : Nat) : Bool :=
  c.rxqs.any (fun x => x.2.on && x.2.range.1 == slot && overlap x.2.range.2 (va, n))

/-- Bytes that T2 pages hold on a ream outside the radio reservation. -/
def Chip.reamUse (c : Chip) (ream : Nat) : Nat :=
  c.pages.foldl (fun a x => if x.2.place = .t2 ream ∧ x.2.radio = false then a + pageBytes x.2.size else a) 0

/-- A ream's stacks have room for so many further bytes beside the radio reservation's even share (R267). -/
def Chip.reamRoom (c : Chip) (ream n : Nat) : Bool :=
  decide (c.reamUse ream + n ≤ 2 ^ 30 * (c.ident.part.hbmGib - c.fld R.TIER_CFG F.TIER_CFG.RADIO_T2_GIB) / 4)

/-- Bytes of radio pages. -/
def Chip.radioUse (c : Chip) : Nat := c.pages.foldl (fun a x => if x.2.radio then a + pageBytes x.2.size else a) 0

/-- The ream of page i of a MAP (R262). -/
def Chip.homeReam (c : Chip) (m : MapOp) (i : Nat) : Nat :=
  let h := fget m.attrs mapHome
  if h < 4 then h else if h = 4 then i % 4 else tabGetD c.lastHome m.slot 0

/-- The reams' stacks have room for a MAP. -/
def Chip.homeRoom (c : Chip) (m : MapOp) : Bool :=
  (List.range 4).all (fun r =>
    let n := ((List.range m.count).filter (fun i => c.homeReam m i == r)).length
    n == 0 || c.reamRoom r (n * pageBytes m.size))

/-- The reason a MAP is refused, 0 for none (R259, R262, R266, R267, R291, R299). -/
def Chip.mapErr (c : Chip) (m : MapOp) : Nat :=
  let h := fget m.attrs mapHome
  let radio := fget m.attrs mapRadio != 0
  if h = 5 ∨ h = 6 ∨ c.slotState m.slot ≠ 1 ∨ (radio ∧ c.slotKind m.slot ≠ 1) then 7
  else if ¬ (blocksOf m.va m.bytes).all (fun b => (c.wins m.slot).any (fun w => w.type == 1 && w.has (b * 4096))) then 7
  else if ¬ (c.pagesIn m.slot m.va m.bytes).isEmpty then 2
  else if radio then
    (if 2 ^ 30 * c.fld R.TIER_CFG F.TIER_CFG.RADIO_T2_GIB < c.radioUse + m.bytes then 6 else 0)
  else if ¬ c.quotaRoom m.slot 0 m.bytes then 3
  else if c.t2Free < m.bytes ∨ ¬ c.homeRoom m then 6
  else 0

/-- Every page of the range is mapped at this size. -/
def Chip.allMapped (c : Chip) (m : MapOp) : Bool := m.vas.all (fun a => (c.pageExact m.slot m.size a).isSome)

/-- A page that a sealed or shared page of a prefix-cache entry or sealed page-list entry holds may never become
writable: the pages of sealed key-value objects (R228, R264) stand in `kvSealed`. -/
def Chip.unsealBarred (c : Chip) (slot va : Nat) (p : Page) : Bool :=
  p.pfx || p.isRevoked || c.kvSealed.contains (devKey slot va)

/-- The reason an operation other than MAP is refused for its state, 0 for none. -/
def Chip.changeErr (c : Chip) (m : MapOp) : Nat :=
  let ps := m.vas.filterMap (fun a => (c.pageExact m.slot m.size a).map (fun p => (a, p)))
  let n := pageBytes m.size
  if ¬ c.allMapped m then 2
  else match m.op with
  | 2 => if c.ringOver m.slot m.va m.bytes ∨ c.rxqOver m.slot m.va m.bytes then 5 else 0
  | 3 =>
    let rd := fget m.attrs mapRead_ != 0
    let wr := fget m.attrs mapWrite != 0
    if wr ∧ ps.any (fun x => x.2.sealed_) then 5
    else if ¬ rd ∧ ps.any (fun x => x.2.read && c.ringOver m.slot x.1 n) then 5
    else if ¬ wr ∧ ps.any (fun x => x.2.write && (c.ringOver m.slot x.1 n || c.rxqOver m.slot x.1 n)) then 5
    else 0
  | 4 => if ps.any (fun x => x.2.radio) ∨ c.rxqOver m.slot m.va m.bytes then 5 else 0
  | 5 =>
    if ps.any (fun x => x.2.sealed_ && c.unsealBarred m.slot x.1 x.2) then 5
    else
      let lower := ps.filter (fun x => x.2.sealed_ && x.2.tier != some 0)
      if ¬ c.quotaRoom m.slot 0 (lower.length * n) then 3
      else if c.t2Free < lower.length * n then 6 else 0
  | _ => 0

/-- The reason an operation is refused, 0 for none. -/
def Chip.opErr (c : Chip) (m : MapOp) : Nat :=
  if m.va % pageBytes m.size ≠ 0 ∨ vaSpan < m.va + m.bytes then 7
  else if m.op = 1 then c.mapErr m
  else c.changeErr m

/-- The two change-log entries of an accepted operation (R259, R374). -/
def Chip.logMap (c : Chip) (m : MapOp) : Chip :=
  c.logWords m.origin 2
    [(m.slot * 2 ^ 19 + m.op * 2 ^ 15 + m.size * 2 ^ 13, BitVec.ofNat 32 (m.va / 2 ^ 25), BitVec.ofNat 32 (bitsOf m.va 24 12 * 2 ^ 19)),
     (m.slot * 2 ^ 19 + m.op * 2 ^ 15 + m.size * 2 ^ 13, BitVec.ofNat 32 (m.count - 1), (m.attrs >>> 32).setWidth 32)]

/-- An operation removes access (R261). -/
def Chip.removes (c : Chip) (m : MapOp) : Bool :=
  m.op == 2 || m.op == 4 || m.op == 5 ||
  (m.op == 3 && m.vas.any (fun a =>
    match c.pageExact m.slot m.size a with
    | some p => (p.read && fget m.attrs mapRead_ == 0) || (p.write && fget m.attrs mapWrite == 0)
    | none => false))

/-- An outstanding command, the operation's own apart, whose tensor ranges cover an affected page (R261). -/
def Chip.covered (c : Chip) (slot va n : Nat) (own : Option Nat) : Bool :=
  c.commands.any (fun k => k.slot == slot && some k.uid != own &&
    k.tensors.any (fun t => t.length != 0 && overlap (t.base, t.length) (va, n)))

/-! ### Effects -/

/-- Allocate zeroed pages (OP 1). -/
def Chip.doMap (c : Chip) (m : MapOp) : Chip :=
  let radio := fget m.attrs mapRadio != 0
  let page := fun (i : Nat) => ({
    size := m.size, read := fget m.attrs mapRead_ != 0, write := fget m.attrs mapWrite != 0, sealed_ := false,
    pin := radio || fget m.attrs mapPin != 0, radio := radio, pfx := false, home := fget m.attrs mapHome,
    place := .t2 (c.homeReam m i), reads := 0, lastRead := 0 } : Page)
  let ps := (List.range m.count).foldl (fun (t : Tab Page) i => tabPut t (devKey m.slot (m.va + i * pageBytes m.size)) (page i)) c.pages
  { c with pages := ps, mem := memZero c.mem (devKey m.slot m.va) m.bytes, lastHome := tabPut c.lastHome m.slot (c.homeReam m 0) }

/-- Drop a page's contents and translation, its migration and its notes. -/
def Chip.dropPage (c : Chip) (key : Nat) (p : Page) : Chip :=
  { c with
    pages := tabDel c.pages key
    mem := memZero c.mem key (pageBytes p.size)
    migrations := c.migrations.filter (fun g => g.key != key)
    kvSealed := c.kvSealed.filter (· != key)
    poison := c.poison.filter (fun l => !(decide (key ≤ l) && decide (l < key + pageBytes p.size))) }

/-- Subtract one reference of the prefix-cache entry whose object holds a page (R246, R259). -/
def Chip.pfxDrop (c : Chip) (slot object : Nat) : Chip :=
  { c with pfxPool := c.pfxPool.map (fun e =>
      if e.slot = slot ∧ e.object = object then { e with refs := e.refs - 1, lastUse := c.time.uptime } else e) }

/-- The prefix-cache entry whose object covers an address: the object's page object begins at or below it with no
other entry's object between. -/
def Chip.pfxAt (c : Chip) (slot va : Nat) : Option PfxEntry :=
  (c.pfxPool.filter (fun e => e.slot == slot && decide (e.object ≤ va))).foldl (fun a e =>
    match a with
    | none => some e
    | some b => if b.object < e.object then some e else some b) none

/-- UNMAP (OP 2): a tenant's own pages are freed; of a prefix-cache entry the object is dereferenced once. -/
def Chip.doUnmap (c : Chip) (m : MapOp) : Chip :=
  let objs := ((m.vas.filter (fun a => ((c.pageExact m.slot m.size a).map (·.pfx)).getD false)).filterMap
    (fun a => (c.pfxAt m.slot a).map (·.object))).eraseDups
  let c := m.vas.foldl (fun c a =>
    match c.pageExact m.slot m.size a with
    | some p => if p.pfx then c else c.dropPage (devKey m.slot a) p
    | none => c) c
  objs.foldl (fun c o => c.pfxDrop m.slot o) c

/-- Region key k of a slot (DCK_FAB, R288); a damaged one is 0, which no request matches. -/
def Chip.fabKey (c : Chip) (slot k : Nat) : Nat :=
  if c.damaged.any (fun o => o == .fabricKey (Fin.ofNat 64 slot) (Fin.ofNat 4 k)) then 0
  else c.fld (R.DCK_FAB slot (k / 2)) (if k % 2 = 0 then F.DCK_FAB.KEY_2f else F.DCK_FAB.KEY_2f_1)

/-- A SEALED mirror entry of a slot covers an address (R350). -/
def MirrorEntry.sealsAt (e : MirrorEntry) (slot va : Nat) : Bool :=
  let base := fget e.v1 ⟨21, 36⟩ * 2097152
  e.slot == slot && fget e.v0 ⟨34, 1⟩ != 0 && fget e.v0 ⟨35, 1⟩ != 0 && decide (base ≤ va) &&
    decide (va < base + fget e.v0 ⟨18, 16⟩ * 2097152)

/-- BUDDY of an entry. -/
def MirrorEntry.buddy (e : MirrorEntry) : Nat := fget e.v0 ⟨48, 16⟩
/-- BUDDY_WIN. -/
def MirrorEntry.window (e : MirrorEntry) : Nat := fget e.v0 ⟨38, 10⟩
/-- KEYSEL. -/
def MirrorEntry.keysel (e : MirrorEntry) : Nat := fget e.v0 ⟨36, 2⟩
/-- First address of the local range. -/
def MirrorEntry.base (e : MirrorEntry) : Nat := fget e.v1 ⟨21, 36⟩ * 2097152
/-- JOB_INDEX. -/
def MirrorEntry.jobIndex (e : MirrorEntry) : Nat := fget e.v1 ⟨11, 10⟩

/-- The enabled SEALED entries that cover an address. -/
def Chip.sealing (c : Chip) (slot va : Nat) : List MirrorEntry := (c.mirrors.filter (fun x => x.2.sealsAt slot va)).map (·.2)

/-- Seal one page: read-only from now on; an enabled SEALED mirror entry copies it with the step's stamp (R263, R350). -/
def Chip.sealPage (c : Chip) (slot va step : Nat) : Chip :=
  match tabGet c.pages (devKey slot va) with
  | none => c
  | some p =>
    if p.sealed_ then c
    else
      let c : Chip := { c with pages := tabPut c.pages (devKey slot va) { p with sealed_ := true } }
      let n := pageBytes p.size
      let data := (c.mem.filter (fun x => decide (devKey slot va ≤ x.1) && decide (x.1 < devKey slot va + n))).map (fun x => ((x.1 - devKey slot va, x.2) : Host.Cell))
      let c := (c.sealing slot va).foldl (fun (c : Chip) (e : MirrorEntry) => c.send (.mirrorSeal e.buddy e.window (c.fabKey slot e.keysel) (va - e.base) n step data)) c
      { c with mirrors := c.mirrors.map (fun x =>
          (x.1, if x.2.sealsAt slot va then { x.2 with stamps := x.2.stamps ++ [(va, step)] } else x.2)) }

/-- One more than the highest closed step of a job, 0 while none is closed (R348). -/
def Chip.closedSteps (c : Chip) (job : Nat) : Nat := (tabGetD c.jobSteps job (0, 0)).2

/-- The job of a mirror entry. -/
def Chip.entryJob (c : Chip) (e : MirrorEntry) : Nat := ((tabGet c.jobs e.jobIndex).map (fun j => fget j.v0 ⟨32, 32⟩)).getD 0

/-- The latest closed step of the jobs whose entries mirror a page, which a page sealed by MAP_CMD takes (R350). -/
def Chip.sealStep (c : Chip) (slot va : Nat) : Nat := (c.sealing slot va).foldl (fun a e => max a (c.closedSteps (c.entryJob e) - 1)) 0

/-- Remove from the weight table every object that a page holds a part of (R249). -/
def Chip.weightForget (c : Chip) (slot va n : Nat) : Chip :=
  { c with weights := tabUpd c.weights slot [] (fun l => l.filter (fun w => !overlap (w.base, w.length) (va, n))) }

/-- Unseal one page: promoted to T2 in its HOME ream, then writable again as its attributes say (R264). -/
def Chip.unsealPage (c : Chip) (slot va : Nat) : Chip :=
  match tabGet c.pages (devKey slot va) with
  | none => c
  | some p =>
    if ¬ p.sealed_ then c
    else
      let home := if p.home < 4 then p.home else 0
      let p' := { p with sealed_ := false, place := match p.place with
                                                     | .t2 r => .t2 r
                                                     | _ => .t2 home }
      let c := { c with pages := tabPut c.pages (devKey slot va) p' }
      let unstamp := fun (e : MirrorEntry) =>
        if e.sealsAt slot va then { e with stamps := e.stamps.filter (fun s => s.1 != va) } else e
      let c := (c.sealing slot va).foldl (fun (c : Chip) (e : MirrorEntry) =>
        c.send (.mirrorUnstamp e.buddy e.window (c.fabKey slot e.keysel) (va - e.base) (pageBytes p.size))) c
      let c : Chip := { c with mirrors := c.mirrors.map (fun (x : Nat × MirrorEntry) => (x.1, unstamp x.2)) }
      c.weightForget slot va (pageBytes p.size)

/-- The effect of an accepted operation. -/
def Chip.doOp (c : Chip) (m : MapOp) : Chip :=
  match m.op with
  | 1 => c.doMap m
  | 2 => c.doUnmap m
  | 3 => m.vas.foldl (fun c a => c.updPage m.slot a (fun p =>
           { p with read := fget m.attrs mapRead_ != 0, write := fget m.attrs mapWrite != 0 })) c
  | 4 => m.vas.foldl (fun c a => c.sealPage m.slot a (c.sealStep m.slot a)) c
  | 5 => m.vas.foldl (fun c a => c.unsealPage m.slot a) c
  | 6 => m.vas.foldl (fun c a => c.updPage m.slot a (fun p => { p with pin := true })) c
  | 7 => m.vas.foldl (fun c a => c.updPage m.slot a (fun p => { p with pin := p.radio })) c
  | _ => c

/-- Put a result in MAP_STAT. -/
def Chip.mapResult (c : Chip) (err : Nat) : Chip := c.setFld R.MAP_STAT F.MAP_STAT.ERR err

/-- The counts and words that a refusal leaves beside its code: UNSEAL_REFUSED, and a QUOTA_FULL word (R284, R304). -/
def Chip.mapRefuse (c : Chip) (m : MapOp) (err : Nat) : Chip :=
  let c := if m.op = 5 ∧ (err = 5 ∨ err = 3) then c.bump R.TIER_CNT2 F.TIER_CNT2.UNSEAL_REFUSED 1 else c
  if err = 3 then c.quotaFull m.slot 0 else c

/-- Run one operation: refused, done at once, or started and waiting under R261. -/
def Chip.runMap (c : Chip) (m : MapOp) : Chip :=
  let err := c.opErr m
  if err ≠ 0 then (c.mapRefuse m err).mapResult err
  else
    let rm := c.removes m
    let c := c.logMap m
    if rm then
      { (c.mark R.MAP_STAT F.MAP_STAT.BUSY) with
        mapRun := some ⟨m.op, m.slot, m.va, m.size, m.count, m.attrs, m.origin, c.time.uptime, none⟩ }
    else (c.doOp m).mapResult 0

/-- A MAP_CMD write of an operation (R259): the staging rules of R37, then the operation. A write while BUSY is
ignored. -/
def mapCmd (r : Requester) (op : Nat) (c : Chip) : Chip :=
  if ¬ mayReachBar0 r then c
  else if c.early r then c.noteEarly
  else if c.flag R.MAP_STAT F.MAP_STAT.BUSY then c
  else if ¬ (c.reg (R.MAP_STAGE 2) == ~~~ (c.reg (R.MAP_STAGE 0)) && c.reg (R.MAP_STAGE 3) == ~~~ (c.reg (R.MAP_STAGE 1))) then
    (c.integrity atChip).mapResult 1
  else c.runMap (c.stagedMap op (c.origin r))

/-- MAP (R259, R262, R266, R267). -/
def mapMap (r : Requester) (c : Chip) : Chip := mapCmd r 1 c

/-- UNMAP. -/
def mapUnmap (r : Requester) (c : Chip) : Chip := mapCmd r 2 c

/-- PROTECT. -/
def mapProtect (r : Requester) (c : Chip) : Chip := mapCmd r 3 c

/-- MAP_SEAL (R263). -/
def mapSeal (r : Requester) (c : Chip) : Chip := mapCmd r 4 c

/-- MAP_UNSEAL (R264). -/
def mapUnseal (r : Requester) (c : Chip) : Chip := mapCmd r 5 c

/-- PIN. -/
def mapPinOp (r : Requester) (c : Chip) : Chip := mapCmd r 6 c

/-- UNPIN. -/
def mapUnpin (r : Requester) (c : Chip) : Chip := mapCmd r 7 c

/-- The TIER code of a page. -/
def Page.tierCode (p : Page) : Nat := p.tier.getD 3

/-- The words V0 and V1 of a page as READ writes them back. -/
def pageWords (slot va : Nat) (p : Page) (count : Nat) : W64 × W64 :=
  (BitVec.ofNat 64 (va / 4096 * 4096 + p.size * 1024),
   BitVec.ofNat 64 ((count - 1) * 2 ^ 44 + slot * 2 ^ 38 + p.home * 2 ^ 35 + (if p.pin then 2 ^ 34 else 0) +
     (if p.write then 2 ^ 33 else 0) + (if p.read then 2 ^ 32 else 0) + (if p.radio then 2 ^ 31 else 0) +
     (if p.sealed_ then 2 ^ 30 else 0) + p.tierCode * 2 ^ 28))

/-- MAP_READ (R259 OP 8): the mapping of the first page into the staging value words. -/
def mapRead (r : Requester) (c : Chip) : Chip :=
  if ¬ mayReachBar0 r then c
  else if c.early r then c.noteEarly
  else if c.flag R.MAP_STAT F.MAP_STAT.BUSY then c
  else if ¬ (c.reg (R.MAP_STAGE 2) == ~~~ (c.reg (R.MAP_STAGE 0)) && c.reg (R.MAP_STAGE 3) == ~~~ (c.reg (R.MAP_STAGE 1))) then
    (c.integrity atChip).mapResult 1
  else
    let m := c.stagedMap 8 (c.origin r)
    match c.pageAt m.slot m.va with
    | none => c.mapResult 2
    | some (k, p) =>
      let w := pageWords m.slot (keyVa k) p m.count
      (((c.logMap m).setReg (R.MAP_STAGE 0) w.1).setReg (R.MAP_STAGE 1) w.2).mapResult 0

/-- The operation that runs. -/
def MapRun.toOp (m : MapRun) : MapOp := ⟨m.op, m.slot, m.va, m.size, m.count, m.attrs, m.origin⟩

/-! ### Deferred tier requests (R265) -/

/-- The pages of a range, each whole; none where the range does not cover whole pages. -/
def Chip.wholePages (c : Chip) (slot va n : Nat) : Option (List (Nat × Page)) :=
  let ps := (c.pagesIn slot va n).map (fun x => (keyVa x.1, x.2))
  if ps.all (fun x => decide (va ≤ x.1) && decide (x.1 + pageBytes x.2.size ≤ va + n)) &&
     ps.foldl (fun a x => a + pageBytes x.2.size) 0 == n then some ps else none

/-- The range of a command's tensor slot. -/
def Command.tensorRange (k : Command) (i : Nat) : Nat × Nat :=
  match k.tensors[i]? with
  | some t => (t.base, t.length)
  | none => (0, 0)

/-- A little-endian number in descriptor words at a byte offset (multiple of 2). -/
def wordsNat (ws : List W32) (off n : Nat) : Nat := natLE (((ws.flatMap (fun w => bytesLE 4 w.toNat)).drop off).take n)

/-- A deferred tier request's fields: tensor slot, first address, length, HINT action, record address. -/
structure TierReq where
  va : Nat
  n : Nat
  action : Nat
  record : Nat
deriving DecidableEq, Repr

/-- The fields of a deferred tier request of a command; the body begins at byte 16. -/
def tierReq (k : Command) (d : Deferred) : TierReq :=
  let slot := bitsOf (wordsNat d.words 16 4) 27 24
  let out := wordsNat d.words 44 4
  let range := k.tensorRange slot
  let rec_ := k.tensorRange (8 + bitsOf out 27 24)
  ⟨range.1 + wordsNat d.words 24 8, wordsNat d.words 32 8, wordsNat d.words 40 1, rec_.1 + bitsOf out 23 0 * 16⟩

/-- The first deferred request of a command, where it is of a kind and the command's tasks have all committed and
drained (R222): every other request waits its turn. -/
def Chip.headDeferred (c : Chip) (uid kind : Nat) : Option (Command × Deferred) :=
  match c.command uid with
  | none => none
  | some k =>
    if k.ending.isSome ∨ k.committed.length ≠ k.desc.tasks ∨ k.drained ≠ k.desc.tasks ∨ k.fabricOpen ≠ 0 ∨ ¬ k.partials.isEmpty then none
    else match k.deferred with
      | [] => none
      | d :: _ => if d.kind = kind then some (k, d) else none

/-- The head request of a command is done. -/
def Chip.popDeferred (c : Chip) (uid : Nat) : Chip := c.updCommand uid (fun k => { k with deferred := k.deferred.drop 1 })

/-- The 16-byte record of a deferred tier request. -/
def Chip.tierRecord (c : Chip) (k : Command) (q : TierReq) (done refused first : Nat) : Chip :=
  c.twrite k.slot q.record (bytesLE 4 done ++ bytesLE 4 refused ++ bytesLE 8 first)

/-- Apply a per-page action to a range: pages done, pages refused, the first refusal. -/
def Chip.tierEach (c : Chip) (ps : List (Nat × Page)) (act : Chip → Nat → Page → Nat × Chip) : (Nat × Nat × Nat) × Chip :=
  ps.foldl (fun (a : (Nat × Nat × Nat) × Chip) x =>
    let (code, c) := act a.2 x.1 x.2
    if code = 0 then ((a.1.1 + 1, a.1.2), c)
    else ((a.1.1, a.1.2.1 + 1, if a.1.2.2 = 0 then code else a.1.2.2), c)) ((0, 0, 0), c)

/-- Seal a page for a deferred request: 1 where it may not be sealed. -/
def sealAct (slot step : Nat) (c : Chip) (va : Nat) (p : Page) : Nat × Chip :=
  if p.radio || c.rxqOver slot va (pageBytes p.size) then (1, c) else (0, c.sealPage slot va step)

/-- Unseal a page for a deferred request: 1 for the cases of R264, 2 quota, 3 no capacity. -/
def unsealAct (slot : Nat) (c : Chip) (va : Nat) (p : Page) : Nat × Chip :=
  let n := pageBytes p.size
  let no := fun (code : Nat) => (code, c.bump R.TIER_CNT2 F.TIER_CNT2.UNSEAL_REFUSED 1)
  if ¬ p.sealed_ then (0, c)
  else if c.unsealBarred slot va p then no 1
  else if p.tier = some 0 then (0, c.unsealPage slot va)
  else if ¬ c.quotaRoom slot 0 n then ((no 2).1, (no 2).2.quotaFull slot 0)
  else if c.t2Free < n then (3, c)
  else (0, c.unsealPage slot va)

/-- The operation path of a deferred SEAL or UNSEAL: busy while another operation runs, waiting while another command
covers the range (R261, R265). The record is written and the log made when it takes effect. -/
def tierOp (kind op : Nat) (act : Nat → Command → Chip → Nat → Page → Nat × Chip) (uid : Nat) (c : Chip) : Chip :=
  match c.headDeferred uid kind with
  | none => c
  | some (k, d) =>
    let q := tierReq k d
    match c.mapRun with
    | some _ => c
    | none =>
      if c.covered k.slot q.va q.n (some uid) then
        { (c.mark R.MAP_STAT F.MAP_STAT.BUSY) with
          mapRun := some ⟨op, k.slot, q.va, 0, q.n / 4096, 0, k.slot + 2, c.time.uptime, some uid⟩ }
      else
        match c.wholePages k.slot q.va q.n with
        | none => (c.tierRecord k q 0 0 0).popDeferred uid
        | some ps =>
          let size := (ps.head?.map (fun x => x.2.size)).getD 0
          let (r, c) := c.tierEach ps (act uid k)
          let c := c.logMap ⟨op, k.slot, q.va, size, ps.length, 0, k.slot + 2⟩
          (c.tierRecord k q r.1 r.2.1 r.2.2).popDeferred uid

/-- SEAL (R265): the head deferred request of a command. -/
def tierSealDo (uid : Nat) (c : Chip) : Chip := tierOp 0x58 4 (fun _ k => sealAct k.slot k.desc.step) uid c

/-- UNSEAL (R264, R265). -/
def tierUnsealDo (uid : Nat) (c : Chip) : Chip := tierOp 0x59 5 (fun _ k => unsealAct k.slot) uid c

/-- A migration of a page starts. -/
def Chip.startMigration (c : Chip) (key : Nat) (goal : PagePlace) : Chip :=
  { c with migrations := c.migrations.filter (fun g => g.key != key) ++ [⟨key, goal⟩] }

/-- Bytes that running migrations will take at a place. -/
def Chip.inbound (c : Chip) (p : PagePlace) : Nat :=
  c.migrations.foldl (fun a g => if g.goal = p then a + ((tabGet c.pages g.key).map (fun x => pageBytes x.size)).getD 0 else a) 0

/-- Bytes that running migrations will charge to a slot's tier. -/
def Chip.inboundTier (c : Chip) (slot tier : Nat) : Nat :=
  c.migrations.foldl (fun a g =>
    match tabGet c.pages g.key with
    | some p => if keySlot g.key = slot ∧ ({ p with place := g.goal }).tier = some tier then a + pageBytes p.size else a
    | none => a) 0

/-- Bytes that running migrations will take from a slot's T2. -/
def Chip.outboundT2 (c : Chip) (slot : Nat) : Nat :=
  c.migrations.foldl (fun a g =>
    match tabGet c.pages g.key with
    | some p => if keySlot g.key = slot ∧ p.tier = some 0 then a + pageBytes p.size else a
    | none => a) 0

/-- Where a demoted page of a slot goes: T3 with quota and room, else T4 (R269). -/
def Chip.demoteTo (c : Chip) (slot n : Nat) : Option PagePlace :=
  let room := fun (p : PagePlace) => decide (c.placeUse p + c.inbound p + n ≤ c.placeCap p)
  let q3 := decide (c.tierUse slot 1 + c.inboundTier slot 1 + n ≤ c.tierQuota slot 1)
  let q4 := decide (c.tierUse slot 2 + c.inboundTier slot 2 + n ≤ c.tierQuota slot 2)
  match (if q3 then t3Places.find? room else none) with
  | some p => some p
  | none => if q4 then t4Places.find? room else none

/-- The ream a promoted page returns to: its HOME ream when that has room (R262). -/
def Chip.homePlace (c : Chip) (p : Page) : PagePlace :=
  let want := if p.home < 4 then p.home else 0
  if c.reamRoom want (pageBytes p.size) then .t2 want
  else match (List.range 4).find? (fun r => c.reamRoom r (pageBytes p.size)) with
    | some r => .t2 r
    | none => .t2 want

/-- One page of a HINT: 0 demote, 1 promote, 2 set PIN, 3 clear PIN. -/
def hintAct (action slot : Nat) (c : Chip) (va : Nat) (p : Page) : Nat × Chip :=
  let key := devKey slot va
  let n := pageBytes p.size
  match action with
  | 2 => (0, c.updPage slot va (fun p => { p with pin := true }))
  | 3 => (0, c.updPage slot va (fun p => { p with pin := p.radio }))
  | 0 =>
    if p.tier = some 1 then (0, c)
    else if ¬ p.sealed_ ∨ p.radio ∨ p.isRevoked ∨ p.pfx then (1, c)
    else if ¬ c.quotaRoom slot 1 n then (2, c)
    else match c.findPlace t3Places n with
      | some pl => (0, c.startMigration key pl)
      | none => (3, c)
  | _ =>
    if p.tier = some 0 then (0, c)
    else if p.isRevoked then (1, c)
    else if ¬ c.quotaRoom slot 0 n then (2, c)
    else if c.t2Free < n then (3, c)
    else (0, c.startMigration key (c.homePlace p))

/-- HINT (R265, R269). PIN and UNPIN make the log entries of their operations (R259). -/
def tierHintDo (uid : Nat) (c : Chip) : Chip :=
  match c.headDeferred uid 0x5A with
  | none => c
  | some (k, d) =>
    let q := tierReq k d
    if q.action ≥ 2 ∧ c.mapRun.isSome then c
    else
      match c.wholePages k.slot q.va q.n with
      | none => (c.tierRecord k q 0 0 0).popDeferred uid
      | some ps =>
        let size := (ps.head?.map (fun x => x.2.size)).getD 0
        let (r, c) := c.tierEach ps (hintAct q.action k.slot)
        let c := if q.action ≥ 2 then c.logMap ⟨q.action + 4, k.slot, q.va, size, ps.length, 0, k.slot + 2⟩ else c
        (c.tierRecord k q r.1 r.2.1 r.2.2).popDeferred uid

/-- The address ranges that an ingress entry touches (R323, R324). -/
def Ingress.spans (e : Ingress) : List (Nat × Nat) :=
  (e.va, match e.op with
    | .store _ d => d.length
    | .atomic _ a _ _ => if a = 2 ∨ a = 4 then 4 else 8
    | _ => 0) :: e.merged.map (fun m => (m.va, m.data.length))

/-- A change of mapping may complete: no other command covers it, no fabric request translated under it waits in an ingress
buffer, and no migration of its pages runs (R261, R264). -/
def Chip.runReady (c : Chip) (m : MapRun) : Bool :=
  !c.ingress.any (fun x => x.2.any (fun e => e.slot == m.slot && e.spans.any (fun r => overlap r (m.va, m.count * pageBytes m.size)))) &&
  !c.covered m.slot m.va (m.count * pageBytes m.size) m.cmd &&
  !c.migrations.any (fun g => keySlot g.key == m.slot && decide (m.va ≤ keyVa g.key) &&
    decide (keyVa g.key < m.va + m.count * pageBytes m.size))

/-- The operation of MAP_STAT ends. -/
def Chip.endRun (c : Chip) : Chip := ({ c with mapRun := none }).setFlag R.MAP_STAT F.MAP_STAT.BUSY false

/-- MAPPING_CHANGE_COMPLETE (R261). For a deferred request the request's own row then finishes it. -/
def mappingChangeComplete (c : Chip) : Chip :=
  match c.mapRun with
  | none => c
  | some m =>
    if ¬ c.runReady m then c
    else match m.cmd with
      | some _ => c.endRun
      | none =>
        let c := c.endRun
        let err := c.opErr m.toOp
        if err ≠ 0 then (c.mapRefuse m.toOp err).mapResult err else (c.doOp m.toOp).mapResult 0

/-- MAPPING_CHANGE_TIMEOUT (R261): after 10 ms the operation changes nothing and ERR is 4; a deferred request refuses
every page, and its code is a value the spec does not state (log entry 30). -/
def mappingChangeTimeout (c : Chip) : Chip :=
  match c.mapRun with
  | none => c
  | some m =>
    if c.time.uptime < m.started + 10000000 ∨ ¬ c.covered m.slot m.va (m.count * pageBytes m.size) m.cmd then c
    else match m.cmd with
      | none => c.endRun.mapResult 4
      | some uid =>
        let c := c.endRun
        match c.command uid with
        | some k =>
          match k.deferred with
          | d :: _ =>
            let q := tierReq k d
            let (w, c) := c.free
            (c.tierRecord k q 0 (c.pagesIn k.slot q.va q.n).length (w.toNat % 256)).popDeferred uid
          | [] => c
        | none => c

/-! ### Migration (R269, R270) -/

/-- Least recently read first, then by address. -/
def lruLt (a b : Nat × Page) : Bool :=
  decide (a.2.lastRead < b.2.lastRead) || (a.2.lastRead == b.2.lastRead && decide (a.1 < b.1))

/-- Insert into an ordered list. -/
def insertBy {α : Type} (lt : α → α → Bool) (x : α) : List α → List α
  | [] => [x]
  | y :: t => if lt x y then x :: y :: t else y :: insertBy lt x t

/-- Sort a list by an order. -/
def sortBy {α : Type} (lt : α → α → Bool) (l : List α) : List α := l.foldr (fun x acc => insertBy lt x acc) []

/-- A tenant page may be demoted. -/
def Chip.mayDemote (c : Chip) (slot : Nat) (x : Nat × Page) : Bool :=
  keySlot x.1 == slot && x.2.sealed_ && !x.2.pin && !x.2.radio && !x.2.pfx && x.2.tier == some 0 &&
    !c.migrations.any (fun g => g.key == x.1)

/-- Demote a tenant's pages until its T2 use is at or below TARGET_AT percent. -/
def Chip.demoteTenant (c : Chip) (slot : Nat) : Chip :=
  let quota := c.tierQuota slot 0
  let use := fun (c : Chip) => c.tierUse slot 0 - c.outboundT2 slot
  if use c * 100 ≤ quota * c.fld R.MIG_CFG F.MIG_CFG.DEMOTE_AT then c
  else (sortBy lruLt (c.pages.filter (c.mayDemote slot))).foldl (fun c x =>
    if use c * 100 ≤ quota * c.fld R.MIG_CFG F.MIG_CFG.TARGET_AT then c
    else match c.demoteTo slot (pageBytes x.2.size) with
      | some pl => c.startMigration x.1 pl
      | none => c) c

/-- Promote a tenant's pages with enough reads while its T2 use is below TARGET_AT percent. -/
def Chip.promoteTenant (c : Chip) (slot : Nat) : Chip :=
  let quota := c.tierQuota slot 0
  (c.pages.filter (fun x => keySlot x.1 == slot && (x.2.tier == some 1 || x.2.tier == some 2) && !x.2.pfx &&
      decide (c.fld R.MIG_CFG F.MIG_CFG.PROMOTE_HITS ≤ x.2.reads) && !c.migrations.any (fun g => g.key == x.1))).foldl (fun c x =>
    let n := pageBytes x.2.size
    let use := c.tierUse slot 0 + c.inboundTier slot 0
    if use * 100 < quota * c.fld R.MIG_CFG F.MIG_CFG.TARGET_AT ∧ use + n ≤ quota ∧ n ≤ c.t2Free then
      c.startMigration x.1 (c.homePlace x.2)
    else c) c

/-- Bytes of the prefix-cache pool in T2 and in T3. -/
def Chip.pfxUse (c : Chip) (tier : Nat) : Nat :=
  c.pages.foldl (fun a x => if x.2.pfx ∧ x.2.tier = some tier then a + pageBytes x.2.size else a) 0

/-- The prefix-cache pool's pages move between its two shares under the same policy, never to T4 (R268). -/
def Chip.migratePool (c : Chip) : Chip :=
  let share2 := 2 ^ 30 * c.fld R.TIER_CFG F.TIER_CFG.PFX_T2_GIB
  let share3 := 2 ^ 30 * c.fld R.TIER_CFG F.TIER_CFG.PFX_T3_GIB
  let moved := fun (c : Chip) (t3 : Bool) => c.migrations.foldl (fun a g =>
    match tabGet c.pages g.key with
    | some p => if p.pfx ∧ (p.tier = some 0) = (t3 = true) then a + pageBytes p.size else a
    | none => a) 0
  let c := if c.pfxUse 0 * 100 ≤ share2 * c.fld R.MIG_CFG F.MIG_CFG.DEMOTE_AT then c
    else (sortBy lruLt (c.pages.filter (fun x => x.2.pfx && x.2.tier == some 0 && !c.migrations.any (fun g => g.key == x.1)))).foldl
      (fun c x =>
        if (c.pfxUse 0 - moved c true) * 100 ≤ share2 * c.fld R.MIG_CFG F.MIG_CFG.TARGET_AT then c
        else if share3 < c.pfxUse 1 + moved c true + pageBytes x.2.size then c
        else match t3Places.find? (fun p => decide (c.placeUse p + c.inbound p + pageBytes x.2.size ≤ c.placeCap p)) with
          | some pl => c.startMigration x.1 pl
          | none => c) c
  (c.pages.filter (fun x => x.2.pfx && x.2.tier == some 1 && decide (c.fld R.MIG_CFG F.MIG_CFG.PROMOTE_HITS ≤ x.2.reads) &&
      !c.migrations.any (fun g => g.key == x.1))).foldl (fun c x =>
    if (c.pfxUse 0 + moved c false) * 100 < share2 * c.fld R.MIG_CFG F.MIG_CFG.TARGET_AT ∧
       c.pfxUse 0 + moved c false + pageBytes x.2.size ≤ share2 then c.startMigration x.1 (c.homePlace x.2) else c) c

/-- Move the pages of a place elsewhere, those on their way apart: to T2 within quota, or to another T3 place. -/
def Chip.evacuate (c : Chip) (pl : PagePlace) (order : (Nat × Page) → (Nat × Page) → Bool) : Chip :=
  (sortBy order (c.pages.filter (fun x => x.2.place == pl && !c.migrations.any (fun g => g.key == x.1)))).foldl (fun c x =>
    let slot := keySlot x.1
    let n := pageBytes x.2.size
    let t2ok := x.2.pfx || decide (c.tierUse slot 0 + c.inboundTier slot 0 + n ≤ c.tierQuota slot 0)
    if t2ok && decide (n ≤ c.t2Free) then c.startMigration x.1 (c.homePlace x.2)
    else
      let t3ok := x.2.pfx || x.2.tier == some 1 || decide (c.tierUse slot 1 + c.inboundTier slot 1 + n ≤ c.tierQuota slot 1)
      if ¬ t3ok then c
      else match (t3Places.filter (fun p => p != pl)).find? (fun p => decide (c.placeUse p + c.inbound p + n ≤ c.placeCap p)) with
        | some p => c.startMigration x.1 p
        | none => c) c

/-- Most recently read first. -/
def mruLt (a b : Nat × Page) : Bool := lruLt b a

/-- The engine takes up again the pages of draining regions and of windows that are evacuated (R257, R273). -/
def Chip.evacuateRest (c : Chip) : Chip :=
  let c := (List.range 8).foldl (fun (c : Chip) h => if c.flag (R.HOST_POOL_STAT h) F.HOST_POOL_STAT.DRAINING then c.evacuate (.hostPool h) mruLt else c) c
  (List.range 16).foldl (fun (c : Chip) w => if c.fld (R.BORROW_STAT w) F.BORROW_STAT.STATE = 3 then c.evacuate (.t4 w) mruLt else c) c

/-- MIGRATION_INTERVAL (R269): what is still to be evacuated, demotions, then promotions, then a new interval of read counts. -/
def migrationInterval (c : Chip) : Chip :=
  let c := c.evacuateRest
  let c :=
    if c.flag R.TIER_CFG F.TIER_CFG.MIG_EN then
      let c := (List.range 64).foldl (fun c s => c.demoteTenant s) c
      let c := (List.range 64).foldl (fun c s => c.promoteTenant s) c
      c.migratePool
    else c
  { c with interval := c.interval + 1, pages := c.pages.map (fun x => (x.1, { x.2 with reads := 0 })) }

/-- A page holds a poisoned line. -/
def Chip.pagePoisoned (c : Chip) (key : Nat) (p : Page) : Bool :=
  c.poison.any (fun l => decide (key ≤ l) && decide (l < key + pageBytes p.size))

/-- A destination still takes a page. -/
def Chip.destOk (c : Chip) (slot : Nat) (p : Page) (goal : PagePlace) : Bool :=
  match goal with
  | .t2 r => c.reamRoom r (pageBytes p.size) && (p.pfx || c.quotaRoom slot 0 (pageBytes p.size))
  | .revoked => false
  | _ => c.placeRoom goal (pageBytes p.size)

/-- PAGE_MIGRATION_COMPLETE (R270): the translation switches on every cache at once and the old frame is freed. A copy with
an uncorrectable error, or a poisoned source, leaves the page in its old tier (R337). -/
def pageMigrationComplete (slot : Fin 64) (va : Nat) (ok : Bool) (c : Chip) : Chip :=
  let key := devKey slot.val va
  match c.migrations.find? (fun g => g.key == key), tabGet c.pages key with
  | some g, some p =>
    let c := { c with migrations := c.migrations.filter (fun x => x.key != key) }
    if ¬ ok ∨ c.pagePoisoned key p then
      let c := c.bump R.TIER_CNT2 F.TIER_CNT2.MIG_UE 1
      if c.pagePoisoned key p then (c.notePoison slot.val va (pageBytes p.size)).softError atChip 0x06 .dataUncorrectable else c
    else if ¬ c.destOk slot.val p g.goal then c
    else
      let c := { c with pages := tabPut c.pages key { p with place := g.goal } }
      let up := match g.goal with
        | .t2 _ => true
        | _ => false
      let c := if up then c.bump R.TIER_CNT1 F.TIER_CNT1.PROMOTED 1 else c.bump R.TIER_CNT1 F.TIER_CNT1.DEMOTED 1
      (c.bump R.TIER_CNT2 F.TIER_CNT2.MIG_MIB (pageBytes p.size / 1048576)).perf .chip 0x0A (pageBytes p.size / 1024)
  | _, _ => c

/-! ### Host memory as T3 (R257) -/

/-- Apply a HOST_POOL write: an enabled region has a size (R284); clearing ENABLE drains a region that holds pages. -/
def applyHostPool (origin h : Nat) (v : W64) (c : Chip) : Chip :=
  let v := regWrite .HOST_POOL 0 v
  let en := fget v F.HOST_POOL.ENABLE != 0
  if en ∧ fget v F.HOST_POOL.SIZE_GIB = 0 then c.mark R.TIER_STAT F.TIER_STAT.CFG_REFUSED
  else
    let was := c.flag (R.HOST_POOL h) F.HOST_POOL.ENABLE
    let c := c.setLogged origin (R.HOST_POOL h) v
    if was ∧ ¬ en ∧ c.pages.any (fun x => x.2.place == .hostPool h) then
      (c.mark (R.HOST_POOL_STAT h) F.HOST_POOL_STAT.DRAINING).evacuate (.hostPool h) mruLt
    else c

/-- HOST_POOL_WRITE (R257). -/
def hostPoolWrite (r : Requester) (h : Fin 8) (v k : W64) (c : Chip) : Chip :=
  pairWrite r atChip (R.HOST_POOL h.val).addr false (k == ~~~ v) (applyHostPool (c.origin r) h.val v) c

/-- HOST_POOL_RELEASE (R257): a draining region that holds no page is released. -/
def hostPoolRelease (h : Fin 8) (c : Chip) : Chip :=
  if c.pages.any (fun x => x.2.place == .hostPool h.val) then c
  else c.setFlag (R.HOST_POOL_STAT h.val) F.HOST_POOL_STAT.DRAINING false

/-! ### Lending (R271 to R274) -/

/-- The lending state of window w. -/
def Chip.lendState (c : Chip) (w : Nat) : Nat := c.fld (R.LEND_STAT w) F.LEND_STAT.STATE

/-- Put the lending state. -/
def Chip.setLendState (c : Chip) (w s : Nat) : Chip :=
  if c.fld (R.LEND_STAT w) F.LEND_STAT.STATE = s then c else (c.setFld (R.LEND_STAT w) F.LEND_STAT.STATE s).irq 14

/-- A window beside its registers. -/
def Chip.lendWin (c : Chip) (w : Nat) : WinState := tabGetD c.lend w ⟨none, [], []⟩

/-- Put a lent window's state; an empty one is not listed. -/
def Chip.setLendWin (c : Chip) (w : Nat) (x : WinState) : Chip :=
  { c with lend := if x = ⟨none, [], []⟩ then tabDel c.lend w else tabPut c.lend w x }

/-- Apply a LEND_WIN write (R271 to R273): taking the size from free T2, refusing to clear a lent window, and RECALL. -/
def applyLendWin (origin w : Nat) (v0 v1 : W64) (c : Chip) : Chip :=
  let v0 := regWrite .LEND_WIN0 0 v0
  let v1 := regWrite .LEND_WIN1 0 v1
  let en := fget v0 F.LEND_WIN0.ENABLE != 0
  let was := c.flag (R.LEND_WIN0 w) F.LEND_WIN0.ENABLE
  let size := fget v0 F.LEND_WIN0.SIZE_GIB
  let st := c.lendState w
  let refuse := c.mark R.TIER_STAT F.TIER_STAT.CFG_REFUSED
  if 16 < size ∨ (en ∧ size = 0) then refuse
  else if was ∧ ¬ en ∧ 2 ≤ st then refuse
  else if en ∧ ¬ was ∧ c.t2Free < size * 2 ^ 30 then refuse
  else
    let again := fget v0 F.LEND_WIN0.RECALL != 0 && !c.flag (R.LEND_WIN0 w) F.LEND_WIN0.RECALL
    let c := (c.setLogged origin (R.LEND_WIN0 w) v0).setLogged origin (R.LEND_WIN1 w) v1
    let c := if en ∧ ¬ was then c.setLendState w 1 else if was ∧ ¬ en then c.setLendState w 0 else c
    if again ∧ st = 2 then
      let d := c.taiNs + 100000000
      ((c.setLendState w 3).setLendWin w { c.lendWin w with deadline := some d }).send
        (.lendMsg (fget v0 F.LEND_WIN0.BORROWER) w (.recalled d))
    else c

/-- A host write of one bit of LEND_WIN word 0, the other fields as they stand. -/
def lendBit (r : Requester) (w : Nat) (f : Fld) (c : Chip) : Chip :=
  pairWrite r atChip (R.LEND_WIN0 w).addr true true (applyLendWin (c.origin r) w (fput (c.reg (R.LEND_WIN0 w)) f 1) (c.reg (R.LEND_WIN1 w))) c

/-- LEND_WIN_ENABLE (R271). -/
def lendWinEnable (r : Requester) (w : Fin 16) (c : Chip) : Chip := lendBit r w.val F.LEND_WIN0.ENABLE c

/-- LEND_RECALL (R273). -/
def lendRecall (r : Requester) (w : Fin 16) (c : Chip) : Chip := lendBit r w.val F.LEND_WIN0.RECALL c

/-- MiB that a range touches. -/
def mibOf (off n : Nat) : List Nat :=
  if n = 0 then [] else (List.range ((off + n - 1) / 1048576 + 1 - off / 1048576)).map (fun i => off / 1048576 + i)

/-- A refused request into a lent window. -/
def Chip.lendDeny (c : Chip) (w src : Nat) : Chip :=
  (c.bump (R.LEND_STAT w) F.LEND_STAT.DENIED 1).send (.lendMsg src w .denied)

/-- LEND_REQUEST (R271, R272): the named borrower with the window's key connects, its migration engine writes, and its
tenants read; anything else is refused and counted. -/
def lendRequest (w : Fin 16) (src : W16) (key : W32) (kind : LendKind) (c : Chip) : Chip :=
  let w := w.val
  let st := c.lendState w
  let size := c.fld (R.LEND_WIN0 w) F.LEND_WIN0.SIZE_GIB * 2 ^ 30
  if st = 0 ∨ src.toNat ≠ c.fld (R.LEND_WIN0 w) F.LEND_WIN0.BORROWER ∨ key.toNat ≠ c.fld (R.LEND_WIN1 w) F.LEND_WIN1.KEY then
    c.lendDeny w src.toNat
  else match kind with
  | .connect => if st = 1 then (c.setLendState w 2).send (.lendMsg src.toNat w .accepted) else c.lendDeny w src.toNat
  | .engineWrite off data =>
    if st = 1 ∨ size < off + data.length then c.lendDeny w src.toNat
    else
      let x := c.lendWin w
      c.setLendWin w { x with data := memWrite x.data off data,
                              mib := x.mib ++ (mibOf off data.length).filter (fun m => !x.mib.contains m) }
  | .read off n =>
    if st = 1 ∨ size < off + n then c.lendDeny w src.toNat
    else c.send (.lendMsg src.toNat w (.data (memRead (c.lendWin w).data off n)))
  | .otherWrite => c.lendDeny w src.toNat

/-- The lender frees a window: its size returns to free T2 and RECALL clears (R273, R274). -/
def Chip.lendFree (c : Chip) (w : Nat) : Chip :=
  ((c.setLendState w 0).setLendWin w ⟨none, [], []⟩).setFlag (R.LEND_WIN0 w) F.LEND_WIN0.RECALL false

/-- DONE_RECEIVE (R273). -/
def doneReceive (w : Fin 16) (c : Chip) : Chip := if c.lendState w.val = 3 then c.lendFree w.val else c

/-! ### Borrowing -/

/-- The borrowing state of window w. -/
def Chip.borrowState (c : Chip) (w : Nat) : Nat := c.fld (R.BORROW_STAT w) F.BORROW_STAT.STATE

/-- Put the borrowing state. -/
def Chip.setBorrowState (c : Chip) (w s : Nat) : Chip :=
  if c.fld (R.BORROW_STAT w) F.BORROW_STAT.STATE = s then c else (c.setFld (R.BORROW_STAT w) F.BORROW_STAT.STATE s).irq 14

/-- Put a borrowed window's deadline. -/
def Chip.setBorrowWin (c : Chip) (w : Nat) (d : Option Nat) : Chip :=
  { c with borrow := if d.isNone then tabDel c.borrow w else tabPut c.borrow w ⟨d, [], []⟩ }

/-- The borrowed window's deadline. -/
def Chip.borrowDeadline (c : Chip) (w : Nat) : Option Nat := (tabGetD c.borrow w ⟨none, [], []⟩).deadline

/-- A window holds pages. -/
def Chip.windowHolds (c : Chip) (w : Nat) : Bool := c.pages.any (fun x => x.2.place == .t4 w)

/-- Apply a BORROW_WIN write: setting ENABLE connects; clearing it evacuates without a deadline (R271, R284). -/
def applyBorrowWin (origin w : Nat) (v0 v1 : W64) (c : Chip) : Chip :=
  let v0 := regWrite .BORROW_WIN0 0 v0
  let v1 := regWrite .BORROW_WIN1 0 v1
  let en := fget v0 F.BORROW_WIN0.ENABLE != 0
  let was := c.flag (R.BORROW_WIN0 w) F.BORROW_WIN0.ENABLE
  let size := fget v0 F.BORROW_WIN0.SIZE_GIB
  if 16 < size ∨ (en ∧ size = 0) then c.mark R.TIER_STAT F.TIER_STAT.CFG_REFUSED
  else
    let c := (c.setLogged origin (R.BORROW_WIN0 w) v0).setLogged origin (R.BORROW_WIN1 w) v1
    if en ∧ ¬ was then
      (c.setBorrowState w 1).send (.lendMsg (fget v0 F.BORROW_WIN0.LENDER) (fget v0 F.BORROW_WIN0.LENDER_WIN)
        (.connect (BitVec.ofNat 32 (fget v1 F.BORROW_WIN1.KEY))))
    else if was ∧ ¬ en then
      if c.windowHolds w then (c.setBorrowState w 3).evacuate (.t4 w) mruLt
      else (c.setBorrowState w 0).setBorrowWin w none
    else c

/-- A host write of ENABLE of a borrowed window. -/
def borrowEnable (r : Requester) (w en : Nat) (c : Chip) : Chip :=
  pairWrite r atChip (R.BORROW_WIN0 w).addr true true
    (applyBorrowWin (c.origin r) w (fput (c.reg (R.BORROW_WIN0 w)) F.BORROW_WIN0.ENABLE en) (c.reg (R.BORROW_WIN1 w))) c

/-- BORROW_CONNECT (R271). -/
def borrowConnect (r : Requester) (w : Fin 16) (c : Chip) : Chip := borrowEnable r w.val 1 c

/-- BORROW_RELEASE (R284). -/
def borrowRelease (r : Requester) (w : Fin 16) (c : Chip) : Chip := borrowEnable r w.val 0 c

/-- BORROW_WIN_IN_USE (R271): the lender's acceptance arrives. -/
def borrowWinInUse (w : Fin 16) (c : Chip) : Chip := if c.borrowState w.val = 1 then c.setBorrowState w.val 2 else c

/-- RECALL_RECEIVE (R273): the most recently read pages go first, to T2 within the quota, else to T3. -/
def recallReceive (w : Fin 16) (deadline : Nat) (c : Chip) : Chip :=
  if c.borrowState w.val = 2 ∨ c.borrowState w.val = 3 then
    ((c.setBorrowState w.val 3).setBorrowWin w.val (some deadline)).evacuate (.t4 w.val) mruLt
  else c

/-- EVACUATION_DONE (R273, R284): the window is empty; the done message goes to the lender and the window is off. -/
def evacuationDone (w : Fin 16) (c : Chip) : Chip :=
  if c.borrowState w.val = 3 ∧ ¬ c.windowHolds w.val then
    ((c.setBorrowState w.val 0).setBorrowWin w.val none).send
      (.lendMsg (c.fld (R.BORROW_WIN0 w.val) F.BORROW_WIN0.LENDER) (c.fld (R.BORROW_WIN0 w.val) F.BORROW_WIN0.LENDER_WIN) .done)
  else c

/-- RECALL_DEADLINE (R274): the lender frees the window; the borrower revokes every page still in it. -/
def recallDeadline (side : LendSide) (w : Fin 16) (c : Chip) : Chip :=
  let w := w.val
  match side with
  | .lender =>
    match (c.lendWin w).deadline with
    | some d => if c.lendState w = 3 ∧ d ≤ c.taiNs then c.lendFree w else c
    | none => c
  | .borrower =>
    match c.borrowDeadline w with
    | some d =>
      if c.borrowState w = 3 ∧ d ≤ c.taiNs then
        let n := (c.pages.filter (fun x => x.2.place == .t4 w)).length
        let gone := fun (x : Nat × Page) => if x.2.place = .t4 w then (x.1, { x.2 with place := .revoked }) else x
        let lost := (c.pages.filter (fun x => x.2.place == .t4 w)).map (·.1)
        let c := { c with pages := c.pages.map gone, migrations := c.migrations.filter (fun g => !lost.contains g.key) }
        ((((c.setBorrowState w 4).setBorrowWin w none).bump (R.BORROW_STAT w) F.BORROW_STAT.REVOKED n).bump R.TIER_CNT2 F.TIER_CNT2.REVOKED n)
      else c
    | none => c

/-- REQUEST_AGE_FORCE (R277): a request held for 2 µs goes next and is counted. It needs a request of the ream. -/
def requestAgeForce (ream : Fin 4) (c : Chip) : Chip :=
  if c.sheets.any (fun x => keyQuire x.1 / 8 == ream.val && x.2.dma.any (fun d => !d.served)) then
    c.bump (R.MSCHED_CNT ream.val) F.MSCHED_CNT.AGE_FORCED 1
  else c

end Sys2Proof.Machine
end

