-- ==== Sys2Proof/Machine/Fabric.lean ====
section
/-! DEFINITION. The memory fabric and messaging (R309 to R332): links, tables, receiver checks, remote reads, records of the
send engines, atomics, messages, dead targets and the teardown of a job. -/

namespace Sys2Proof.Machine

/-! ### Identity, tables and keys -/

/-- The part's own chip identifier. -/
def Chip.chipId (c : Chip) : Nat := c.fld R.FAB_CFG F.FAB_CFG.CHIP_ID

/-- The route entry of a chip: its own is loopback with DOMAIN set (R314); a damaged one is not valid (R334). -/
def Chip.route (c : Chip) (dest : Nat) : W64 :=
  if dest = c.chipId then 3
  else if c.damaged.contains (.route dest) then 0
  else tabGetD c.routes dest 0

/-- A route is in use. -/
def Chip.routeValid (c : Chip) (dest : Nat) : Bool := fget (c.route dest) ⟨0, 1⟩ != 0

/-- A chip belongs to the domain (R309). -/
def Chip.inDomain (c : Chip) (dest : Nat) : Bool := fget (c.route dest) ⟨1, 1⟩ != 0

/-- Other chips of the domain. -/
def Chip.domainChips (c : Chip) : List Nat :=
  (c.routes.filter (fun x => x.1 != c.chipId && fget x.2 ⟨1, 1⟩ != 0)).map (·.1)

/-- The valid job entry of a job, with its index. -/
def Chip.jobAt (c : Chip) (job : Nat) : Option (Nat × FabJob) :=
  c.jobs.find? (fun x => fget x.2.v0 ⟨0, 1⟩ != 0 && fget x.2.v0 ⟨32, 32⟩ == job && !c.damaged.contains (.job x.1))

/-- A task of a slot may issue fabric requests under a job (R316). -/
def Chip.jobOk (c : Chip) (job slot : Nat) : Bool :=
  job != 0 && c.flag R.FAB_CFG F.FAB_CFG.FAB_EN &&
  (match c.jobAt job with
   | some (_, j) => !j.torn && fget j.v0 ⟨26, 6⟩ == slot
   | none => false)

/-- JOB of a window or receive-queue word V1. -/
def tabJob : Fld := ⟨32, 32⟩
/-- SLOT. -/
def tabSlot : Fld := ⟨26, 6⟩
/-- KEYSEL. -/
def tabKeysel : Fld := ⟨24, 2⟩
/-- VA_BASE of word V0. -/
def tabBase : Fld := ⟨12, 45⟩

/-- Receive queue i; a damaged one is not valid. -/
def Chip.rxq (c : Chip) (i : Nat) : Option RxQueue :=
  if c.damaged.contains (.rxq i) then none else tabGet c.rxqs i

/-- Put receive queue i. -/
def Chip.setRxq (c : Chip) (i : Nat) (q : RxQueue) : Chip := { c with rxqs := tabPut c.rxqs i q }

/-- Receive queues bound to a slot and job. -/
def Chip.boundRxqs (c : Chip) (slot job : Nat) : List Nat :=
  (c.rxqs.filter (fun x => x.2.on && fget x.2.v1 tabSlot == slot && fget x.2.v1 tabJob == job && !c.damaged.contains (.rxq x.1))).map (·.1)

/-! ### Links (R310 to R314) -/

/-- A port at reset: no replays, credits as at link-up (R313). -/
def fabPortReset : FabPort := ⟨0, 0, false, [], [32, 256, 256, 256], 0, 0, none⟩

/-- Fabric port f. -/
def Chip.fport (c : Chip) (f : Nat) : FabPort := tabGetD c.fabPorts f fabPortReset

/-- Change fabric port f. -/
def Chip.updFport (c : Chip) (f : Nat) (g : FabPort → FabPort) : Chip := { c with fabPorts := tabPut c.fabPorts f (g (c.fport f)) }

/-- The link of port f is up. -/
def Chip.fabUp (c : Chip) (f : Nat) : Bool := c.flag (R.FPORT_STAT f) F.FPORT_STAT.LINK_UP

/-- A port counter saturates and sets STICKY_SAT (R332). -/
def Chip.fportCount (c : Chip) (f n inc : Nat) : Chip :=
  let c' := c.bump (R.FPORT_CNT f n) ⟨0, 64⟩ inc
  if 2 ^ 64 ≤ c.fld (R.FPORT_CNT f n) ⟨0, 64⟩ + inc then c'.mark (R.FPORT_STAT f) F.FPORT_STAT.STICKY_SAT else c'

/-- A sequence number lies in the window that an acknowledgement covers. -/
def ackCovers (ack seq : Nat) : Bool := decide ((ack + 4096 - seq) % 4096 < 2048)

/-- FLIT_RECEIVE (R310 to R313): a bad or out-of-order flit makes the port discard and send a NAK naming the expected
sequence; a good one is acknowledged, frees acknowledged flits of the replay buffer and returns credits. -/
def flitReceive (port : Fin 6) (f : Flit) (c : Chip) : Chip :=
  let p := port.val
  if ¬ c.fabUp p then c
  else
    let c := (c.fportCount p 2 f.corrected).perf .chip 0x06 1
    let c := if f.uncorrectable then (c.fportCount p 3 1).softError atChip 0x08 .fecOrReplay else c
    let st := c.fport p
    if ¬ f.crcOk ∨ f.uncorrectable ∨ f.seq.val ≠ st.rx then
      let c := if f.crcOk then c else c.fportCount p 4 1
      if st.discarding then c
      else (c.updFport p (fun s => { s with discarding := true })).send (.fabNak p st.rx)
    else
      let c := c.updFport p (fun s => { s with
        rx := (s.rx + 1) % 4096
        discarding := false
        replay := s.replay.filter (fun x => !ackCovers f.ackSeq.val x.seq)
        credits := updNth s.credits f.creditVc.val (· + f.credits.val) })
      let c := c.fportCount p 1 1
      let c := if f.type.val = 1 ∨ f.type.val = 2 then c.fportCount p 9 244 else c
      if f.type.val = 1 ∧ ¬ f.mine then c.fportCount p 7 1 else c

/-- A port begins to retrain: its link is down, counted (R312). -/
def Chip.retrain (c : Chip) (p : Nat) : Chip :=
  let c := (c.updFport p (fun s => { s with retrain := some c.time.uptime, replays := 0 })).setFlag (R.FPORT_STAT p) F.FPORT_STAT.LINK_UP false
  let c := (c.bump (R.FPORT_STAT p) F.FPORT_STAT.RETRAIN_CNT 1).mark (R.FPORT_STAT p) F.FPORT_STAT.STICKY_RETRAIN
  c.softError atChip 0x08 .retrain

/-- NAK_RECEIVE (R312): the sender replays from the named flit; after 8 replays of the same flit in a row the port
retrains. -/
def nakReceive (port : Fin 6) (seq : Fin 4096) (c : Chip) : Chip :=
  let p := port.val
  let st := c.fport p
  if ¬ c.fabUp p ∨ ¬ st.replay.any (fun x => x.seq == seq.val) then c
  else
    let n := if st.replays ≠ 0 ∧ st.replayed = seq.val then st.replays + 1 else 1
    let c := c.updFport p (fun s => { s with
      replay := s.replay.dropWhile (fun x => x.seq != seq.val)
      replayed := seq.val
      replays := n })
    let c := ((c.fportCount p 5 1).softError atChip 0x08 .fecOrReplay).send (.fabReplay p seq.val)
    if 8 ≤ n then c.retrain p else c

/-- LINK_RETRAIN_COMPLETE (R312, R313): an enabled port that retrains comes up, with what it learned of its peer and the
credits of link-up. -/
def linkRetrainComplete (port : Fin 6) (peerChip peerPort : Nat) (peerSwitch : Bool) (c : Chip) : Chip :=
  let p := port.val
  if ¬ c.portExists (4 + p) ∨ ¬ c.flag (R.FPORT_CFG p) F.FPORT_CFG.ENABLE ∨ (c.fport p).retrain.isNone then c
  else
    let c := c.updFport p (fun s => { s with retrain := none, credits := fabPortReset.credits, replays := 0 })
    let c := c.setFld (R.FPORT_STAT p) F.FPORT_STAT.PEER_CHIP (if peerSwitch then 0 else peerChip)
    let c := c.setFld (R.FPORT_STAT p) F.FPORT_STAT.PEER_PORT peerPort
    let c := c.setFlag (R.FPORT_STAT p) F.FPORT_STAT.PEER_SWITCH peerSwitch
    c.mark (R.FPORT_STAT p) F.FPORT_STAT.LINK_UP

/-- FABRIC_LINK_DOWN (R314): the port's link goes down and it trains again; records under way on it time out (R328), and
new packets move to the next port up (`sendPort`). -/
def fabricLinkDown (port : Fin 6) (c : Chip) : Chip :=
  let p := port.val
  if ¬ c.fabUp p then c
  else (c.updFport p (fun s => { s with retrain := some c.time.uptime, replay := [] })).setFlag (R.FPORT_STAT p) F.FPORT_STAT.LINK_UP false

/-- Apply a FPORT_CFG write: enabling trains the link, clearing ENABLE takes it down (R332). -/
def applyFportCfg (origin p : Nat) (v : W64) (c : Chip) : Chip :=
  let v := regWrite .FPORT_CFG 0 v
  let en := fget v F.FPORT_CFG.ENABLE != 0
  let was := c.flag (R.FPORT_CFG p) F.FPORT_CFG.ENABLE
  let c := c.setLogged origin (R.FPORT_CFG p) v
  if en ∧ ¬ was then c.updFport p (fun s => { s with retrain := some c.time.uptime })
  else if was ∧ ¬ en then
    (c.updFport p (fun s => { s with retrain := none, replay := [] })).setFlag (R.FPORT_STAT p) F.FPORT_STAT.LINK_UP false
  else c

/-- The lowest-numbered port of a destination's PORTS whose link is up; 6 stands for loopback (R314). -/
def Chip.routePort (c : Chip) (dest : Nat) : Option Nat :=
  if dest = c.chipId then some 6
  else if ¬ c.routeValid dest then none
  else (List.range 6).find? (fun f => bitOf (fget (c.route dest) ⟨2, 6⟩) f && c.fabUp f)

/-- A read or record to a destination is under way. -/
def Chip.underWay (c : Chip) (dest : Nat) : Bool :=
  c.engines.any (fun x => x.2.any (fun r => r.dest == dest && r.gone != 0 || r.dest == dest && r.state != .queued)) ||
  c.sheets.any (fun x => x.2.dma.any (fun d => (d.kind == 8 || d.kind == 9) && d.sent.isSome && !d.served &&
    wordsNat d.words 16 2 == dest))

/-- The port that new packets for a destination take: a change of port waits until what was sent to it has been
acknowledged or has timed out (R314). -/
def Chip.sendPort (c : Chip) (dest : Nat) : Option Nat :=
  match c.routePort dest with
  | none => none
  | some p => if tabGetD c.lastPort dest p ≠ p ∧ c.underWay dest then none else some p

/-- Flits of a packet with so many bytes of payload: a 48-byte header and the payload, 244 bytes a flit (R311, R321). -/
def flitsOf (payload : Nat) : Nat := (48 + payload + 243) / 244

/-- The tenant group of a slot on a port, E0 to F5 as 0 to 9 (DCK_SHP). -/
def Chip.shpGroupOf (c : Chip) (slot p : Nat) : Nat := c.fld (R.DCK_SHP slot) ⟨54 - 6 * p, 6⟩

/-- The DRR queue of a tenant packet on a fabric port (R330). -/
def Chip.fabQueue (c : Chip) (slot f cls : Nat) : Nat := c.shpGroupOf slot (4 + f) * 8 + cls

/-- A packet of so many flits may leave on a port and channel: credits, replay room, and for a shaped class its buckets
(R312, R313, R330). Loopback passes. -/
def Chip.maySend (c : Chip) (p vc flits slot cls charge : Nat) : Bool :=
  p == 6 ||
  (decide (flits ≤ nth (c.fport p).credits vc 0) && decide ((c.fport p).replay.length + flits ≤ 1024) &&
   (decide (cls < 2) || (c.eg (4 + p)).eligible (c.fabQueue slot p cls) (256 * charge)))

/-- Sequence numbers for so many flits. -/
def newFlits (tx vc n : Nat) : List SentFlit := (List.range n).map (fun i => ⟨(tx + i) % 4096, vc⟩)

/-- A packet leaves: credits and buckets are charged, its flits enter the replay buffer and are counted. -/
def Chip.sendFlits (c : Chip) (p vc flits slot cls charge : Nat) : Chip :=
  if p = 6 then c
  else
    let c := c.updFport p (fun s => { s with
      credits := updNth s.credits vc (· - flits)
      replay := s.replay ++ newFlits s.tx vc flits
      tx := (s.tx + flits) % 4096 })
    let c := (c.fportCount p 0 flits).fportCount p 8 (244 * flits)
    if cls < 2 then c else c.updEg (4 + p) (fun e => e.charge (c.fabQueue slot p cls) (256 * charge))

/-! ### Table writes (R314, R316, R317, R325, R332) -/

/-- Put a result in TAB_STAT.ERR. -/
def Chip.tabResult (c : Chip) (err : Nat) : Chip := c.setFld R.TAB_STAT F.TAB_STAT.ERR err

/-- The staged words match their complements. -/
def Chip.tabStaged (c : Chip) : Bool :=
  c.reg (R.TAB_STAGE 2) == ~~~ (c.reg (R.TAB_STAGE 0)) && c.reg (R.TAB_STAGE 3) == ~~~ (c.reg (R.TAB_STAGE 1))

/-- The complement-carried value of a table entry. -/
def tabObject (table index : Nat) : CompObject :=
  match table with
  | 0 => .route index
  | 1 => .window index
  | 2 => .rxq index
  | _ => .job index

/-- The shared shape of a TAB_CMD write: the staging rules of R37, the checks, the change-log entries and the store. -/
def tabWrite (r : Requester) (table index : Nat) (err : Nat) (old : W64 × W64) (store : Chip → Chip) (new : W64 × W64) (c : Chip) : Chip :=
  if ¬ mayReachBar0 r then c
  else if c.early r then c.noteEarly
  else if ¬ c.tabStaged then (c.integrity atChip).tabResult 1
  else if err ≠ 0 then c.tabResult err
  else ((store (c.logTable (c.origin r) (3 + table) index old.1 old.2 new.1 new.2)).mend (tabObject table index)).tabResult 0

/-- Keep DOMAIN_CHIPS as the routes say. -/
def Chip.domainRefresh (c : Chip) : Chip := c.setFld R.FAB_STAT F.FAB_STAT.DOMAIN_CHIPS c.domainChips.length

/-- ROUTE_WRITE (R314, R315). -/
def routeWrite (r : Requester) (index : Fin 65536) (c : Chip) : Chip :=
  let i := index.val
  let v := c.reg (R.TAB_STAGE 0) &&& 0xFF#64
  let others := (c.domainChips.filter (fun j => j != i)).length
  let err :=
    if i = c.chipId then 6
    else if c.ident.part = .fdn12h1d ∧ fget v ⟨5, 3⟩ ≠ 0 then 3
    else if fget v ⟨1, 1⟩ ≠ 0 ∧ 143 < others + 1 then 4 else 0
  tabWrite r 0 i err (tabGetD c.routes i 0, 0)
    (fun c => ({ c with routes := tabPut c.routes i v, incarnations := tabDel c.incarnations i }).domainRefresh) (v, 0) c

/-- A range lies wholly in device windows of a slot; windows are whole GiB. -/
def Chip.deviceCovered (c : Chip) (slot va n : Nat) : Bool :=
  n != 0 && (List.range ((va + n - 1) / 2 ^ 30 + 1 - va / 2 ^ 30)).all (fun g =>
    (c.wins slot).any (fun w => w.type == 1 && w.has ((va / 2 ^ 30 + g) * 2 ^ 30)))

/-- WINDOW_WRITE (R317). -/
def windowWrite (r : Requester) (index : Fin 65536) (c : Chip) : Chip :=
  let i := index.val
  let v0 := c.reg (R.TAB_STAGE 0)
  let v1 := c.reg (R.TAB_STAGE 1)
  let base := fget v0 tabBase * 4096
  let size := fget v1 ⟨0, 16⟩ * 2097152
  let err :=
    if 1024 ≤ i then 2
    else if fget v1 tabJob = 0 ∨ size = 0 ∨ base % 2097152 ≠ 0 then 3
    else if ¬ c.deviceCovered (fget v1 tabSlot) base size then 5 else 0
  let old := match tabGet c.windows i with
    | some w => (w.v0, w.v1)
    | none => (0, 0)
  tabWrite r 1 i err old (fun c => { c with windows := tabPut c.windows i ⟨v0, v1, 0⟩ }) (v0, v1) c

/-- Every page of a range is mapped, writable and unsealed (R325). -/
def Chip.rxMemOk (c : Chip) (slot va n : Nat) : Bool :=
  (blocksOf va n).all (fun b =>
    match c.pageAt slot (b * 4096) with
    | some (_, p) => p.write && !p.sealed_ && !p.isRevoked
    | none => false)

/-- RXQ_WRITE (R325). -/
def rxqWrite (r : Requester) (index : Fin 65536) (c : Chip) : Chip :=
  let i := index.val
  let v0 := c.reg (R.TAB_STAGE 0)
  let v1 := c.reg (R.TAB_STAGE 1)
  let q : RxQueue := ⟨v0, v1, 0, 0, 0, [], []⟩
  let le := fget v1 ⟨20, 4⟩
  let ls := fget v1 ⟨15, 5⟩
  let err :=
    if 4096 ≤ i then 2
    else if fget v1 tabJob = 0 ∨ le < 2 ∨ 12 < le ∨ ls < 8 ∨ 21 < ls then 3
    else if ¬ c.rxMemOk q.range.1 q.range.2.1 q.range.2.2 then 5 else 0
  let old := match tabGet c.rxqs i with
    | some w => (w.v0, w.v1)
    | none => (0, 0)
  tabWrite r 2 i err old (fun c => c.setRxq i q) (v0, v1) c

/-- JOB_WRITE (R316, R329): TORN is cleared. -/
def jobWrite (r : Requester) (index : Fin 65536) (c : Chip) : Chip :=
  let i := index.val
  let v0 := fput (c.reg (R.TAB_STAGE 0)) ⟨1, 1⟩ 0
  let err := if 1024 ≤ i then 2 else if fget v0 ⟨32, 32⟩ = 0 then 3 else 0
  let old := match tabGet c.jobs i with
    | some j => j.v0
    | none => 0
  tabWrite r 3 i err (old, 0) (fun c => { c with jobs := tabPut c.jobs i ⟨v0, false, [], [], []⟩ }) (v0, 0) c

/-- An entry's two words and its TAB_INFO. -/
def Chip.tabEntry (c : Chip) (table i : Nat) : W64 × W64 × W64 :=
  match table with
  | 0 => (if i = c.chipId then 3 else tabGetD c.routes i 0, 0, 0)
  | 1 => match tabGet c.windows i with
    | some w => (w.v0, w.v1, BitVec.ofNat 64 (min w.denied (2 ^ 32 - 1)))
    | none => (0, 0, 0)
  | 2 => match tabGet c.rxqs i with
    | some q => (q.v0, q.v1, BitVec.ofNat 64 ((q.head % 65536) * 2 ^ 48 + (q.tail % 65536) * 2 ^ 32 + min q.notReady (2 ^ 32 - 1)))
    | none => (0, 0, 0)
  | _ => match tabGet c.jobs i with
    | some j => (fput j.v0 ⟨1, 1⟩ (if j.torn then 1 else 0), 0, 0)
    | none => (0, 0, 0)

/-- Entries of a table. -/
def tabSize : Nat → Nat
  | 0 => 65536
  | 2 => 4096
  | _ => 1024

/-- TAB_READ_BACK (R332). -/
def tabReadBack (r : Requester) (table : Fin 4) (index : Fin 65536) (c : Chip) : Chip :=
  if ¬ mayReachBar0 r then c
  else if c.early r then c.noteEarly
  else if tabSize table.val ≤ index.val then c.tabResult 2
  else
    let e := c.tabEntry table.val index.val
    (((((c.setReg (R.TAB_STAGE 0) e.1).setReg (R.TAB_STAGE 1) e.2.1).setReg (R.TAB_STAGE 2) (~~~ e.1)).setReg (R.TAB_STAGE 3)
      (~~~ e.2.1)).setReg R.TAB_INFO e.2.2).tabResult 0

/-! ### Receiver checks (R315, R317) -/

/-- Drop a request of an older incarnation, or a response that nothing awaits (R315). -/
def Chip.staleDrop (c : Chip) : Chip := c.bump R.FAB_CNT0 F.FAB_CNT0.STALE_DROP 1

/-- A request's incarnation is not below the highest seen from its source. -/
def Chip.fresh (c : Chip) (q : FabricRequest) : Bool := decide (tabGetD c.incarnations q.src.toNat 0 ≤ q.inc.toNat)

/-- Remember the source's incarnation. -/
def Chip.remember (c : Chip) (q : FabricRequest) : Chip := { c with incarnations := tabPut c.incarnations q.src.toNat q.inc.toNat }

/-- Check 1: the job is valid and not torn here. -/
def Chip.jobLive (c : Chip) (job : Nat) : Bool :=
  match c.jobAt job with
  | some (_, j) => !j.torn
  | none => false

/-- The ranges a request reads or writes in its window, as offset and length. -/
def opSpans : FabricOp → List (Nat × Nat)
  | .read o n => [(o, n)]
  | .gather o ls => ls.map (fun k => (o + 64 * k, 64))
  | .store o d => [(o, d.length)]
  | .atomic o a _ _ => [(o, aopBytes a)]
  | .message _ _ _ => []

/-- The permission bit of a window that an operation needs: ATOMIC, WRITE, READ. -/
def opPermBit : FabricOp → Nat
  | .atomic _ _ _ _ => 23
  | .store _ _ => 22
  | _ => 21

/-- An operation writes. -/
def opWrites : FabricOp → Bool
  | .atomic _ _ _ _ => true
  | .store _ _ => true
  | _ => false

/-- Checks 5 and 6 over one span: every block translates with the needed access. -/
def Chip.spanCheck (c : Chip) (slot va n : Nat) (write : Bool) : Option FabricFail :=
  match c.check slot va n write with
  | .ok => none
  | .sealed_ => some .sealed_
  | _ => some .noMap

/-- The checks of R317 in their order: the first that fails, or the slot and window base. -/
def Chip.receiverCheck (c : Chip) (q : FabricRequest) : FabricFail ⊕ (Nat × Nat) :=
  if ¬ c.jobLive q.job.toNat then .inl .torn
  else match (if c.damaged.contains (.window q.target) then none else tabGet c.windows q.target) with
  | none => .inl .denied
  | some w =>
    let slot := fget w.v1 tabSlot
    let base := fget w.v0 tabBase * 4096
    let size := fget w.v1 ⟨0, 16⟩ * 2097152
    let key := c.fabKey slot (fget w.v1 tabKeysel)
    if fget w.v1 ⟨20, 1⟩ = 0 ∨ fget w.v1 tabJob ≠ q.job.toNat then .inl .denied
    else if key = 0 ∨ q.key.toNat ≠ key then .inl .denied
    else if ¬ (opSpans q.op).all (fun s => decide (s.1 + s.2 ≤ size)) ∨ fget w.v1 ⟨opPermBit q.op, 1⟩ = 0 then .inl .denied
    else match (opSpans q.op).findSome? (fun s => c.spanCheck slot (base + s.1) s.2 (opWrites q.op)) with
      | some f => .inl f
      | none => .inr (slot, base)

/-- Send a reply. -/
def Chip.fabReply (c : Chip) (dest id : Nat) (a : FabReply) : Chip := c.send (.fabReply dest id a)

/-- Answer a failed check; DENIED replies are counted here and at the window (R317, R332). -/
def Chip.failReply (c : Chip) (q : FabricRequest) (f : FabricFail) : Chip :=
  let c := if f = .denied then
      let c := c.bump R.FAB_CNT0 F.FAB_CNT0.DENIED 1
      match tabGet c.windows q.target with
      | some w => { c with windows := tabPut c.windows q.target { w with denied := w.denied + 1 } }
      | none => c
    else c
  c.fabReply q.src.toNat q.id (.failed f)

/-- The ream whose stacks hold a page (R323). -/
def Chip.pageReam (c : Chip) (slot va : Nat) : Nat :=
  match c.pageAt slot va with
  | some (_, p) => match p.place with
    | .t2 r => r
    | _ => 0
  | none => 0

/-- The ingress buffer of a ream. -/
def Chip.ingressAt (c : Chip) (ream : Nat) : List Ingress := tabGetD c.ingress ream []

/-- Put the ingress buffer of a ream. -/
def Chip.setIngress (c : Chip) (ream : Nat) (l : List Ingress) : Chip :=
  { c with ingress := if l.isEmpty then tabDel c.ingress ream else tabPut c.ingress ream l }

/-- A range touches a 64-byte line. -/
def touchesLine (line : Nat) (r : Nat × Nat) : Bool := decide (r.1 / 64 ≤ line) && decide (line ≤ (r.1 + r.2 - 1) / 64)

/-- A store of one 64-byte line merges into the latest entry that is a store of the same line, unless a later entry touches the
line (R324): the later bytes win. -/
def mergeStore (slot : Nat) (m : MergedStore) : List Ingress → Option (List Ingress)
  | [] => none
  | e :: t =>
    match mergeStore slot m t with
    | some t' => some (e :: t')
    | none =>
      let line := m.va / 64
      let later := t.any (fun x => x.slot == slot && x.spans.any (touchesLine line))
      match e.op with
      | .store _ d =>
        if e.slot = slot ∧ e.va / 64 = line ∧ (e.va + d.length - 1) / 64 = line ∧ (m.va + m.data.length - 1) / 64 = line ∧ ¬ later then
          some ({ e with merged := e.merged ++ [m] } :: t)
        else none
      | _ => none

/-- A checked store or atomic enters its ream's ingress buffer; while that holds 32 entries VC1 credits are withheld and the
request waits outside (R324). -/
def Chip.enterIngress (c : Chip) (q : FabricRequest) (slot va : Nat) (op : FabricOp) : Chip :=
  let ream := c.pageReam slot va
  let l := c.ingressAt ream
  let who := (q.src.toNat, q.id)
  let plain := if 32 ≤ l.length then c else c.setIngress ream (l ++ [⟨who, q.job.toNat, slot, va, op, []⟩])
  match op with
  | .store _ d =>
    match mergeStore slot ⟨who, q.job.toNat, va, d⟩ l with
    | some l' => (c.setIngress ream l').bump R.FAB_CNT2 F.FAB_CNT2.COLLAPSED 1
    | none => plain
  | _ => plain

/-- The answer to a read: each 64-byte line as it stands, or UNCORRECTABLE (R318, R337). -/
def Chip.readReply (c : Chip) (q : FabricRequest) (slot base : Nat) : Chip :=
  let ss := (opSpans q.op)
  if ss.any (fun s => c.poisoned slot (base + s.1) s.2) ∨ c.damaged.contains (.keyRam (Fin.ofNat 64 slot)) then
    (ss.foldl (fun (c : Chip) s => c.notePoison slot (base + s.1) s.2) c).fabReply q.src.toNat q.id (.failed .uncorrectable)
  else
    let c := ss.foldl (fun c s => c.countRead slot (base + s.1)) c
    c.fabReply q.src.toNat q.id (.data (ss.flatMap (fun s => c.treadN slot (base + s.1) s.2)))

/-! ### Messages at the receiver (R325) -/

/-- The checks of R317 with the queue in place of the window and no translation check, then the length. -/
def Chip.queueCheck (c : Chip) (q : FabricRequest) (n : Nat) : FabricFail ⊕ RxQueue :=
  if ¬ c.jobLive q.job.toNat then .inl .torn
  else match c.rxq q.target with
  | none => .inl .denied
  | some x =>
    let key := c.fabKey (fget x.v1 tabSlot) (fget x.v1 tabKeysel)
    if ¬ x.on ∨ fget x.v1 tabJob ≠ q.job.toNat then .inl .denied
    else if key = 0 ∨ q.key.toNat ≠ key then .inl .denied
    else if 2 ^ fget x.v1 ⟨15, 5⟩ < n + 32 then .inl .denied
    else .inr x

/-- Reserve the tail slot, or answer NOT_READY (R325). -/
def Chip.reserve (c : Chip) (q : FabricRequest) (n token task : Nat) : Chip :=
  match c.queueCheck q n with
  | .inl f =>
    let c := if f = .denied then c.bump R.FAB_CNT0 F.FAB_CNT0.DENIED 1 else c
    c.fabReply q.src.toNat q.id (.failed f)
  | .inr x =>
    if 2 ^ fget x.v1 ⟨20, 4⟩ ≤ x.tail + x.reserved.length - x.head then
      (c.setRxq q.target { x with notReady := x.notReady + 1 }).fabReply q.src.toNat q.id .notReady
    else
      let src := q.src.toNat
      let seq := tabGetD x.seqs src 0
      (c.setRxq q.target { x with reserved := x.reserved ++ [⟨x.tail + x.reserved.length, src, q.job.toNat, n, token, task, seq, false⟩],
                                  seqs := tabPut x.seqs src (seq + 1) }).fabReply src q.id .ready

/-- MESSAGE_RESERVATION (R325). -/
def messageReservation (q : FabricRequest) (c : Chip) : Chip :=
  match q.op with
  | .message n token task => if ¬ c.fresh q then c.staleDrop else (c.remember q).reserve q n token task
  | _ => c

/-- FABRIC_REQUEST_RECEIVE (R315, R317): a read is answered, a store or atomic enters the ingress buffer; a message's
request is its reservation. -/
def fabricRequestReceive (q : FabricRequest) (c : Chip) : Chip :=
  if ¬ c.fresh q then c.staleDrop
  else
    let c := c.remember q
    match q.op with
    | .message n token task => c.reserve q n token task
    | op =>
      match c.receiverCheck q with
      | .inl f => c.failReply q f
      | .inr (slot, base) =>
        match op with
        | .store o d => c.enterIngress q slot (base + o) (.store 0 d)
        | .atomic o a x y => c.enterIngress q slot (base + o) (.atomic 0 a x y)
        | _ => c.readReply q slot base

/-- The header of a received message (R325). -/
def messageHeader (r : Reservation) : List Byte :=
  let h := bytesLE 2 r.src ++ [1, 0] ++ bytesLE 4 r.length ++ bytesLE 4 r.job ++ bytesLE 4 r.seq ++ bytesLE 4 r.token ++
    bytesLE 4 r.task ++ bytesLE 4 0
  h ++ bytesLE 4 (crc32c h).toNat

/-- TAIL advances over the reserved slots that are written, in order. -/
def advanceTail : List Reservation → Nat → List Reservation × Nat
  | r :: t, n => if r.written then advanceTail t (n + 1) else (r :: t, n)
  | [], n => ([], n)

/-- Mark the first unwritten reservation of a source written. -/
def writeFirst (src : Nat) : List Reservation → List Reservation
  | [] => []
  | r :: t => if r.src = src ∧ ¬ r.written then { r with written := true } :: t else r :: writeFirst src t

/-- Couch-outs of contexts are abandoned: they stay on chip, and the swaps of their reams are dropped (R138). -/
def Chip.keepOnChip (c : Chip) (p : Nat × Context → Bool) : Chip :=
  let hit := fun (x : Nat × Context) => x.2.place == .couchingOut && !x.2.evicting && p x
  let reams := (c.contexts.filter hit).flatMap (fun (x : Nat × Context) => x.2.gang.map posReam)
  { c with contexts := c.contexts.map (fun (x : Nat × Context) => if hit x then (x.1, { x.2 with place := .onChip }) else x),
           swaps := c.swaps.filter (fun x => !reams.contains x.1) }

/-- An event for which sheets wait arrives: a couch-out of their context whose header is not written is abandoned, and the
swap dropped (R138). -/
def Chip.wakeCouch (c : Chip) (waits : WaitFor → Bool) : Chip :=
  let ctxs := c.sheets.filterMap (fun x =>
    match x.2.wait with
    | some w => if waits w then some x.2.ctx else none
    | none => none)
  c.keepOnChip (fun (x : Nat × Context) => ctxs.contains x.1)

/-- MESSAGE_PAYLOAD (R325): the payload, then the header, then TAIL. -/
def messagePayload (queue : Fin 4096) (src : W16) (data : List Byte) (c : Chip) : Chip :=
  match c.rxq queue.val with
  | none => c
  | some x =>
    match x.reserved.find? (fun r => r.src == src.toNat && !r.written) with
    | none => c.staleDrop
    | some r =>
      if r.length ≠ data.length then c
      else
        let rg := x.range
        let at_ := rg.2.1 + (r.entry % 2 ^ fget x.v1 ⟨20, 4⟩) * 2 ^ fget x.v1 ⟨15, 5⟩
        let c := (c.twrite rg.1 (at_ + 32) data).twrite rg.1 at_ (messageHeader r)
        let (rs, tail) := advanceTail (writeFirst src.toNat x.reserved) x.tail
        let c := c.setRxq queue.val { x with reserved := rs, tail := tail }
        (c.wakeCouch (fun w =>
          match w with
          | .message _ q => q == queue.val
          | _ => false)).fabReply src.toNat 0 (.done 0)

/-! ### The ingress buffer (R323, R324) -/

/-- The new value of an atomic on an old one (R323). -/
def atomicNew (aop : Nat) (old op0 op1 : W64) : W64 :=
  match aop with
  | 0 => op0
  | 1 => if old = op0 then op1 else old
  | 2 => ((old.setWidth 32 : W32) + (op0.setWidth 32 : W32)).setWidth 64
  | 3 => old + op0
  | 4 => BitVec.ofNat 64 ((treeAdd (old.toNat % 2 ^ 32, 0) (op0.toNat % 2 ^ 32, 0)).1)
  | 5 => old &&& op0
  | 6 => old ||| op0
  | 7 => old ^^^ op0
  | 8 => if signed 64 old.toNat ≤ signed 64 op0.toNat then old else op0
  | 9 => if signed 64 op0.toNat ≤ signed 64 old.toNat then old else op0
  | 10 => if old.toNat ≤ op0.toNat then old else op0
  | _ => if op0.toNat ≤ old.toNat then old else op0

/-- Acknowledge every request of an entry. -/
def Chip.ackAll (c : Chip) (e : Ingress) (old : W64) : Chip :=
  (e.source :: e.merged.map (·.source)).foldl (fun c r => c.fabReply r.1 r.2 (.done old)) c

/-- Write the data of a store entry: its own, then the merged stores in order (R324). -/
def Chip.applyStores (c : Chip) (e : Ingress) (d : List Byte) : Chip :=
  e.merged.foldl (fun (c : Chip) m => c.twrite e.slot m.va m.data) (c.twrite e.slot e.va d)

/-- What is left of an entry without the stores of a job (R329). -/
def Ingress.without (job : Nat) (e : Ingress) : List Ingress :=
  let ms := e.merged.filter (fun m => m.job != job)
  if e.job ≠ job then [{ e with merged := ms }]
  else match ms with
    | [] => []
    | m :: t => [⟨m.source, m.job, e.slot, m.va, .store 0 m.data, t⟩]

/-- STORE (R324): the oldest entry of a ream's ingress buffer, a store, is applied and acknowledged. -/
def fabricStore (ream : Fin 4) (c : Chip) : Chip :=
  match c.ingressAt ream.val with
  | e :: t =>
    match e.op with
    | .store _ d => ((c.setIngress ream.val t).applyStores e d).ackAll e 0
    | _ => c
  | [] => c

/-- ATOMIC (R323): the oldest entry, an atomic, as one read-modify-write; its old value is the answer. -/
def fabricAtomic (ream : Fin 4) (c : Chip) : Chip :=
  match c.ingressAt ream.val with
  | e :: t =>
    match e.op with
    | .atomic _ a x y =>
      let n := aopBytes a
      let old : W64 := BitVec.ofNat 64 (c.treadNat e.slot e.va n)
      ((c.setIngress ream.val t).twrite e.slot e.va (bytesLE n (atomicNew a old x y).toNat)).ackAll e old
    | _ => c
  | [] => c

/-! ### The send engines (R320 to R322) -/

/-- The records of a ream's send engine, oldest first. -/
def Chip.engine (c : Chip) (ream : Nat) : List FabRec := tabGetD c.engines ream []

/-- Put a ream's send engine. -/
def Chip.setEngine (c : Chip) (ream : Nat) (l : List FabRec) : Chip :=
  { c with engines := if l.isEmpty then tabDel c.engines ream else tabPut c.engines ream l }

/-- A record of a send engine. -/
def Chip.record (c : Chip) (ream uid : Nat) : Option FabRec := (c.engine ream).find? (fun r => r.uid == uid)

/-- Change a record. -/
def Chip.updRecord (c : Chip) (ream uid : Nat) (f : FabRec → FabRec) : Chip :=
  c.setEngine ream ((c.engine ream).map (fun r => if r.uid = uid then f r else r))

/-- A record is complete, or has failed: it leaves its engine and its command has one record fewer open. -/
def Chip.closeRecord (c : Chip) (ream : Nat) (r : FabRec) : Chip :=
  (c.setEngine ream ((c.engine ream).filter (fun x => x.uid != r.uid))).updCommand r.cmd (fun k => { k with fabricOpen := k.fabricOpen - 1 })

/-- The records before one in its engine. -/
def Chip.before (c : Chip) (ream uid : Nat) : List FabRec := (c.engine ream).takeWhile (fun r => r.uid != uid)

/-- A record is wholly sent, as far as records behind it to the same destination must wait (R322, R327). -/
def FabRec.passed (r : FabRec) : Bool := r.state == .sent

/-- A record may go: no FENCE of its source stands before it, and every earlier record of its source to the same
destination is sent (R322); a POP has no destination (R326). -/
def Chip.mayGo (c : Chip) (ream : Nat) (r : FabRec) : Bool :=
  (c.before ream r.uid).all (fun x => x.job != r.job || (x.op != 4 && (r.op == 5 || x.op == 5 || x.dest != r.dest || x.passed)))

/-- The channel of a record's packets: requests on VC1, message payloads on VC3 (R313). -/
def FabRec.vc (r : FabRec) : Nat := if r.op = 3 ∧ r.state = .ready then 3 else 1

/-- FABRIC_RECORD_SEND (R321): the next packet of a record, at most 4 KiB of payload; a message first sends its
reservation. A record that may not go, or for which no port, credit or bucket allows it, waits. -/
def fabricRecordSend (ream : Fin 4) (uid : Nat) (c : Chip) : Chip :=
  match c.record ream.val uid with
  | none => c
  | some r =>
    if r.op = 4 ∨ r.op = 5 ∨ ¬ c.mayGo ream.val r ∨ ¬ (r.state = .queued ∨ r.state = .ready) then c
    else match c.sendPort r.dest with
    | none => c
    | some p =>
      let reserve := r.op = 3 ∧ r.state = .queued
      let n := if reserve then 0 else min 4096 (r.data.length - r.gone)
      let flits := flitsOf n
      if ¬ c.maySend p r.vc flits r.slot r.cls flits then c
      else
        let c : Chip := { (c.sendFlits p r.vc flits r.slot r.cls flits) with lastPort := tabPut c.lastPort r.dest p }
        let now := c.time.uptime
        if reserve then
          (c.updRecord ream.val uid (fun r => { r with state := .reserving, since := now })).send (.fabReserve p r.dest uid)
        else
          let last := r.gone + n = r.data.length
          (c.updRecord ream.val uid (fun r => { r with gone := r.gone + n, since := now, state := if last then .sent else r.state })).send
            (.fabRecord p r.dest uid r.gone n)

/-- FENCE (R322): a FENCE completes when every earlier record of its source has. -/
def fabricFence (ream : Fin 4) (uid : Nat) (c : Chip) : Chip :=
  match c.record ream.val uid with
  | some r => if r.op = 4 ∧ (c.before ream.val uid).all (fun x => x.job != r.job) then c.closeRecord ream.val r else c
  | none => c

/-- POP (R326): HEAD advances; past the visible entries it goes to TAIL and the excess counts in DENIED. -/
def fabricPop (ream : Fin 4) (uid : Nat) (c : Chip) : Chip :=
  match c.record ream.val uid with
  | none => c
  | some r =>
    if r.op ≠ 5 ∨ ¬ c.mayGo ream.val r then c
    else
      let c := c.closeRecord ream.val r
      match tabGet c.rxqs r.target with
      | none => c
      | some q =>
        let n := r.op0.toNat
        let seen := q.tail - q.head
        if n ≤ seen then c.setRxq r.target { q with head := q.head + n }
        else (c.setRxq r.target { q with head := q.tail }).bump R.FAB_CNT0 F.FAB_CNT0.DENIED (n - seen)

/-- The status of a command whose request a receiver failed (R317). -/
def failStatus : FabricFail → Nat
  | .torn => 0x31
  | .denied => 0x10
  | .noMap => 0x10
  | .sealed_ => 0x11
  | .uncorrectable => 0x21

/-- RECORD_ACK_RECEIVE (R321, R325): READY lets the payload follow; an acknowledgement completes the record, an atomic's old
value going to its output slot; a failed check ends the command. -/
def recordAckReceive (ream : Fin 4) (uid : Nat) (reply : RecordReply) (c : Chip) : Chip :=
  match c.record ream.val uid with
  | none => c.staleDrop
  | some r =>
    match reply with
    | .ready =>
      if r.state = .reserving then
        c.updRecord ream.val uid (fun r => { r with state := .ready, notReady := 0, since := c.time.uptime })
      else c.staleDrop
    | .done old =>
      if r.state ≠ .sent then c.staleDrop
      else
        let c := c.closeRecord ream.val r
        if r.op = 2 ∧ r.resEn then
          match c.command r.cmd with
          | some k => c.twrite k.slot ((k.tensorRange (8 + r.resSlot)).1 + r.resOff) (bytesLE 8 old.toNat)
          | none => c
        else c
    | .failed f => (c.closeRecord ream.val r).endCommand r.cmd ⟨failStatus f, 0, 0⟩

/-- The wait after the n-th NOT_READY in microseconds (R327). -/
def Chip.backoff (c : Chip) (n : Nat) : Nat := min (c.fld R.FAB_CFG F.FAB_CFG.RETRY_BASE * 2 ^ (n - 1)) 1000

/-- NOT_READY_RECEIVE (R327). -/
def notReadyReceive (ream : Fin 4) (uid : Nat) (c : Chip) : Chip :=
  match c.record ream.val uid with
  | none => c.staleDrop
  | some r =>
    if r.state ≠ .reserving then c.staleDrop
    else
      let n := r.notReady + 1
      let c := c.bump R.FAB_CNT1 F.FAB_CNT1.NOT_READY_RCVD 1
      if c.fld R.FAB_CFG F.FAB_CFG.RETRY_LIMIT < n then
        ((c.bump R.FAB_CNT1 F.FAB_CNT1.RETRY_LIMIT_HIT 1).closeRecord ream.val r).endCommand r.cmd ⟨0x33, 0, 0⟩
      else
        c.updRecord ream.val uid (fun r => { r with notReady := n, since := c.time.uptime,
                                                    state := .waiting (c.time.uptime + 1000 * c.backoff n) })

/-- RESERVATION_RETRY (R327): after the wait the reservation is sent again. -/
def reservationRetry (ream : Fin 4) (uid : Nat) (c : Chip) : Chip :=
  match c.record ream.val uid with
  | none => c
  | some r =>
    match r.state with
    | .waiting t =>
      if c.time.uptime < t then c
      else match c.sendPort r.dest with
        | none => c
        | some p =>
          if ¬ c.maySend p 1 1 r.slot r.cls 1 then c
          else
            let c := c.sendFlits p 1 1 r.slot r.cls 1
            (c.updRecord ream.val uid (fun r => { r with state := .reserving, since := c.time.uptime })).send (.fabReserve p r.dest uid)
    | _ => c

/-! ### Remote reads (R318, R319) -/

/-- An outstanding request of a sheet. -/
def Sheet.request (sh : Sheet) (tag : Nat) : Option DmaReq := sh.dma.find? (fun d => d.tag == tag)

/-- Change an outstanding request. -/
def Sheet.updRequest (sh : Sheet) (tag : Nat) (f : DmaReq → DmaReq) : Sheet :=
  { sh with dma := sh.dma.map (fun d => if d.tag = tag then f d else d) }

/-- Pieces of data cut at felt lines of 256 bytes: each piece lies in one line. -/
def cutLines (a : Nat) (bs : List Byte) : Nat → List (Nat × List Byte)
  | 0 => []
  | n + 1 =>
    if bs.isEmpty then []
    else
      let k := 256 - a % 256
      (a, bs.take k) :: cutLines (a + k) (bs.drop k) n

/-- Data at an address as pieces. -/
def piecesAt (a : Nat) (bs : List Byte) : List (Nat × List Byte) := cutLines a bs (bs.length / 256 + 2)

/-- Send a remote read (R318): a read of a task leaves in its CLASS, charged with its request and its response (R330). -/
def Chip.sendRead (c : Chip) (sheet : SheetAt) (tag kind : Nat) : Chip :=
  let sh := c.sheet sheet
  match sh.request tag, sh.task with
  | some d, some t =>
    if d.kind ≠ kind ∨ d.sent.isSome then c
    else
      let dest := wordsNat d.words 16 2
      let cls := wordsNat d.words 40 1
      let bytes := if kind = 8 then wordsNat d.words 36 4 else 64 * wordsNat d.words 36 4
      match c.sendPort dest with
      | none => c
      | some p =>
        let flits := 1
        if ¬ c.maySend p 1 flits t.slot cls (flits + flitsOf bytes) then c
        else
          let c : Chip := { (c.sendFlits p 1 flits t.slot cls (flits + flitsOf bytes)) with lastPort := tabPut c.lastPort dest p }
          (c.updSheet sheet (fun s => s.updRequest tag (fun d => { d with sent := some (p, c.time.uptime) }))).send
            (.fabRead p dest (sheetKey sheet) tag)
  | _, _ => c

/-- REMOTE_READ (R318). -/
def remoteRead (sheet : SheetAt) (tag : Nat) (c : Chip) : Chip := c.sendRead sheet tag 8

/-- REMOTE_GATHER (R318). -/
def remoteGather (sheet : SheetAt) (tag : Nat) (c : Chip) : Chip := c.sendRead sheet tag 9

/-- A read's failure kills its task and ends its command (R319). -/
def Chip.readFails (c : Chip) (sheet : SheetAt) (status : Nat) : Chip :=
  match (c.sheet sheet).task with
  | some t => c.endCommand t.cmd ⟨status, 0, 0⟩
  | none => c

/-- READ_RESPONSE_RECEIVE (R318, R319): the data awaits its fills; a failed check, or an error, ends the command. -/
def readResponseReceive (sheet : SheetAt) (tag : Nat) (reply : ReadReply) (c : Chip) : Chip :=
  match (c.sheet sheet).request tag with
  | none => c.staleDrop
  | some d =>
    if ¬ (d.kind = 8 ∨ d.kind = 9) ∨ d.sent.isNone ∨ d.served then c.staleDrop
    else match reply with
    | .failed f =>
      let c := if f = .uncorrectable then
          c.softError (atSheet sheet.ream.val sheet.quire.val sheet.pos.val) 0x06 .dataUncorrectable else c
      c.readFails sheet (failStatus f)
    | .data bs =>
      let dst := if d.kind = 8 then wordsNat d.words 32 4 else wordsNat d.words 44 4
      let n := if d.kind = 8 then wordsNat d.words 36 4 else 64 * wordsNat d.words 36 4
      if bs.length ≠ n then c
      else c.updSheet sheet (fun s => s.updRequest tag (fun d => { d with served := true, pieces := piecesAt dst bs }))

/-- RXQ_PEEK (R326): the header, then the payload, of entry K after the head; a header of zeros where it is not visible. -/
def rxqPeek (sheet : SheetAt) (tag : Nat) (c : Chip) : Chip :=
  match (c.sheet sheet).request tag with
  | none => c
  | some d =>
    if d.kind ≠ 10 ∨ d.served then c
    else
      let qi := wordsNat d.words 16 2
      let k := wordsNat d.words 18 2
      let dst := wordsNat d.words 20 4
      let n := wordsNat d.words 24 4
      let data := match c.rxq qi with
        | some q =>
          if q.head + k < q.tail then
            let rg := q.range
            let at_ := rg.2.1 + ((q.head + k) % 2 ^ fget q.v1 ⟨20, 4⟩) * 2 ^ fget q.v1 ⟨15, 5⟩
            c.treadN rg.1 at_ (min n (32 + c.treadNat rg.1 (at_ + 4) 4))
          else List.replicate 32 0
        | none => List.replicate 32 0
      c.updSheet sheet (fun s => s.updRequest tag (fun d => { d with served := true, pieces := piecesAt dst data }))

/-! ### Dead targets and teardown (R328, R329) -/

/-- So many microseconds of the control clock have passed. -/
def Chip.passed (c : Chip) (since us : Nat) : Bool := decide (since + 1000 * us ≤ c.time.uptime)

/-- Count a dead target. -/
def Chip.deadCount (c : Chip) : Chip := ((c.bump R.FAB_CNT1 F.FAB_CNT1.DEAD_TARGET 1).mark R.FAB_STAT F.FAB_STAT.STICKY_DEAD).irq 15

/-- No port of a destination's route has been up for so many microseconds (R328). -/
def Chip.routeDead (c : Chip) (dest us : Nat) : Bool :=
  (c.routePort dest).isNone && (List.range 6).all (fun f =>
    !bitOf (fget (c.route dest) ⟨2, 6⟩) f || (match (c.fport f).retrain with
      | some t => c.passed t us
      | none => true))

/-- DEAD_TARGET_TIMEOUT (R328): a read or record that has had no reply for DEAD_TIMEOUT, or whose destination has had no port
up so long, fails with FABRIC_DEAD_TARGET. -/
def deadTargetTimeout (target : DeadTarget) (c : Chip) : Chip :=
  let us := c.fld R.FAB_CFG F.FAB_CFG.DEAD_TIMEOUT
  match target with
  | .read sheet tag =>
    match (c.sheet sheet).request tag with
    | none => c
    | some d =>
      let late : Bool := match d.sent with
        | some (_, t) => c.passed t us
        | none => c.routeDead (wordsNat d.words 16 2) us
      if (d.kind = 8 ∨ d.kind = 9) ∧ ¬ d.served ∧ late then c.deadCount.readFails sheet 0x30 else c
  | .record ream uid =>
    match c.record ream.val uid with
    | none => c
    | some r =>
      let counted : Bool := match r.state with
        | .queued => (c.routePort r.dest).isNone && r.op != 4 && r.op != 5
        | .waiting _ => false
        | _ => true
      if counted ∧ c.passed r.since us then (c.deadCount.closeRecord ream.val r).endCommand r.cmd ⟨0x30, 0, 0⟩ else c

/-- Close every record that satisfies a test. -/
def Chip.closeRecords (c : Chip) (p : FabRec → Bool) : Chip :=
  (List.range 4).foldl (fun c m => ((c.engine m).filter p).foldl (fun c r => c.closeRecord m r) c) c

/-- Discard the unsent records of commands that satisfy a test (R287, R321). -/
def Chip.dropRecords (c : Chip) (p : FabRec → Bool) : Chip := c.closeRecords (fun r => p r && r.gone == 0 && r.state != .sent)

/-- Tear a job down on this part (R125, R329, R354): TORN; windows, queues and mirror entries of the job disabled; its
commands ended with JOB_TORN_DOWN; its couched contexts, reads and records abandoned. -/
def Chip.tearJob (c : Chip) (job : Nat) : Chip :=
  match c.jobAt job with
  | none => c
  | some (i, j) =>
    if j.torn then c
    else
      let ws := (c.windows.filter (fun (x : Nat × FabWindow) => fget x.2.v1 tabJob == job && fget x.2.v1 ⟨20, 1⟩ != 0)).map (·.1)
      let qs := (c.rxqs.filter (fun (x : Nat × RxQueue) => fget x.2.v1 tabJob == job && fget x.2.v1 ⟨0, 1⟩ != 0)).map (·.1)
      let es := (c.mirrors.filter (fun (x : Nat × MirrorEntry) => fget x.2.v1 ⟨11, 10⟩ == i && fget x.2.v0 ⟨34, 1⟩ != 0)).map (·.1)
      let c : Chip := { c with jobs := tabPut c.jobs i { j with torn := true, windows := ws, queues := qs, entries := es } }
      let c : Chip := { c with windows := c.windows.map (fun (x : Nat × FabWindow) =>
                   if fget x.2.v1 tabJob = job then (x.1, { x.2 with v1 := fput x.2.v1 ⟨20, 1⟩ 0 }) else x) }
      let c : Chip := { c with rxqs := c.rxqs.map (fun (x : Nat × RxQueue) =>
                   if fget x.2.v1 tabJob = job then (x.1, { x.2 with v1 := fput x.2.v1 ⟨0, 1⟩ 0, head := 0, tail := 0, reserved := [] }) else x) }
      let c : Chip := { c with ingress := (c.ingress.map (fun (x : Nat × List Ingress) => (x.1, x.2.flatMap (Ingress.without job)))).filter (fun x => !x.2.isEmpty) }
      let c : Chip := { c with mirrors := c.mirrors.map (fun (x : Nat × MirrorEntry) =>
                   if fget x.2.v1 ⟨11, 10⟩ = i then (x.1, { x.2 with v0 := fput x.2.v0 ⟨34, 1⟩ 0 }) else x) }
      let uids := (c.commands.filter (fun k => k.desc.job == job)).map (·.uid)
      let ctxs := (c.commands.filter (fun k => k.desc.job == job)).map (·.desc.ctx)
      let c := uids.foldl (fun c u => c.endCommand u ⟨0x31, 0, 0⟩) c
      let c : Chip := { c with contexts := c.contexts.map (fun (x : Nat × Context) =>
                   if x.2.place = .couched ∧ ctxs.contains x.1 then (x.1, { x.2 with images := [], queued := [] }) else x) }
      c.closeRecords (fun r => r.job == job)

/-- A command that reads a revoked page (R274): it ends with JOB_TORN_DOWN; a nonzero job is torn down here and recorded
with code 0x0B. -/
def Chip.revokedRead (c : Chip) (uid : Nat) : Chip :=
  match c.command uid with
  | none => c
  | some k =>
    let c := c.endCommand uid ⟨0x31, 0, 0⟩
    if k.desc.job = 0 then c else (c.tearJob k.desc.job).recordError atChip 0x0B 0 0

end Sys2Proof.Machine
end

