-- ==== Sys2Proof/Machine/FxDma.lean ====
section
/-! DEFINITION. FX.DMA and FX.PREF (R221, R222, R265, R278 to R282, R318): what a descriptor may hold, the request it makes,
the reads that serve the transfer kinds, and the fills. -/

namespace Sys2Proof.Machine

/-! ### The descriptor (R278) -/

/-- FX.DMA and FX.PREF before the window. -/
def dmaCheck (e : FxEntry) (o : FxOps) : Option Nat :=
  firstTrap [(rmsBad o false false || o.dst.val != 0 || o.src2.val != 0 || e.rs1.toNat % 64 != 0, trIllegal),
    (rangeBad e.rs1 16, trFelt)]

/-- The body bytes a KIND has; none for a reserved KIND. -/
def kindBody : Nat → Option Nat
  | 0x00 => some 32
  | 0x01 => some 20
  | 0x02 => some 12
  | 0x03 => some 32
  | 0x08 => some 28
  | 0x09 => some 32
  | 0x0A => some 12
  | 0x40 => some 16
  | 0x41 => some 32
  | 0x42 => some 12
  | 0x43 => some 8
  | 0x44 => some 24
  | 0x48 => some 48
  | 0x49 => some 48
  | 0x50 => some 8
  | 0x51 => some 16
  | 0x52 => some 12
  | 0x53 => some 4
  | 0x54 => some 8
  | 0x58 => some 32
  | 0x59 => some 32
  | 0x5A => some 32
  | _ => none

/-- A KIND that the instruction may carry. -/
def kindAllowed (pref : Bool) (kind : Nat) : Bool :=
  if pref then [0x00, 0x01, 0x03].contains kind else (kindBody kind).isSome && kind != 0x03

/-- Deferred kinds (R222, R265). -/
def kindDeferred (kind : Nat) : Bool := decide (0x50 ≤ kind)

/-- Bytes of descriptor words. -/
def wordsBytes (ws : List W32) : List Byte := ws.flatMap (fun w => bytesLE 4 w.toNat)

/-- Bytes from an offset in the body are zero up to another. -/
def bodyZero (ws : List W32) (lo hi : Nat) : Bool := (((wordsBytes ws).drop (16 + lo)).take (hi - lo)).all (fun b => b == 0)

/-- A field of the body. -/
def body (ws : List W32) (off n : Nat) : Nat := wordsNat ws (16 + off) n

/-- A count lies in a range. -/
def within (lo x hi : Nat) : Bool := decide (lo ≤ x) && decide (x ≤ hi)

/-- An input-slot word: [27:24] slot from 0 to 7 and nothing else (R279). -/
def srcOk (x : Nat) : Bool := x % 2 ^ 24 == 0 && decide (x / 2 ^ 24 ≤ 7)

/-- The reserved and out-of-range values of a body, by KIND (R221, R265, R279, R318). `maxTopK` is the part's limit of
R239. -/
def bodyBad (pref : Bool) (maxTopK : Nat) (ws : List W32) (kind : Nat) : Bool :=
  match kind with
  | 0x00 | 0x03 =>
    !srcOk (body ws 0 4) || body ws 4 4 % 16 != 0 || body ws 8 8 % 16 != 0 || !within 1 (body ws 16 2) 4096 ||
      !within 1 (body ws 18 2) 4096 || body ws 20 4 % 16 != 0 || !bodyZero ws 26 28 || body ws 28 4 % 16 != 0 ||
      (!pref && body ws 28 4 != 0)
  | 0x01 =>
    !srcOk (body ws 0 4) || body ws 4 4 % 16 != 0 || body ws 8 4 % 16 != 0 || !within 1 (body ws 12 4) 1024 ||
      body ws 16 4 % 16 != 0 || (!pref && body ws 16 4 != 0)
  | 0x02 => body ws 0 4 % 16 != 0 || body ws 4 4 % 16 != 0 || !within 16 (body ws 8 4) 65536 || body ws 8 4 % 16 != 0
  | 0x08 =>
    body ws 8 8 % 16 != 0 || body ws 16 4 % 16 != 0 || !within 16 (body ws 20 4) 65536 || body ws 20 4 % 16 != 0 ||
      !within 2 (body ws 24 1) 7 || !bodyZero ws 25 28
  | 0x09 =>
    body ws 8 8 % 16 != 0 || body ws 16 4 % 16 != 0 || !within 1 (body ws 20 4) 1024 || !within 2 (body ws 24 1) 7 ||
      !bodyZero ws 25 28 || body ws 28 4 % 16 != 0
  | 0x0A =>
    decide (4095 < body ws 0 2) || decide (4095 < body ws 2 2) || body ws 4 4 % 16 != 0 || !within 32 (body ws 8 4) 65536 ||
      body ws 8 4 % 16 != 0
  | 0x40 => body ws 0 4 % 256 != 0 || decide (7 < body ws 4 4 / 2 ^ 24) || !within 1 (body ws 12 4) 64
  | 0x41 =>
    let mode := body ws 13 1
    let tau := body ws 14 1
    let scale := (fp32.decode (body ws 16 4))
    body ws 0 4 % 256 != 0 || decide (7 < body ws 4 4 / 2 ^ 24) || body ws 8 4 % 16 != 0 || !within 1 (body ws 12 1) 64 ||
      decide (2 < mode) || (if mode = 1 then !within 1 tau 30 else tau != 0) || !bodyZero ws 15 16 ||
      !(Fval.lt (.fin false 0 0) scale) || scale == .inf false || decide (4 < body ws 20 1) || !within 1 (body ws 21 1) 64 ||
      !within 1 (body ws 22 2) 1024 || (if mode = 1 then decide (65536 < body ws 24 4) else body ws 24 4 != 0) || !bodyZero ws 28 32
  | 0x42 => body ws 0 4 % 256 != 0 || decide (15 < body ws 4 4) || body ws 8 4 % 16 != 0
  | 0x43 => body ws 0 4 % 256 != 0 || decide (15 < body ws 4 4)
  | 0x44 =>
    body ws 0 4 % 256 != 0 || decide (15 < body ws 4 4) || !(body ws 12 4 == 0xFF || decide (body ws 12 4 ≤ 7)) ||
      body ws 16 4 % 16 != 0 || body ws 20 4 % 16 != 0
  | 0x48 | 0x49 =>
    let row := fun (r : Nat) => r / 2 ^ 30 == 3 || (r / 2 ^ 30 == 0 && bitsOf r 29 24 != 0) ||
      (r / 2 ^ 30 == 1 && bitsOf r 26 24 != 0) || (r / 2 ^ 30 == 2 && bitsOf r 29 27 != 0)
    let temp := fp32.decode (body ws 16 4)
    let topP := fp32.decode (body ws 20 4)
    let minP := fp32.decode (body ws 24 4)
    let one : Fval := .fin false 1 0
    let zero : Fval := .fin false 0 0
    body ws 0 4 % 256 != 0 || row (body ws 4 4) || !within 1 (body ws 8 4) 1048576 || decide (2 < body ws 12 1) ||
      body ws 13 1 != 0 || decide (maxTopK < body ws 14 2) || !(temp.isZero || (zero.lt temp && temp != .inf false)) ||
      !(zero.lt topP && !one.lt topP) || !((minP.isZero || zero.lt minP) && minP.lt one) || body ws 35 1 != 0 ||
      (if kind = 0x49 then body ws 36 4 % 16 != 0 || row (body ws 40 4) || !within 1 (body ws 44 4) 16
       else !bodyZero ws 36 48)
  | 0x50 => decide (7 < body ws 0 4 / 2 ^ 24) || !within 1 (body ws 4 4) 1024
  | 0x51 => decide (7 < body ws 0 4 / 2 ^ 24) || !within 1 (body ws 8 4) 64 || body ws 12 4 % 16 != 0
  | 0x52 => decide (7 < body ws 0 4 / 2 ^ 24) || !within 1 (body ws 4 4) 64 || body ws 8 4 % 16 != 0
  | 0x53 => decide (7 < body ws 0 4 / 2 ^ 24)
  | 0x54 => !srcOk (body ws 0 4) || decide (15 < body ws 4 4 / 2 ^ 24) || decide (body ws 4 4 / 2 ^ 24 < 8)
  | 0x58 | 0x59 | 0x5A =>
    body ws 0 4 % 2 ^ 24 != 0 || decide (15 < body ws 0 4 / 2 ^ 24) || !bodyZero ws 4 8 ||
      (if kind = 0x5A then decide (3 < body ws 24 1) else body ws 24 1 != 0) || !bodyZero ws 25 28 ||
      decide (7 < body ws 28 4 / 2 ^ 24)
  | _ => true

/-- Rows of a COPY_IN or PREF_POOL: source offset, destination and bytes. -/
def copyRows (ws : List W32) : List (Nat × Nat × Nat) :=
  (List.range (body ws 16 2)).map (fun r =>
    (body ws 8 8 + r * body ws 20 4, body ws 4 4 + 16 * r * body ws 24 2, 16 * body ws 18 2))

/-- Felt ranges that a request fills or a deferred request reads. -/
def kindRanges (ws : List W32) (kind : Nat) : List (Nat × Nat) :=
  match kind with
  | 0x00 => (copyRows ws).map (fun r => (r.2.1, r.2.2))
  | 0x01 => [(body ws 4 4, 64 * body ws 12 4)]
  | 0x02 => [(body ws 4 4, body ws 8 4)]
  | 0x08 => [(body ws 16 4, body ws 20 4)]
  | 0x09 => [(body ws 28 4, 64 * body ws 20 4)]
  | 0x0A => [(body ws 4 4, body ws 8 4)]
  | _ => []

/-- The felt array that a body names and the part reads at issue: line lists, keys, draft tokens (R222, R279, R318,
R241). -/
def kindArray (ws : List W32) (kind : Nat) : Nat × Nat :=
  match kind with
  | 0x01 => (body ws 8 4, 4 * body ws 12 4)
  | 0x09 => (body ws 16 4, 4 * body ws 20 4)
  | 0x49 => (body ws 36 4, 4 * body ws 44 4)
  | 0x51 => (body ws 12 4, 32 * body ws 8 4)
  | 0x52 => (body ws 8 4, 32 * body ws 4 4)
  | _ => (0, 0)

/-- The status bitmap of a prefetch (R281): its address and bytes. -/
def prefBitmap (ws : List W32) (kind : Nat) : Nat × Nat :=
  if kind = 0x01 then (body ws 16 4, ceilDiv (body ws 12 4) 8) else (body ws 28 4, ceilDiv (body ws 16 2) 8)

/-- Walk slot i of a quire (R232). -/
def Chip.walkSlot (c : Chip) (q i : Nat) : Option WalkSlot := ((tabGetD c.walks q [])[i]?).getD none

/-- Bytes of one element of a KV format, and whether it carries MX scales (R224). -/
def kvBytes (fmt : Nat) : Nat := if fmt ≤ 2 then 2 else 1

/-- Bytes of the keys or values of a page that PAGE_FETCH delivers: all heads in the layout of R224, or one (R236). -/
def WalkSlot.fetchBytes (w : WalkSlot) (fmt head : Nat) : Nat :=
  let g := if head = 0xFF then w.heads else 1
  let n := 2 ^ w.pageLog2 * g * w.dim
  n * kvBytes fmt + (if fmt = 5 then n / 32 else 0)

/-- The bytes of a result block that are not ready while an immediate request is served (R221), as far as the request
and the walk slot it names tell. -/
def resultBytes (ws : List W32) (kind ropeDim : Nat) (slot : Option WalkSlot) : Nat :=
  match kind with
  | 0x40 => 8 + body ws 12 4 * (ropeDim / 2) * 8
  | 0x41 => 16 + 4 * max (body ws 20 1 + body ws 21 1) (if body ws 13 1 = 0 then body ws 22 2 else 0)
  | 0x42 => 16 + 4 * ((slot.map (·.round)).getD 0)
  | 0x43 => 8
  | 0x44 => 8
  | _ => 24

/-- The sequence descriptor a body names, as slot and byte offset. -/
def kindSeq (ws : List W32) (kind : Nat) : Option (Nat × Nat) :=
  match kind with
  | 0x40 | 0x41 => some (body ws 4 4 / 2 ^ 24, 128 * (body ws 4 4 % 2 ^ 24))
  | 0x50 | 0x51 | 0x52 | 0x53 => some (body ws 0 4 / 2 ^ 24, 128 * (body ws 0 4 % 2 ^ 24))
  | _ => none

/-! ### Issue -/

/-- The lines that instructions which have left the window still write: fills, result blocks and drains (R79, R80,
R109). -/
def Sheet.outstanding (sh : Sheet) : List Nat :=
  sh.draining ++ sh.dma.flatMap (fun d =>
    (if d.kind = 0x03 then [] else d.lines) ++
    (match d.sent with
     | some (a, n) => if 0x40 ≤ d.kind then linesOf a n else []
     | none => []) ++
    (match d.block with
     | some (a, bs) => linesOf a bs.length
     | none => []))

/-- Where the tensor slot i of a command stands. -/
def Chip.cmdRange (c : Chip) (cmd i : Nat) : Nat × Nat :=
  match c.command cmd with
  | some k => k.tensorRange i
  | none => (0, 0)

/-- Address of a descriptor that a body names, in the tenant's range. -/
def Chip.seqVa (c : Chip) (cmd : Nat) (s : Nat × Nat) : Nat := (c.cmdRange cmd s.1).1 + s.2

/-- The pool bytes of a context on the quire of a sheet. -/
def poolKey (ctx off : Nat) : Nat := ctx * 2 ^ 32 + off

/-- Bytes of a row of scores, padded to 256 where rows follow one another (R241). -/
def rowBytes (ws : List W32) : Nat := roundUp (body ws 8 4 * (if body ws 12 1 = 0 then 4 else 2)) 256

/-- The offset in bytes of a ROW field (R239). -/
def rowOff (row : Nat) : Nat := 256 * (row % 2 ^ 24)

/-- Rows in the pool or an input slot reach beyond it. -/
def rowsOut (x : FxCtx) (row n : Nat) : Bool :=
  match row / 2 ^ 30 with
  | 1 => decide (x.pool < rowOff row + n)
  | 2 => decide (nth x.inLens (bitsOf row 26 24) 0 < rowOff row + n)
  | _ => false

/-- Rows in the felt of the issuing sheet. -/
def rowsFelt (ws : List W32) (kind : Nat) : List (Nat × Nat) :=
  if kind = 0x48 ∨ kind = 0x49 then
    let n := if kind = 0x49 then body ws 44 4 else 0
    (if body ws 4 4 / 2 ^ 30 = 0 then [(rowOff (body ws 4 4), rowBytes ws * (n + 1))] else []) ++
      (if kind = 0x49 ∧ body ws 40 4 / 2 ^ 30 = 0 then [(rowOff (body ws 40 4), rowBytes ws * n)] else [])
  else []

/-- Conditions that trap with OUT_RANGE at issue (R221, R222, R265, R280, R319). -/
def Chip.kindOut (c : Chip) (x : FxCtx) (t : Task) (pref : Bool) (ws : List W32) (kind : Nat) : Bool :=
  let len := fun (s : Nat) => nth x.inLens s 0
  (match kindSeq ws kind with
   | some s => decide (len s.1 < s.2 + 128) ||
       (kindDeferred kind && !c.permitted t.slot (c.seqVa t.cmd s) 128 true)
   | none => false) ||
  (match kind with
   | 0x00 => !pref && (copyRows ws).any (fun r => decide (len (body ws 0 4 / 2 ^ 24) < r.1 + r.2.2))
   | 0x01 => !pref && decide (len (body ws 0 4 / 2 ^ 24) = 0)
   | 0x02 => decide (x.pool < body ws 0 4 + body ws 8 4)
   | 0x03 => (copyRows ws).any (fun r => decide (x.pool < r.2.1 + r.2.2))
   | 0x08 => !x.jobOk || !x.domain.contains (body ws 0 2) || !x.routes.contains (body ws 0 2)
   | 0x09 => !x.jobOk || !x.domain.contains (body ws 0 2) || !x.routes.contains (body ws 0 2)
   | 0x0A => !x.jobOk || !x.rxqs.contains (body ws 0 2)
   | 0x48 | 0x49 =>
     rowsOut x (body ws 4 4) (rowBytes ws * (if kind = 0x49 then body ws 44 4 + 1 else 1)) ||
       (kind == 0x49 && rowsOut x (body ws 40 4) (rowBytes ws * body ws 44 4))
   | 0x54 => decide (len (body ws 0 4 / 2 ^ 24) = 0) ||
       decide (nth x.outLens (body ws 4 4 / 2 ^ 24 - 8) 0 < 16 * (body ws 4 4 % 2 ^ 24) + 48)
   | 0x58 | 0x59 | 0x5A =>
     let s := body ws 0 4 / 2 ^ 24
     let r := c.cmdRange t.cmd s
     decide (r.2 < body ws 8 8 + body ws 16 8) || (c.wholePages t.slot (r.1 + body ws 8 8) (body ws 16 8)).isNone ||
       decide (nth x.outLens (body ws 28 4 / 2 ^ 24) 0 < 16 * (body ws 28 4 % 2 ^ 24) + 16)
   | _ => false)

/-- Line numbers beyond the slot trap on a gather (R280). -/
def gatherOut (x : FxCtx) (ws : List W32) (list : List Byte) : Bool :=
  (List.range (body ws 12 4)).any (fun k =>
    decide (nth x.inLens (body ws 0 4 / 2 ^ 24) 0 < 64 * natLE ((list.drop (4 * k)).take 4) + 64))

/-- The words of an array of bytes. -/
def bytesWords (bs : List Byte) : List W32 :=
  (List.range (bs.length / 4)).map (fun i => BitVec.ofNat 32 (natLE ((bs.drop (4 * i)).take 4)))

/-- ROPE_DIM of the sequence descriptor that a request names. -/
def Chip.ropeDim (c : Chip) (t : Task) (ws : List W32) (kind : Nat) : Nat :=
  match kindSeq ws kind with
  | some s => c.treadNat t.slot (c.seqVa t.cmd s + 12) 2
  | none => 0

/-- FX.DMA or FX.PREF at issue: the descriptor is read, judged and made a request, its destination or result lines not
ready; a deferred request joins the task's commit state and is done (R222). It waits for the lines it reads, and at the
limit of R276. `q` is the sheet's quire. -/
def Chip.dmaIssue (c : Chip) (q : Nat) (pref : Bool) (x : FxCtx) (sh : Sheet) (e : FxEntry) : FxOut :=
  let a := e.rs1.toNat
  let kind := (sh.rd a).toNat
  let flags := (sh.rd (a + 1)).toNat
  let blen := rdNat sh.rd (a + 2) 2
  match sh.task with
  | none => .ok sh
  | some t =>
    if ¬ kindAllowed pref kind ∨ 1 < flags ∨ (flags = 1 ∧ (kind ≠ 0 ∨ pref)) ∨ 240 < blen ∨ blen % 4 ≠ 0 ∨
        blen < (kindBody kind).getD 0 ∨ rdNat sh.rd (a + 4) 12 ≠ 0 then .trap trIllegal
    else if ¬ feltOk a (16 + blen) then .trap trFelt
    else if (linesOf a (16 + blen)).any (fun l => !sh.ready l) then .wait sh
    else
      let ws := feltWords sh a (4 + blen / 4)
      if ¬ bodyZero ws ((kindBody kind).getD 0) blen ∨ bodyBad pref (if c.ident.stepping = .a1 then 1024 else 4096) ws kind then
        .trap trIllegal
      else
        let arr := kindArray ws kind
        let res := body ws 0 4
        let engine := decide (0x40 ≤ kind) && !kindDeferred kind
        let slot := c.walkSlot q (body ws 4 4)
        let resN := if engine then resultBytes ws kind (c.ropeDim t ws kind) slot else 0
        let fetchN := match slot with
          | some w => if kind = 0x44 then [(body ws 16 4, w.fetchBytes w.kfmt (body ws 12 4)), (body ws 20 4, w.fetchBytes w.vfmt (body ws 12 4))] else []
          | none => []
        let queryN := if kind = 0x41 ∨ kind = 0x42 then [(body ws 8 4, 16)] else []
        let bm := if pref then prefBitmap ws kind else (0, 0)
        if ¬ feltOk arr.1 arr.2 ∨ ¬ (kindRanges ws kind).all (fun r => feltOk r.1 r.2) ∨ (engine ∧ ¬ feltOk res resN) ∨
            ¬ (fetchN ++ queryN ++ rowsFelt ws kind).all (fun r => feltOk r.1 r.2) ∨ ¬ feltOk bm.1 bm.2 then .trap trFelt
        else if c.kindOut x t pref ws kind then .trap trOut
        else if (linesOf arr.1 arr.2).any (fun l => !sh.ready l) then .wait sh
        else
          let list := (List.range arr.2).map (fun i => sh.rd (arr.1 + i))
          let words := ws ++ List.replicate (64 - ws.length) 0 ++ bytesWords list
          if kind = 0x01 ∧ ¬ pref ∧ gatherOut x ws list then .trap trOut
          else if kindDeferred kind then
            if 8 ≤ sh.deferred.length then .trap trStager
            else .ok { sh with deferred := sh.deferred ++ [⟨kind, words, t.index⟩] }
          else if x.reqLimit ≤ sh.dma.length then .wait sh
          else
            let dst := if kind = 0x03 then [] else (kindRanges ws kind).flatMap (fun r => linesOf r.1 r.2)
            let pool := if kind = 0x03 then (copyRows ws).flatMap (fun r => linesOf r.2.1 r.2.2) else []
            let fetch := fetchN.flatMap (fun r => linesOf r.1 r.2)
            let lines := (if kind = 0x03 then pool else dst ++ fetch).eraseDups
            let wait := dst ++ fetch ++ (if engine then linesOf res resN else []) ++ (if pref then linesOf bm.1 bm.2 else [])
            let d : DmaReq := { tag := sh.nextTag, kind := kind, words := words, lines := lines, inc := sh.incarnation,
                                pref := pref, issue := c.nextIssue, served := false, pieces := [], block := none,
                                sent := if engine then some (res, resN) else none }
            if wait.any (fun l => sh.outstanding.contains l) then .wait sh
            else .ok { (sh.clrReady wait.eraseDups) with dma := sh.dma ++ [d], nextTag := sh.nextTag + 1 }

/-! ### Serving the transfer kinds (R279 to R282) -/

/-- How a read of a request's data ends. -/
inductive ReadEnd where
  | ok
  | out
  | revoked
  | bad
deriving DecidableEq, Repr

/-- A read of a tensor range by its slot: permitted, revoked, outside, or holding uncorrectable data. -/
def Chip.readEnd (c : Chip) (slot va n : Nat) : ReadEnd :=
  if (c.pagesIn slot va n).any (fun x => x.2.isRevoked) then .revoked
  else if ¬ c.permitted slot va n false then .out
  else if c.poisoned slot va n ∨ c.damaged.contains (.keyRam (Fin.ofNat 64 slot)) then .bad
  else .ok

/-- The end of a command over uncorrectable data of a sheet's transfer (R280); the key's own error is no soft evidence. -/
def Chip.dataFails (c : Chip) (k cmd slot : Nat) : Chip :=
  let at_ := keyAt k
  let c := if c.damaged.contains (.keyRam (Fin.ofNat 64 slot)) then c
    else c.softError (atSheet at_.ream.val at_.quire.val at_.pos.val) 0x06 .dataUncorrectable
  c.endCommand cmd ⟨0x21, 0, 0⟩

/-- The parts of a request: source offset, destination and bytes; lines for a gather. -/
def DmaReq.parts (d : DmaReq) : List (Nat × Nat × Nat) :=
  if d.kind = 0x01 then
    (List.range (body d.words 12 4)).map (fun k => (64 * (nth d.words (64 + k) 0).toNat, body d.words 4 4 + 64 * k, 64))
  else copyRows d.words

/-- A bitmap of Booleans, bit k of byte k div 8. -/
def packBits (bs : List Bool) : List Byte :=
  (List.range (ceilDiv bs.length 8)).map (fun i =>
    BitVec.ofNat 8 (((bs.drop (8 * i)).take 8).foldr (fun b a => 2 * a + (if b then 1 else 0)) 0))

/-- Serve COPY_IN, GATHER_IN or PREF_POOL: the data is read now; a prefetch drops what it may not read (R281). -/
def Chip.serveCopy (c : Chip) (s : SheetAt) (tag kind : Nat) : Chip :=
  let k := sheetKey s
  let sh := c.sheet s
  match sh.request tag, sh.task with
  | some d, some t =>
    if d.kind ≠ kind ∨ d.served then c
    else
      let r := c.cmdRange t.cmd (body d.words 0 4 / 2 ^ 24)
      let ends := d.parts.map (fun p =>
        (p, if r.2 < p.1 + p.2.2 then ReadEnd.out else c.readEnd t.slot (r.1 + p.1) p.2.2))
      let done := fun (c : Chip) =>
        let pieces := ends.flatMap (fun x =>
          piecesAt x.1.2.1 (if x.2 = .ok then c.treadN t.slot (r.1 + x.1.1) x.1.2.2 else List.replicate x.1.2.2 0))
        let drops := (ends.filter (fun x => x.2 ≠ .ok)).length
        let block := if d.pref then some ((prefBitmap d.words d.kind).1, packBits (ends.map (fun x => x.2 == .ok))) else none
        let c := ends.foldl (fun c x => if x.2 = .ok then c.countRead t.slot (r.1 + x.1.1) else c) c
        let c := if drops = 0 then c else c.bump R.TIER_CNT0 F.TIER_CNT0.PREF_DROP drops
        c.updSheet s (fun sh => sh.updRequest tag (fun d => { d with served := true, pieces := pieces, block := block }))
      if ends.any (fun x => x.2 = .bad) then
        let c := ends.foldl (fun (c : Chip) x => if x.2 = .bad then c.notePoison t.slot (r.1 + x.1.1) x.1.2.2 else c) c
        c.dataFails k t.cmd t.slot
      else if d.pref then done c
      else if ends.any (fun x => x.2 = .revoked) then c.revokedRead t.cmd
      else if ends.any (fun x => x.2 = .out) then c.trap k trOut
      else done c
  | _, _ => c

/-- COPY_IN (R279, R280). -/
def copyIn (s : SheetAt) (tag : Nat) (c : Chip) : Chip := c.serveCopy s tag 0x00

/-- GATHER_IN (R279). -/
def gatherIn (s : SheetAt) (tag : Nat) (c : Chip) : Chip := c.serveCopy s tag 0x01

/-- PREF_POOL (R279, R281): into the context's pool space on the sheet's quire. -/
def prefPool (s : SheetAt) (tag : Nat) (c : Chip) : Chip := c.serveCopy s tag 0x03

/-- POOL_IN (R279, R280): from the pool; it waits for pool lines that an earlier PREF_POOL of the task still fills. -/
def poolIn (s : SheetAt) (tag : Nat) (c : Chip) : Chip :=
  let k := sheetKey s
  let sh := c.sheet s
  match sh.request tag, sh.task with
  | some d, some t =>
    let src := body d.words 0 4
    let n := body d.words 8 4
    let pending := sh.dma.any (fun f => f.kind == 0x03 && decide (f.issue < d.issue) &&
      f.lines.any (fun l => (linesOf src n).contains l))
    if d.kind ≠ 0x02 ∨ d.served ∨ pending then c
    else
      let q := c.quire (keyQuire k)
      if q.poison.any (fun l => decide (poolKey t.ctx src < l + 64) && decide (l < poolKey t.ctx src + n)) then
        c.dataFails k t.cmd t.slot
      else
        let bs := memRead q.pool (poolKey t.ctx src) n
        c.updSheet s (fun sh => sh.updRequest tag (fun d => { d with served := true, pieces := piecesAt (body d.words 4 4) bs }))
  | _, _ => c

/-! ### Fills (R80, R92, R96) -/

/-- The sheet's counter block of a key. -/
def sheetCnt (k : Nat) : RegRef := R.SHEET_CNT (keyAt k).ream.val (keyAt k).quire.val (keyAt k).pos.val

/-- Remove a request. -/
def Sheet.dropRequest (sh : Sheet) (tag : Nat) : Sheet := { sh with dma := sh.dma.filter (fun d => d.tag != tag) }

/-- A fill that ends a request: its block is written and ready (R281). -/
def Sheet.fillEnd (sh : Sheet) (d : DmaReq) : Sheet :=
  let sh := match d.block with
    | some (a, bs) => sh.result a bs
    | none => sh
  sh.dropRequest d.tag

/-- DMA_FILL_COMPLETE (R80): the line's pieces are written and the line is ready; a response of an older incarnation is
dropped and counted, and one for a dead tag is dropped. -/
def dmaFillComplete (s : SheetAt) (tag line inc : Nat) (c : Chip) : Chip :=
  let k := sheetKey s
  let sh := c.sheet s
  if inc ≠ sh.incarnation then c.bump (sheetCnt k) F.SHEET_CNT.STALE_DROP 1
  else match sh.request tag with
    | none => c
    | some d =>
      if ¬ d.served ∨ ¬ d.lines.contains line then c
      else
        let ps := d.pieces.filter (fun p => p.1 / 256 == line)
        let d' := { d with lines := d.lines.filter (· != line), pieces := d.pieces.filter (fun p => p.1 / 256 != line) }
        if d.kind = 0x03 then
          let c := c.updQuire (keyQuire k) (fun q =>
            { q with pool := ps.foldl (fun m p => memWrite m (poolKey sh.ctx p.1) p.2) q.pool })
          c.updSheet s (fun sh => if d'.lines.isEmpty ∧ d.kind < 0x40 then sh.fillEnd d' else sh.updRequest tag (fun _ => d'))
        else
          c.updSheet s (fun sh =>
            let sh := (ps.foldl (fun sh p => sh.wr p.1 p.2) sh).mkReady [line]
            if d'.lines.isEmpty ∧ d.kind < 0x40 then sh.fillEnd d' else sh.updRequest tag (fun _ => d'))

end Sys2Proof.Machine
end

