-- ==== Sys2Proof/Machine/Gen.lean ====
section
/-! DEFINITION. The generation engines (R221 to R250): sequences and pages, appends and seals, rotary angles, the KV walk,
the sampler, prefix sharing, the weight table and digests. -/

namespace Sys2Proof.Machine

/-! ### FP32 arithmetic of the engines -/

/-- The FP32 word of an exact value under a rounding mode (0 nearest even, 2 up, 3 down). -/
def f32r (rm : Nat) (v : Fval) : W32 := BitVec.ofNat 32 (fp32.encode ⟨rm, false, 0⟩ true v).1

/-- FP32 product. -/
def fmulR (rm : Nat) (a b : W32) : W32 := f32r rm ((f32 a).mul (f32 b))

/-- FP32 sum. -/
def faddR (rm : Nat) (a b : W32) : W32 := f32r rm (exactSum (rm == 3) [f32 a, f32 b])

/-- FP32 difference. -/
def fsubR (rm : Nat) (a b : W32) : W32 := f32r rm (exactSum (rm == 3) [f32 a, (f32 b).negate])

/-- A quotient with more than enough bits and a sticky bit, so that one rounding of it is the rounding of the exact
quotient. -/
def Fval.div (a b : Fval) : Fval :=
  match a, b with
  | .nan, _ => .nan
  | _, .nan => .nan
  | .inf _, .inf _ => .nan
  | .inf s, .fin t _ _ => .inf (s != t)
  | .fin s _ _, .inf t => .fin (s != t) 0 0
  | .fin s m e, .fin t n f =>
    if n = 0 then (if m = 0 then .nan else .inf (s != t))
    else
      let k := 64 + bitLen n
      let q := m * 2 ^ k / n
      .fin (s != t) (2 * q + (if m * 2 ^ k % n = 0 then 0 else 1)) (e - f - k - 1)

/-- FP32 quotient. -/
def fdivR (rm : Nat) (a b : W32) : W32 := f32r rm ((f32 a).div (f32 b))

/-- Order of FP32 words. -/
def fltW (a b : W32) : Bool := (f32 a).lt (f32 b)

/-- The larger of two FP32 words, the first on a tie. -/
def fmaxW (a b : W32) : W32 := if fltW a b then b else a

/-- FP32 +∞. -/
def f32inf : W32 := 0x7F800000#32

/-- FP32 1. -/
def f32one : W32 := 0x3F800000#32

/-- The part's arithmetic identity code (R46, R400). -/
def Chip.aic (c : Chip) : Nat := if c.ident.stepping = .a1 then 0x1A01 else 0x1B00

/-! ### Sequence descriptors and page lists (R223 to R225) -/

/-- A sequence descriptor. -/
structure SeqDesc where
  va : Nat
  pageLog2 : Nat
  heads : Nat
  dim : Nat
  kfmt : Nat
  vfmt : Nat
  ropeDim : Nat
  tokens : Nat
  sealed_ : Nat
  pages : Nat
  posBase : Nat
  pageList : Nat
  ropeTab : Nat
  prefixPages : Nat
  chain : List Byte
deriving DecidableEq, Repr

/-- A field of 128 descriptor bytes. -/
def seqField (bs : List Byte) (off n : Nat) : Nat := natLE ((bs.drop off).take n)

/-- A descriptor with its CRC and every field valid. -/
def seqParse (va : Nat) (bs : List Byte) : Option SeqDesc :=
  let f := seqField bs
  let d : SeqDesc := ⟨va, f 2 1, f 3 1, f 4 2, f 6 1, f 7 1, f 12 2, f 0x10 4, f 0x14 4, f 0x18 4, f 0x1C 4, f 0x20 8, f 0x28 8,
    f 0x30 4, (bs.drop 0x40).take 32⟩
  if (crc32c (bs.take 0x7C)).toNat = f 0x7C 4 ∧ f 0 2 = 1 ∧ within 6 d.pageLog2 10 ∧ within 1 d.heads 8 ∧ within 32 d.dim 512 ∧
      d.dim % 32 = 0 ∧ within 1 d.kfmt 5 ∧ within 1 d.vfmt 5 ∧ d.ropeDim % 2 = 0 ∧ d.ropeDim ≤ d.dim ∧ f 14 2 = 0 ∧
      d.tokens ≤ 16777216 ∧ within 1 d.pages 65536 ∧ d.pageList % 8 = 0 ∧ f 0x38 8 = 0 ∧ f 0x60 28 = 0 then some d else none

/-- Read a descriptor. -/
def Chip.readSeq (c : Chip) (slot va : Nat) : Option SeqDesc := seqParse va (c.treadN slot va 128)

/-- The largest number of tokens of a sequence (R225). -/
def SeqDesc.maxTokens (d : SeqDesc) : Nat := min (65536 * 2 ^ d.pageLog2) 16777216

/-- Bytes put over a list at an offset. -/
def splice (bs : List Byte) (off : Nat) (new : List Byte) : List Byte := bs.take off ++ new ++ bs.drop (off + new.length)

/-- Rewrite what completion actions change of a descriptor, ERR, and the CRC (R223, R227). -/
def Chip.writeSeq (c : Chip) (slot : Nat) (d : SeqDesc) (err : Nat) : Chip :=
  let bs := c.treadN slot d.va 128
  let bs := splice bs 0x10 (bytesLE 4 d.tokens ++ bytesLE 4 d.sealed_)
  let bs := splice bs 0x30 (bytesLE 4 d.prefixPages ++ bytesLE 4 err)
  let bs := splice bs 0x40 d.chain
  c.twrite slot d.va (splice bs 0x7C (bytesLE 4 (crc32c (bs.take 0x7C)).toNat))

/-- Write ERR alone, and the CRC (R226, R227). -/
def Chip.seqErr (c : Chip) (slot va err : Nat) : Chip :=
  let bs := splice (c.treadN slot va 128) 0x34 (bytesLE 4 err)
  c.twrite slot va (splice bs 0x7C (bytesLE 4 (crc32c (bs.take 0x7C)).toNat))

/-- A page list entry: the object's address and STATE. -/
def Chip.pageEntry (c : Chip) (slot : Nat) (d : SeqDesc) (i : Nat) : Nat × Nat :=
  let w := c.treadNat slot (d.pageList + 8 * i) 8
  (bitsOf w 56 12 * 4096, w % 4)

/-- Write a page list entry. -/
def Chip.setPageEntry (c : Chip) (slot : Nat) (d : SeqDesc) (i object state : Nat) : Chip :=
  c.twrite slot (d.pageList + 8 * i) (bytesLE 8 (object + state))

/-! ### Page objects (R224) -/

/-- Bytes of the elements and scales of one side of a page, without padding. -/
def kvRegion (pageLog2 heads dim fmt : Nat) : Nat :=
  let n := 2 ^ pageLog2 * heads * dim
  n * kvBytes fmt + (if fmt = 5 then n / 32 else 0)

/-- K_SIZE or V_SIZE. -/
def kvSize (pageLog2 heads dim fmt : Nat) : Nat := roundUp (kvRegion pageLog2 heads dim fmt) 256

/-- Offset of the sketch. -/
def sketchOff (pageLog2 heads dim kfmt vfmt : Nat) : Nat := kvSize pageLog2 heads dim kfmt + kvSize pageLog2 heads dim vfmt

/-- Offset of the header. -/
def headerOff (pageLog2 heads dim kfmt vfmt : Nat) : Nat := roundUp (sketchOff pageLog2 heads dim kfmt vfmt + heads * dim * 4) 64

/-- Bytes of a page object of a sequence. -/
def SeqDesc.objectBytes (d : SeqDesc) : Nat := headerOff d.pageLog2 d.heads d.dim d.kfmt d.vfmt + 64

/-- The element format of a KV code and whether it is MX. -/
def kvFmt (fmt : Nat) : FpFmt :=
  match fmt with
  | 1 => bf16
  | 2 => fp16
  | 4 => e5m2
  | _ => e4m3

/-- Key (t, g, d) of a page object. -/
def Chip.keyAt_ (c : Chip) (slot object : Nat) (s : SeqDesc) (t g d : Nat) : Fval :=
  let row := t * s.heads + g
  let b := kvBytes s.kfmt
  let v := (kvFmt s.kfmt).decode (c.treadNat slot (object + (row * s.dim + d) * b) b)
  if s.kfmt = 5 then
    let sc := c.treadNat slot (object + 2 ^ s.pageLog2 * s.heads * s.dim + row * (s.dim / 32) + d / 32) 1
    if sc = 255 then .nan else v.scale ((sc : Int) - 127)
  else v

/-- The larger of two data, or the smaller. -/
def pickVal (big : Bool) (a b : Fval) : Fval := if (if big then a.lt b else b.lt a) then b else a

/-- The sketch of head g, channel d: KMAX and KMIN as BF16 words (R228 step 1). -/
def Chip.sketchOf (c : Chip) (slot object : Nat) (s : SeqDesc) (g d : Nat) : Nat × Nat :=
  let ks := (List.range (2 ^ s.pageLog2)).map (fun t => c.keyAt_ slot object s t g d)
  match ks with
  | [] => (0x7FC0, 0x7FC0)
  | k :: t =>
    if ks.any (· == .nan) then (0x7FC0, 0x7FC0)
    else ((bf16.encode ⟨2, false, 0⟩ false (t.foldl (pickVal true) k)).1, (bf16.encode ⟨3, false, 0⟩ false (t.foldl (pickVal false) k)).1)

/-- Seal the translation pages of an object (R228 step 6). -/
def Chip.sealObject (c : Chip) (slot object n step : Nat) : Chip :=
  let ps := (c.pagesIn slot object n).map (fun x => x.1)
  let c := ps.foldl (fun c k => c.sealPage slot (keyVa k) step) c
  { c with kvSealed := c.kvSealed ++ ps.filter (fun k => !c.kvSealed.contains k) }

/-- Seal page i of a sequence (R228): the sequence after it, and the chip. -/
def Chip.sealKvPage (c : Chip) (slot step : Nat) (s : SeqDesc) (i : Nat) : SeqDesc × Chip :=
  let object := (c.pageEntry slot s i).1
  let p := 2 ^ s.pageLog2
  let sk := sketchOff s.pageLog2 s.heads s.dim s.kfmt s.vfmt
  let sketch := (List.range s.heads).flatMap (fun g =>
    let col := (List.range s.dim).map (fun d => c.sketchOf slot object s g d)
    col.flatMap (fun x => bytesLE 2 x.1) ++ col.flatMap (fun x => bytesLE 2 x.2))
  let digest := sha256 (c.treadN slot object sk)
  let head := digest ++ bytesLE 4 i ++ bytesLE 4 p ++ List.replicate 20 0
  let c := c.twrite slot (object + sk) sketch
  let c := c.twrite slot (object + headerOff s.pageLog2 s.heads s.dim s.kfmt s.vfmt) (head ++ bytesLE 4 (crc32c head).toNat)
  let c := (c.setPageEntry slot s i object 2).sealObject slot object s.objectBytes step
  ({ s with chain := sha256 (s.chain ++ bytesLE 4 i ++ digest), sealed_ := s.sealed_ + 1 }, c)

/-- Numbers from a up to b. -/
def span (a b : Nat) : List Nat := (List.range (b - a)).map (· + a)

/-! ### APPEND (R226) -/

/-- The outcome of the checks of APPEND: its ERR. -/
def Chip.appendErr (c : Chip) (slot : Nat) (d : SeqDesc) (n : Nat) : Nat :=
  let p := 2 ^ d.pageLog2
  let tokens := d.tokens + n
  if d.maxTokens < tokens ∨ 2 ^ 32 - 1 < d.posBase + tokens - 1 then 3
  else if (span (ceilDiv d.tokens p) (ceilDiv tokens p)).all (fun i => decide (i < d.pages) && (c.pageEntry slot d i).2 == 1) then 0
  else 2

/-- Uncorrectable data under an action ends its command with UNCORRECTABLE (R221, R337). -/
def Chip.actionFails (c : Chip) (uid : Nat) : Chip := (c.softError atChip 0x06 .dataUncorrectable).endCommand uid ⟨0x21, 0, 0⟩

/-- APPEND (R222, R226, R228): the head deferred request of a command; it waits while an object to be sealed lies in another
command's range (R119). -/
def seqAppend (uid : Nat) (c : Chip) : Chip :=
  match c.headDeferred uid 0x50 with
  | none => c
  | some (k, d) =>
    let w0 := body d.words 0 4
    let va := c.seqVa uid (w0 / 2 ^ 24, 128 * (w0 % 2 ^ 24))
    match c.readSeq k.slot va with
    | none => (c.seqErr k.slot va 1).popDeferred uid
    | some s =>
      let n := body d.words 4 4
      let err := c.appendErr k.slot s n
      if err ≠ 0 then (c.seqErr k.slot va err).popDeferred uid
      else
        let p := 2 ^ s.pageLog2
        let full := span (s.tokens / p) ((s.tokens + n) / p)
        let objects := full.map (fun i => (c.pageEntry k.slot s i).1)
        if objects.any (fun o => c.covered k.slot o s.objectBytes (some uid)) then c
        else if objects.any (fun o => c.poisoned k.slot o (sketchOff s.pageLog2 s.heads s.dim s.kfmt s.vfmt)) then
          (objects.foldl (fun (c : Chip) o => c.notePoison k.slot o (sketchOff s.pageLog2 s.heads s.dim s.kfmt s.vfmt)) c).actionFails uid
        else
          let r := full.foldl (fun (a : SeqDesc × Chip) i => a.2.sealKvPage k.slot k.desc.step a.1 i) ({ s with tokens := s.tokens + n }, c)
          (r.2.writeSeq k.slot r.1 0).popDeferred uid

/-! ### Prefix sharing (R243 to R246) -/

/-- The geometry that a lookup compares (R243). -/
def SeqDesc.geometry (s : SeqDesc) : List Byte :=
  bytesLE 1 s.pageLog2 ++ bytesLE 1 s.heads ++ bytesLE 2 s.dim ++ bytesLE 1 s.kfmt ++ bytesLE 1 s.vfmt ++ bytesLE 2 s.ropeDim

/-- Key k of an action's array. -/
def actionKey (ws : List W32) (k : Nat) : List Byte := wordsBytes ((ws.drop (64 + 8 * k)).take 8)

/-- The pool entry of a tenant, key and geometry. -/
def Chip.pfxFind (c : Chip) (slot : Nat) (key : List Byte) (s : SeqDesc) : Option PfxEntry :=
  c.pfxPool.find? (fun e => e.slot == slot && e.key == key && e.geometry == s.geometry)

/-- Pages of an object. -/
def Chip.objectPages (c : Chip) (slot object n : Nat) : List Nat := (c.pagesIn slot object n).map (fun x => x.1)

/-- The bytes of an object's pages in a tier. -/
def Chip.objectTier (c : Chip) (slot object n tier : Nat) : Nat :=
  (c.pagesIn slot object n).foldl (fun a x => if x.2.tier = some tier then a + pageBytes x.2.size else a) 0

/-- The pool's share has room for an object in the tiers where its pages lie (R268). -/
def Chip.pfxRoom (c : Chip) (slot object n : Nat) : Bool :=
  decide (c.pfxUse 0 + c.objectTier slot object n 0 ≤ 2 ^ 30 * c.fld R.TIER_CFG F.TIER_CFG.PFX_T2_GIB) &&
  decide (c.pfxUse 1 + c.objectTier slot object n 1 ≤ 2 ^ 30 * c.fld R.TIER_CFG F.TIER_CFG.PFX_T3_GIB) &&
  c.objectTier slot object n 2 == 0

/-- The entry to evict first: without references, oldest last use. -/
def Chip.pfxVictim (c : Chip) : Option PfxEntry :=
  (c.pfxPool.filter (fun e => e.refs == 0)).foldl (fun a e =>
    match a with
    | none => some e
    | some b => if e.lastUse < b.lastUse then some e else some b) none

/-- The geometry's object bytes. -/
def geometryBytes (g : List Byte) : Nat :=
  headerOff (seqField g 0 1) (seqField g 1 1) (seqField g 2 2) (seqField g 4 1) (seqField g 5 1) + 64

/-- Evict an entry: its object is unmapped (R246). -/
def Chip.pfxEvict (c : Chip) (e : PfxEntry) : Chip :=
  let keys := c.objectPages e.slot e.object (geometryBytes e.geometry)
  let c := keys.foldl (fun c k => match tabGet c.pages k with
    | some p => c.dropPage k p
    | none => c) c
  ({ c with pfxPool := c.pfxPool.filter (fun x => x != e) }).bump R.PFX_CNT F.PFX_CNT.EVICTED 1

/-- Evict until an object fits, while an entry without references remains. -/
def Chip.pfxMakeRoom (c : Chip) (slot object n : Nat) : Nat → Chip
  | 0 => c
  | fuel + 1 =>
    if c.pfxRoom slot object n then c
    else match c.pfxVictim with
      | none => c
      | some e => (c.pfxEvict e).pfxMakeRoom slot object n fuel

/-- The chain value after page i: the digests of the page headers, chained (R228). -/
def Chip.chainAt (c : Chip) (slot : Nat) (s : SeqDesc) (i : Nat) : List Byte :=
  (List.range (i + 1)).foldl (fun ch j =>
    let o := (c.pageEntry slot s j).1 + headerOff s.pageLog2 s.heads s.dim s.kfmt s.vfmt
    sha256 (ch ++ bytesLE 4 j ++ c.treadN slot o 32)) (List.replicate 32 0)

/-- Publish pages in order: the ERR of the first that stops (R244). -/
def Chip.publish (c : Chip) (slot : Nat) (s : SeqDesc) (ws : List W32) (f : Nat) : List Nat → Nat × Chip
  | [] => (0, c)
  | k :: rest =>
    let i := f + k
    let e := c.pageEntry slot s i
    if s.pages ≤ i ∨ e.2 ≠ 2 then (4, c)
    else if (c.pfxFind slot (actionKey ws k) s).isSome then (c.bump R.PFX_CNT F.PFX_CNT.DUP 1).publish slot s ws f rest
    else
      let n := s.objectBytes
      let c := c.pfxMakeRoom slot e.1 n c.pfxPool.length
      if ¬ c.pfxRoom slot e.1 n then (5, c.bump R.PFX_CNT F.PFX_CNT.FULL 1)
      else
        let entry : PfxEntry := ⟨slot, actionKey ws k, s.geometry, e.1, c.chainAt slot s i, 1, c.time.uptime⟩
        let keys := c.objectPages slot e.1 n
        let c := { c with pfxPool := c.pfxPool ++ [entry]
                          pages := c.pages.map (fun (x : Nat × Page) => if keys.contains x.1 then (x.1, { x.2 with pfx := true }) else x) }
        (c.setPageEntry slot s i e.1 3).publish slot s ws f rest

/-- A sequence action on the head deferred request of its kind: with a valid descriptor it answers the new descriptor and
ERR; an invalid one gives ERR 1. -/
def Chip.seqAction (c : Chip) (uid kind : Nat) (act : Chip → Command → Deferred → SeqDesc → SeqDesc × Nat × Chip) : Chip :=
  match c.headDeferred uid kind with
  | none => c
  | some (k, d) =>
    let w0 := body d.words 0 4
    let va := c.seqVa uid (w0 / 2 ^ 24, 128 * (w0 % 2 ^ 24))
    match c.readSeq k.slot va with
    | none => (c.seqErr k.slot va 1).popDeferred uid
    | some s =>
      let (s', err, c) := act c k d s
      (c.writeSeq k.slot s' err).popDeferred uid

/-- PREFIX_PUBLISH (R244). -/
def prefixPublish (uid : Nat) (c : Chip) : Chip :=
  c.seqAction uid 0x51 (fun c k d s =>
    let (err, c) := c.publish k.slot s d.words (body d.words 4 4) (List.range (body d.words 8 4))
    (s, err, c))

/-- Attach pages from the first key on: the hits and the last hit's chain (R245). -/
def Chip.attach (c : Chip) (slot : Nat) (s : SeqDesc) (ws : List W32) : List Nat → Nat → List Byte → Nat × List Byte × Chip
  | [], h, ch => (h, ch, c)
  | k :: rest, h, ch =>
    match (if k < s.pages then c.pfxFind slot (actionKey ws k) s else none) with
    | none => (h, ch, c)
    | some e =>
      let c := { c with pfxPool := c.pfxPool.map (fun x => if x = e then { x with refs := x.refs + 1, lastUse := c.time.uptime } else x) }
      (c.setPageEntry slot s k e.object 3).attach slot s ws rest (h + 1) e.chain

/-- PREFIX_ATTACH (R245). -/
def prefixAttach (uid : Nat) (c : Chip) : Chip :=
  c.seqAction uid 0x52 (fun c k d s =>
    if s.tokens ≠ 0 then (s, 6, c)
    else
      let (h, ch, c) := c.attach k.slot s d.words (List.range (body d.words 4 4)) 0 s.chain
      ({ s with tokens := h * 2 ^ s.pageLog2, sealed_ := h, prefixPages := h, chain := ch }, 0, c))

/-- SEQ_RELEASE (R246). -/
def seqRelease (uid : Nat) (c : Chip) : Chip :=
  c.seqAction uid 0x53 (fun c k _ s =>
    let shared := (List.range (min s.pages (ceilDiv s.tokens (2 ^ s.pageLog2)))).filter (fun i => (c.pageEntry k.slot s i).2 == 3)
    let c := shared.foldl (fun c i =>
      let o := (c.pageEntry k.slot s i).1
      (c.pfxDrop k.slot o).setPageEntry k.slot s i o 0) c
    ({ s with tokens := 0, sealed_ := 0, prefixPages := 0 }, 0, c))

/-! ### Weights and digests (R247 to R250) -/

/-- The lowest free index of a weight table. -/
def freeWeight (l : List Weight) : Option Nat := (List.range 4096).find? (fun i => !l.any (fun w => w.index == i))

/-- Count digested bytes on a ream (R254). -/
def Chip.digested (c : Chip) (ream n : Nat) : Chip := c.bump (R.DIG_CNT ream) F.DIG_CNT.BYTES_KIB (ceilDiv n 1024)

/-- The ream on which a command's gang begins, whose digest engines serve it. -/
def Chip.homeOf (c : Chip) (k : Command) : Nat :=
  match c.context k.desc.ctx with
  | some x => posReam (x.posOf 0)
  | none => 0

/-- WEIGHT_REGISTER (R249): the slot's digest, the seal of its pages, the table entry and the record. -/
def weightRegister (uid : Nat) (c : Chip) : Chip :=
  match c.headDeferred uid 0x54 with
  | none => c
  | some (k, d) =>
    let r := k.tensorRange (body d.words 0 4 / 2 ^ 24)
    let w1 := body d.words 4 4
    let rec_ := (k.tensorRange (w1 / 2 ^ 24)).1 + 16 * (w1 % 2 ^ 24)
    if c.covered k.slot r.1 r.2 (some uid) then c
    else if c.poisoned k.slot r.1 r.2 then (c.notePoison k.slot r.1 r.2).actionFails uid
    else
      let digest := sha256 (c.treadN k.slot r.1 r.2)
      let c := c.digested (c.homeOf k) r.2
      let keys := ((c.pagesIn k.slot r.1 r.2).filter (fun x => !x.2.radio && !c.rxqOver k.slot (keyVa x.1) (pageBytes x.2.size))).map (fun x => x.1)
      let c := keys.foldl (fun c key => c.sealPage k.slot (keyVa key) k.desc.step) c
      let l := tabGetD c.weights k.slot []
      let (ix, c) := match freeWeight l with
        | some i => (i, { c with weights := tabPut c.weights k.slot (l ++ [(⟨i, r.1, r.2, digest⟩ : Weight)]) })
        | none => (0xFFFFFFFF, c)
      (c.twrite k.slot rec_ (bytesLE 4 ix ++ List.replicate 4 0 ++ digest ++ List.replicate 8 0)).popDeferred uid

/-- The registered weight object with a slot's BASE and LENGTH (R249). -/
def Chip.weightOf (c : Chip) (k : Command) (t : Tensor) : Option Weight :=
  (tabGetD c.weights k.slot []).find? (fun w => w.base == t.base && w.length == t.length)

/-- The input slots of a watermarked command whose bytes are digested for it: used, and not a registered weight. -/
def Chip.digestSlots (c : Chip) (k : Command) : List Nat :=
  (List.range 8).filter (fun i =>
    match k.tensors[i]? with
    | some t => t.length != 0 && !(t.weight && (c.weightOf k t).isSome)
    | none => false)

/-- DIGEST_COMPLETE (R250): a digest engine finishes an input slot of a watermarked command. -/
def digestComplete (uid : Nat) (i : Fin 8) (c : Chip) : Chip :=
  match c.command uid with
  | none => c
  | some k =>
    if ¬ k.desc.flags.testBit 0 ∨ ¬ (c.digestSlots k).contains i.val ∨ k.digests.any (fun x => x.1 == i.val) ∨ k.ending.isSome then c
    else
      let r := k.tensorRange i.val
      if c.poisoned k.slot r.1 r.2 then (c.notePoison k.slot r.1 r.2).actionFails uid
      else
        (c.digested (c.homeOf k) r.2).updCommand uid (fun k => { k with digests := k.digests ++ [(i.val, sha256 (c.treadN k.slot r.1 r.2))] })

/-- The watermark of a command (R247 to R249). -/
def Chip.watermark (c : Chip) (k : Command) : List Byte :=
  let digest := fun (i : Nat) => ((k.digests.find? (fun x => x.1 == i)).map (·.2)).getD []
  let used := (List.range 8).filterMap (fun i => (k.tensors[i]?).bind (fun t => if t.length = 0 then none else some (i, t)))
  let program := match tabGet c.programs k.desc.program with
    | some p => p.digest
    | none => []
  let weights := (used.filter (fun x => x.2.weight)).flatMap (fun x => ((c.weightOf k x.2).map (·.digest)).getD (digest x.1))
  let inputs := (used.filter (fun x => !x.2.weight)).flatMap (fun x => bytesLE 1 x.1 ++ bytesLE 8 x.2.length ++ digest x.1)
  let aic := match c.context k.desc.ctx with
    | some x => x.aic
    | none => c.aic
  sha256 (program ++ weights ++ sha256 inputs ++ bytesLE 2 aic ++ bytesLE 8 k.desc.seed.toNat ++ [if k.nonrepro then 0 else 1])

/-! ### Serving an engine request (R221) -/

/-- A request is served with its result block. -/
def Chip.engineDone (c : Chip) (s : SheetAt) (tag : Nat) (bs : List Byte) : Chip :=
  let sampler : Bool := ((c.sheet s).request tag).any (fun d => d.kind == 0x48 || d.kind == 0x49)
  let cause : CntCause := { noCause with cls := (c.sheet s).task.map (fun t => t.cls) }
  let c := if sampler then c.perf (.ream s.ream) 0x0B 1 else c.perf (.quire ⟨s.ream, s.quire⟩) 0x0A 1 cause
  c.updSheet s (fun sh => sh.updRequest tag (fun d => { d with served := true, block := some (body d.words 0 4, bs) }))

/-- An unserved engine request of a kind with its task. -/
def Chip.engineReq (c : Chip) (s : SheetAt) (tag kind : Nat) : Option (DmaReq × Task) :=
  match (c.sheet s).request tag, (c.sheet s).task with
  | some d, some t => if d.kind = kind ∧ ¬ d.served then some (d, t) else none
  | _, _ => none

/-- What stops an engine's read of tenant memory: a revoked page tears the job down, other data ends the command; none when the
range reads. -/
def Chip.engineStop (c : Chip) (k : Nat) (t : Task) (va n : Nat) : Option Chip :=
  match c.readEnd t.slot va n with
  | .ok => none
  | .revoked => some (c.revokedRead t.cmd)
  | .out => some (c.trap k trOut)
  | .bad => some ((c.notePoison t.slot va n).dataFails k t.cmd t.slot)

/-- A 16-byte block head: STATUS in byte 0, then three words. -/
def blockHead (status slot w1 w2 w3 : Nat) : List Byte := bytesLE 1 status ++ bytesLE 3 slot ++ bytesLE 4 w1 ++ bytesLE 4 w2 ++ bytesLE 4 w3

/-- ENGINE_RESULT_BLOCK_WRITE (R221): the block is written and its lines are ready; the request is done. -/
def engineResultBlockWrite (s : SheetAt) (tag : Nat) (c : Chip) : Chip :=
  match (c.sheet s).request tag with
  | none => c
  | some d =>
    match d.block with
    | none => c
    | some (a, bs) =>
      if d.kind < 0x40 ∨ ¬ d.served ∨ ¬ d.lines.isEmpty then c
      else
        let n := match d.sent with
          | some (_, n) => n
          | none => 0
        c.updSheet s (fun sh => ((sh.result a bs).mkReady (linesOf a n)).dropRequest tag)

/-- ROPE (R229). -/
def rope (s : SheetAt) (tag : Nat) (c : Chip) : Chip :=
  match c.engineReq s tag 0x40 with
  | none => c
  | some (d, t) =>
    let w := body d.words 4 4
    let pos := body d.words 8 4
    let n := body d.words 12 4
    match c.readSeq t.slot (c.seqVa t.cmd (w / 2 ^ 24, 128 * (w % 2 ^ 24))) with
    | none => c.engineDone s tag (bytesLE 8 0x11)
    | some q =>
      if 2 ^ 32 < pos + n then c.engineDone s tag (bytesLE 8 0x10)
      else
        let half := q.ropeDim / 2
        match c.engineStop (sheetKey s) t q.ropeTab (8 * half) with
        | some c => c
        | none =>
          let out := (List.range n).flatMap (fun j => (List.range half).flatMap (fun i =>
            let p := pos + j
            let f := c.treadNat t.slot (q.ropeTab + 8 * i) 8
            let phi : W64 := BitVec.ofNat 64 (p / 2 ^ 16 * f * 2 ^ 16 + p % 2 ^ 16 * f)
            bytesLE 4 (Config.ropeCos c.aic phi).toNat ++ bytesLE 4 (Config.ropeSin c.aic phi).toNat))
          c.engineDone s tag (bytesLE 8 0 ++ out)

/-! ### The walk (R230 to R237) -/

/-- Put walk slot i of a quire. -/
def Chip.setWalkSlot (c : Chip) (q i : Nat) (w : Option WalkSlot) : Chip :=
  let l := tabGetD c.walks q []
  let l := l ++ List.replicate (16 - l.length) none
  { c with walks := tabPut c.walks q (setNth l i w) }

/-- The lowest free walk slot of a quire. -/
def Chip.freeWalkSlot (c : Chip) (q : Nat) : Option Nat := (List.range 16).find? (fun i => (c.walkSlot q i).isNone)

/-- Pages of a snapshot. -/
def WalkSlot.pages (w : WalkSlot) : Nat := ceilDiv w.tokens (2 ^ w.pageLog2)

/-- Tokens of page p of a snapshot. -/
def WalkSlot.pageTokens (w : WalkSlot) (p : Nat) : Nat := min (2 ^ w.pageLog2) (w.tokens - p * 2 ^ w.pageLog2)

/-- Indices as bytes. -/
def indexBytes (l : List Nat) : List Byte := l.flatMap (fun i => bytesLE 4 i)

/-- WALK_BEGIN (R232, R233). -/
def walkBegin (s : SheetAt) (tag : Nat) (c : Chip) : Chip :=
  let k := sheetKey s
  let q := keyQuire k
  match c.engineReq s tag 0x41 with
  | none => c
  | some (d, t) =>
    let b := body d.words
    let w := b 4 4
    match c.readSeq t.slot (c.seqVa t.cmd (w / 2 ^ 24, 128 * (w % 2 ^ 24))) with
    | none => c.engineDone s tag (blockHead 0x11 0 0 0 0)
    | some sq =>
      let snap := ceilDiv sq.tokens (2 ^ sq.pageLog2)
      let nq := b 12 1
      let qbytes := 4 * nq * sq.dim
      let sh := c.sheet s
      if sq.tokens = 0 then c.engineDone s tag (blockHead 0x03 0 0 0 0)
      else if sq.pages < snap then c.engineDone s tag (blockHead 0x11 0 0 0 0)
      else match c.engineStop k t sq.pageList (8 * snap) with
      | some c => c
      | none =>
        let entries := (List.range snap).map (fun i => c.pageEntry t.slot sq i)
        if entries.any (fun e => e.2 == 0) then c.engineDone s tag (blockHead 0x11 0 0 0 0)
        else if nq % sq.heads ≠ 0 then c.trap k trIllegal
        else if ¬ feltOk (b 8 4) qbytes then c.trap k trFelt
        else if (linesOf (b 8 4) qbytes).any (fun l => !sh.ready l) then c
        else match c.freeWalkSlot q with
        | none =>
          if c.walkWait.contains (k, tag) then c
          else ({ c with walkWait := c.walkWait ++ [(k, tag)] }).bump (R.WALK_CNT1 (q / 8) (q % 8)) F.WALK_CNT1.SLOT_WAIT 1
        | some i =>
          let mode := b 13 1
          let round := b 22 2
          let list := if mode = 0 then List.range (min round snap)
            else (List.range snap).filter (fun p => decide (p < b 20 1) || decide (snap < p + 1 + b 21 1))
          let slot : WalkSlot := { key := k, task := t, tenant := t.slot, tokens := sq.tokens, pageLog2 := sq.pageLog2,
                                   heads := sq.heads, dim := sq.dim, kfmt := sq.kfmt, vfmt := sq.vfmt,
                                   entries := entries.map (·.1), query := feltWords sh (b 8 4) (nq * sq.dim), nq := nq, mode := mode,
                                   tauLog2 := b 14 1, scale := BitVec.ofNat 32 (b 16 4), round := round, maxPages := b 24 4,
                                   selected := list }
          let c := (c.setWalkSlot q i (some slot)).bump (R.WALK_CNT0 (q / 8) (q % 8)) F.WALK_CNT0.WALKS 1
          let c := { c with walkWait := c.walkWait.filter (fun x => x != (k, tag)) }
          c.engineDone s tag (blockHead 0 i sq.tokens snap list.length ++ indexBytes list)

/-- The bound U(p, v) (R230): products, partial sums and the scaling rounded up; an infinite or NaN term, or a NaN, makes it +∞.
`sk` reads a BF16 word of the page's sketch. -/
def walkBound (w : WalkSlot) (sk : Nat → Nat) (v : Nat) : W32 :=
  let h := v * w.heads / w.nq
  let term := fun (d : Nat) =>
    let q := nth w.query (v * w.dim + d) 0
    let prod := fun (off : Nat) => f32r 2 ((f32 q).mul (bf16.decode (sk (h * 4 * w.dim + off + 2 * d))))
    let a := prod 0
    let b := prod (2 * w.dim)
    let bad := fun (x : W32) => match f32 x with
      | .fin _ _ _ => false
      | _ => true
    if bad a || bad b then none else some (fmaxW a b)
  let sum := (List.range w.dim).foldl (fun (a : Option W32) d =>
    match a, term d with
    | some x, some y => some (if d = 0 then y else faddR 2 x y)
    | _, _ => none) (some 0)
  match sum with
  | none => f32inf
  | some x =>
    let u := fmulR 2 w.scale x
    if f32 u = .nan then f32inf else u

/-- e↑ (R231): the function unit's exp raised by two units in the last place, +∞ at +∞. -/
def expUp (aic : Nat) (x : W32) : W32 :=
  if f32 x = .inf false then f32inf
  else
    let e := (laneFn aic 0 false x).1
    if e.toNat < 0x7F800000 then BitVec.ofNat 32 (min 0x7F800000 (e.toNat + 2)) else e

/-- What WALK_STEP finds of the unselected pages: for each, its bounds by vector. -/
def Chip.walkScan (c : Chip) (w : WalkSlot) : List (Nat × List W32) :=
  let off := sketchOff w.pageLog2 w.heads w.dim w.kfmt w.vfmt
  ((List.range w.pages).filter (fun p => !w.selected.contains p)).map (fun p =>
    let base := nth w.entries p 0 + off
    (p, (List.range w.nq).map (walkBound w (fun o => c.treadNat w.tenant (base + o) 2))))

/-- B_v (R231). -/
def walkMass (aic : Nat) (w : WalkSlot) (scan : List (Nat × List W32)) (v : Nat) (m : W32) : W32 :=
  scan.foldl (fun acc x =>
    let e := expUp aic (fsubR 2 (nth x.2 v 0) m)
    faddR 2 acc (f32r 2 ((Fval.ofInt (w.pageTokens x.1)).mul (f32 e)))) 0

/-- The threshold exponent: τ = 2^−tau (R235). -/
def WalkSlot.tau (w : WalkSlot) : Nat := if w.mode = 2 then 24 else w.tauLog2

/-- The check of R231 for vector v: it fails where Z is not positive or m is NaN (R235). -/
def walkPasses (w : WalkSlot) (b m z : W32) : Bool :=
  let lim := f32r 3 ((f32 z).scale (-(w.tau : Int)))
  f32 m != .nan && fltW 0 z && f32 b != .nan && !fltW lim b

/-- The rank r_p (R234). -/
def walkRank (stats : List (W32 × W32)) (us : List W32) : W32 :=
  match (us.zip stats).map (fun x => fsubR 2 x.1 x.2.1) with
  | [] => 0
  | r :: t => t.foldl fmaxW r

/-- Ranked before: a larger rank, or the lower index; a NaN rank counts as +∞ so that the walk escalates. -/
def rankLt (a b : Nat × W32) : Bool :=
  let x := if f32 a.2 = .nan then f32inf else a.2
  let y := if f32 b.2 = .nan then f32inf else b.2
  fltW y x || (!fltW x y && decide (a.1 < b.1))

/-- An earlier unserved WALK_STEP of the quire stands before this one (R238). -/
def Chip.stepBefore (c : Chip) (q issue : Nat) : Bool :=
  (quireKeys q).any (fun k => (c.sheetK k).dma.any (fun d => d.kind == 0x42 && !d.served && decide (d.issue < issue)))

/-- The end of a step: new selection, counters and the result block. -/
def Chip.stepDone (c : Chip) (s : SheetAt) (tag q i : Nat) (w : WalkSlot) (status : Nat) (list : List Nat) (mass : W32) : Chip :=
  let n := w.selected.length + list.length
  let cnt := R.WALK_CNT1 (q / 8) (q % 8)
  let c := (c.setWalkSlot q i (some { w with selected := w.selected ++ list })).bump cnt F.WALK_CNT1.PAGES_SELECTED list.length
  let c := (if status = 2 then c.bump cnt F.WALK_CNT1.CAPPED 1 else c).bump (R.WALK_CNT0 (q / 8) (q % 8)) F.WALK_CNT0.STEPS 1
  c.engineDone s tag (blockHead status 0 list.length n mass.toNat ++ indexBytes list)

/-- WALK_STEP (R234, R235), served in issue order. MASS where no Z is a divisor is open and takes a free value. -/
def walkStep (s : SheetAt) (tag : Nat) (c : Chip) : Chip :=
  let k := sheetKey s
  let q := keyQuire k
  match c.engineReq s tag 0x42 with
  | none => c
  | some (d, t) =>
    let i := body d.words 4 4
    if c.stepBefore q d.issue then c
    else match c.walkSlot q i with
    | none => c.engineDone s tag (blockHead 0x10 0 0 0 0)
    | some w =>
      if w.key ≠ k then c.engineDone s tag (blockHead 0x10 0 0 0 0)
      else if w.mode = 0 then
        let list := ((List.range w.pages).filter (fun p => !w.selected.contains p)).take w.round
        c.stepDone s tag q i w (if w.pages ≤ w.selected.length + list.length then 0 else 1) list 0
      else
        let stat := body d.words 8 4
        let sh := c.sheet s
        let off := sketchOff w.pageLog2 w.heads w.dim w.kfmt w.vfmt
        if ¬ feltOk stat (8 * w.nq) then c.trap k trFelt
        else if (linesOf stat (8 * w.nq)).any (fun l => !sh.ready l) then c
        else
          let left := (List.range w.pages).filter (fun p => !w.selected.contains p)
          match left.findSome? (fun p => c.engineStop k t (nth w.entries p 0 + off) (4 * w.heads * w.dim)) with
          | some c => c
          | none =>
            let ws := feltWords sh stat (2 * w.nq)
            let stats := (List.range w.nq).map (fun v => (nth ws (2 * v) 0, nth ws (2 * v + 1) 0))
            let scan := c.walkScan w
            let bs := stats.zipIdx.map (fun x => walkMass c.aic w scan x.2 x.1.1)
            let pass := (bs.zip stats).all (fun x => walkPasses w x.1 x.2.1 x.2.2)
            let (mass, c) := if stats.all (fun x => fltW 0 x.2 && f32 x.1 != .nan) then
                (((bs.zip stats).map (fun x => fdivR 2 x.1 x.2.2)).foldl fmaxW 0, c)
              else
                let (f, c) := c.free
                (f.setWidth 32, c)
            if pass ∨ left.isEmpty then c.stepDone s tag q i w 0 [] mass
            else if w.maxPages ≠ 0 ∧ w.maxPages ≤ w.selected.length then c.stepDone s tag q i w 2 [] mass
            else
              let room := if w.maxPages = 0 then w.round else min w.round (w.maxPages - w.selected.length)
              let ranked := sortBy rankLt (scan.map (fun x => (x.1, walkRank stats x.2)))
              c.stepDone s tag q i w 1 ((ranked.take room).map (·.1)) mass

/-- WALK_END (R232). -/
def walkEnd (s : SheetAt) (tag : Nat) (c : Chip) : Chip :=
  let k := sheetKey s
  let q := keyQuire k
  match c.engineReq s tag 0x43 with
  | none => c
  | some (d, _) =>
    let i := body d.words 4 4
    match c.walkSlot q i with
    | some w => if w.key = k then (c.setWalkSlot q i none).engineDone s tag (bytesLE 8 0) else c.engineDone s tag (bytesLE 8 0x10)
    | none => c.engineDone s tag (bytesLE 8 0x10)

/-- The bytes that PAGE_FETCH delivers of one side of a page (R236): the layout of R224, or one head's rows with its scales
after them; rows at or beyond the snapshot's tokens are zeros. `base` is the side's address. -/
def Chip.fetchSide (c : Chip) (w : WalkSlot) (base fmt head tokens : Nat) : List Byte :=
  let p := 2 ^ w.pageLog2
  let b := kvBytes fmt
  let gs := if head = 0xFF then List.range w.heads else [head]
  let rows := (List.range p).flatMap (fun t => gs.flatMap (fun g =>
    if t < tokens then c.treadN w.tenant (base + (t * w.heads + g) * w.dim * b) (w.dim * b) else List.replicate (w.dim * b) 0))
  let sc := p * w.heads * w.dim
  let scales := if fmt = 5 then (List.range p).flatMap (fun t => gs.flatMap (fun g =>
      if t < tokens then c.treadN w.tenant (base + sc + (t * w.heads + g) * (w.dim / 32)) (w.dim / 32) else List.replicate (w.dim / 32) 0))
    else []
  rows ++ scales

/-- PAGE_FETCH (R236). -/
def pageFetch (s : SheetAt) (tag : Nat) (c : Chip) : Chip :=
  let k := sheetKey s
  let q := keyQuire k
  match c.engineReq s tag 0x44 with
  | none => c
  | some (d, t) =>
    let b := body d.words
    let bad := fun (c : Chip) =>
      (c.updSheet s (fun sh => (sh.mkReady d.lines).updRequest tag (fun d => { d with lines := [] }))).engineDone s tag (bytesLE 8 0x10)
    match c.walkSlot q (b 4 4) with
    | none => bad c
    | some w =>
      let page := b 8 4
      let head := b 12 4
      if w.key ≠ k ∨ w.pages ≤ page ∨ (head ≠ 0xFF ∧ w.heads ≤ head) then bad c
      else
        let object := nth w.entries page 0
        let ks := kvSize w.pageLog2 w.heads w.dim w.kfmt
        let vs := kvSize w.pageLog2 w.heads w.dim w.vfmt
        match c.engineStop k t object (ks + vs) with
        | some c => c
        | none =>
          let n := w.pageTokens page
          let kb := c.fetchSide w object w.kfmt head n
          let vb := c.fetchSide w (object + ks) w.vfmt head n
          let c := c.countRead t.slot object
          let c := c.updSheet s (fun sh => sh.updRequest tag (fun d => { d with pieces := piecesAt (b 16 4) kb ++ piecesAt (b 20 4) vb }))
          c.engineDone s tag (bytesLE 4 0 ++ bytesLE 4 n)

/-! ### The sampler (R239 to R242) -/

/-- The settings of a SAMPLE or VERIFY. -/
structure SampleArgs where
  n : Nat
  topK : Nat
  temp : W32
  topP : W32
  minP : W32
  stream : W32
  step : Nat
deriving DecidableEq, Repr

/-- The settings of a request. -/
def sampleArgs (ws : List W32) : SampleArgs :=
  let b := body ws
  ⟨b 8 4, b 14 2, BitVec.ofNat 32 (b 16 4), BitVec.ofNat 32 (b 20 4), BitVec.ofNat 32 (b 24 4), BitVec.ofNat 32 (b 28 4), b 32 4 % 2 ^ 24⟩

/-- Scores of a row of bytes in FP32, NaN excluded, ±∞ clamped to the largest finite value (R240 step 1). -/
def rowScores (fmt n : Nat) (bs : List Byte) : List (Nat × W32) :=
  let b := if fmt = 0 then 4 else 2
  (List.range n).filterMap (fun i =>
    let w := natLE ((bs.drop (b * i)).take b)
    let v := match fmt with
      | 0 => fp32.decode w
      | 1 => bf16.decode w
      | _ => fp16.decode w
    match v with
    | .nan => none
    | .inf s => some (i, if s then 0xFF7FFFFF#32 else 0x7F7FFFFF#32)
    | x => some (i, f32r 0 x))

/-- A larger value first, ties to the lower index. -/
def descLt (a b : Nat × W32) : Bool := fltW b.2 a.2 || (!fltW a.2 b.2 && decide (a.1 < b.1))

/-- The entry of the largest value, ties to the lower index. -/
def argMax : List (Nat × W32) → Option (Nat × W32)
  | [] => none
  | x :: t =>
    match argMax t with
    | none => some x
    | some y => if descLt y x then some y else some x

/-- A row after steps 1 to 4 of R240: its scores over TEMP, the kept entries with their weights in rank order, and
Z_kept. -/
structure Kept where
  xs : List (Nat × W32)
  kept : List (Nat × W32)
  z : W32
deriving DecidableEq, Repr

/-- The shortest prefix whose running sum reaches a limit, with its sum. -/
def takeUntil (lim : W32) : List (Nat × W32) → W32 → List (Nat × W32) → List (Nat × W32) × W32
  | [], sum, acc => (acc.reverse, sum)
  | x :: t, sum, acc =>
    let sum := if acc.isEmpty then x.2 else faddR 0 sum x.2
    if fltW sum lim then takeUntil lim t sum (x :: acc) else ((x :: acc).reverse, sum)

/-- Steps 1 to 4 of R240. -/
def keep (aic : Nat) (a : SampleArgs) (scores : List (Nat × W32)) : Kept :=
  let xs := scores.map (fun s => (s.1, fdivR 0 s.2 a.temp))
  let ranked := sortBy descLt xs
  let cs := if a.topK = 0 then ranked else ranked.take a.topK
  let m := match cs with
    | x :: _ => x.2
    | [] => 0
  let ws := (cs.map (fun x => (x.1, Config.samplerExp aic (fsubR 0 x.2 m)))).filter (fun x => !fltW x.2 a.minP)
  let rest := sortBy descLt ws
  let z := (rest.foldl (fun (s : W32 × Bool) x => (if s.2 then faddR 0 s.1 x.2 else x.2, true)) (0, false)).1
  if a.topP = f32one then ⟨xs, rest, z⟩
  else
    let r := takeUntil (fmulR 0 a.topP z) rest 0 []
    ⟨xs, r.1, r.2⟩

/-- g_i of step 5: −ln(−ln u) with u from the draw at INDEX i (R59, R60, R240). -/
def gumbel (aic : Nat) (seed : W64) (stream : W32) (index step : Nat) : W32 :=
  let x0 := (philox seed (drawCounter stream (BitVec.ofNat 64 index) 2 step)).x0
  let u := f32r 0 (.fin false (2 * x0.toNat + 1) (-33))
  let neg := fun (w : W32) => w ^^^ 0x80000000#32
  neg (Config.samplerLn aic (neg (Config.samplerLn aic u)))

/-- Step 5: the token of the largest key over entries with their x. -/
def drawToken (aic : Nat) (seed : W64) (a : SampleArgs) (step : Nat) (xs : List (Nat × W32)) : Nat :=
  ((argMax (xs.map (fun x => (x.1, faddR 0 x.2 (gumbel aic seed a.stream x.1 step))))).map (·.1)).getD 0

/-- The value of an entry in a list. -/
def valueOf (l : List (Nat × W32)) (i : Nat) : W32 := ((l.find? (fun x => x.1 == i)).map (·.2)).getD 0

/-- LOGP_FULL of step 6. -/
def logpFull (aic : Nat) (xs : List (Nat × W32)) (token : Nat) : W32 :=
  let m := ((argMax xs).map (·.2)).getD 0
  let s := (xs.foldl (fun (s : W32 × Bool) x =>
    let e := Config.samplerExp aic (fsubR 0 x.2 m)
    (if s.2 then faddR 0 s.1 e else e, true)) (0, false)).1
  fsubR 0 (fsubR 0 (valueOf xs token) m) (Config.samplerLn aic s)

/-- The result block of the sampler. -/
def sampleBlock (status token : Nat) (sampled full : W32) (kept accepted : Nat) : List Byte :=
  bytesLE 4 status ++ bytesLE 4 token ++ bytesLE 4 sampled.toNat ++ bytesLE 4 full.toNat ++ bytesLE 4 kept ++ bytesLE 4 accepted

/-- The bytes of a row of a request, or what stops the read: none while felt lines are not ready (R239). -/
def Chip.rowBytesOf (c : Chip) (s : SheetAt) (t : Task) (row off n : Nat) : Option (List Byte) ⊕ Chip :=
  let k := sheetKey s
  let sh := c.sheet s
  let at_ := rowOff row + off
  match row / 2 ^ 30 with
  | 0 => .inl (if (linesOf at_ n).any (fun l => !sh.ready l) then none else some ((List.range n).map (fun i => sh.rd (at_ + i))))
  | 1 =>
    let q := c.quire (keyQuire k / 8 * 8 + bitsOf row 29 27)
    if q.poison.any (fun l => decide (poolKey t.ctx at_ < l + 64) && decide (l < poolKey t.ctx at_ + n)) then .inr (c.dataFails k t.cmd t.slot)
    else .inl (some (memRead q.pool (poolKey t.ctx at_) n))
  | _ =>
    let r := c.cmdRange t.cmd (bitsOf row 26 24)
    match c.engineStop k t (r.1 + at_) n with
    | some c => .inr c
    | none => .inl (some (c.treadN t.slot (r.1 + at_) n))

/-- The sampler requests of a ream, unserved: class, issue and key. -/
def Chip.samplerQueue (c : Chip) (ream : Nat) : List (Nat × Nat) :=
  let all := c.sheets.flatMap (fun x =>
    if keyQuire x.1 / 8 = ream then
      (x.2.dma.filter (fun d => (d.kind == 0x48 || d.kind == 0x49) && !d.served)).map (fun d => ((x.2.task.map (·.cls)).getD 3, d.issue))
    else [])
  (sortBy (fun a b => decide (a.2 < b.2)) all).take 64

/-- A request is the next that the ream's sampler serves: among the 64 queued, the lowest class and the earliest issue. -/
def Chip.samplerNext (c : Chip) (ream cls issue : Nat) : Bool :=
  let q := c.samplerQueue ream
  q.contains (cls, issue) && q.all (fun x => decide (cls < x.1) || (cls == x.1 && decide (issue ≤ x.2)))

/-- Rows of a request, `count` of them from ROW field `row`. -/
def Chip.rowsOf (c : Chip) (s : SheetAt) (t : Task) (ws : List W32) (row : Nat) : Nat → Option (List (List (Nat × W32))) ⊕ Chip
  | 0 => .inl (some [])
  | j + 1 =>
    match c.rowsOf s t ws row j with
    | .inr c => .inr c
    | .inl none => .inl none
    | .inl (some l) =>
      match c.rowBytesOf s t row (rowBytes ws * j) (body ws 8 4 * (if body ws 12 1 = 0 then 4 else 2)) with
      | .inr c => .inr c
      | .inl none => .inl none
      | .inl (some bs) => .inl (some (l ++ [rowScores (body ws 12 1) (body ws 8 4) bs]))

/-- The command's seed of a task. -/
def Chip.seedOf (c : Chip) (t : Task) : W64 :=
  match c.command t.cmd with
  | some k => k.desc.seed
  | none => 0

/-- A request in range that R239 and R240 answer with BAD_PARAM. -/
def sampleBad (a : SampleArgs) (rows : List (List (Nat × W32))) : Bool :=
  (a.topK == 0 && (a.topP != f32one || fltW 0 a.minP)) || rows.any (·.isEmpty)

/-- Greedy: the token of a row, and its LOGP_FULL at TEMP 1 (R240 step 1). -/
def greedy (aic : Nat) (row : List (Nat × W32)) : Nat × W32 :=
  let t := ((argMax row).map (·.1)).getD 0
  (t, logpFull aic row t)

/-- SAMPLE (R239, R240). -/
def sampleDo (s : SheetAt) (tag : Nat) (c : Chip) : Chip :=
  match c.engineReq s tag 0x48 with
  | none => c
  | some (d, t) =>
    let ream := s.ream.val
    if ¬ c.samplerNext ream t.cls d.issue then c
    else match c.rowsOf s t d.words (body d.words 4 4) 1 with
    | .inr c => c
    | .inl none => c
    | .inl (some rows) =>
      let a := sampleArgs d.words
      let row := (rows.head?).getD []
      let c := c.bump (R.SMP_CNT ream) F.SMP_CNT.SAMPLES 1
      if sampleBad a rows then c.engineDone s tag (sampleBlock 0x10 0 0 0 0 0)
      else if (f32 a.temp).isZero then
        let g := greedy c.aic row
        let (f, c) := c.free
        c.engineDone s tag (sampleBlock 0 g.1 0 g.2 (f.toNat % 2 ^ 32) 0)
      else
        let k := keep c.aic a row
        let token := drawToken c.aic (c.seedOf t) a a.step (k.kept.map (fun x => (x.1, valueOf k.xs x.1)))
        let sampled := Config.samplerLn c.aic (fdivR 0 (valueOf k.kept token) k.z)
        c.engineDone s tag (sampleBlock 0 token sampled (logpFull c.aic k.xs token) k.kept.length 0)

/-- The probability of a token in a kept distribution. -/
def Kept.prob (k : Kept) (i : Nat) : W32 := if k.kept.any (fun x => x.1 == i) then fdivR 0 (valueOf k.kept i) k.z else 0

/-- Draft token j is accepted (R241). -/
def accepts (seed : W64) (a : SampleArgs) (p q : Kept) (draft j : Nat) : Bool :=
  let pd := p.prob draft
  let qd := q.prob draft
  let x0 := (philox seed (drawCounter a.stream (BitVec.ofNat 64 (2 ^ 40 + j)) 2 (a.step + j))).x0
  let u := f32r 0 (.fin false (2 * x0.toNat + 1) (-33))
  if (f32 qd).isZero then fltW 0 pd else fltW (fmulR 0 u qd) pd

/-- How many drafts are accepted in a row, from j on. -/
def acceptRun (seed : W64) (a : SampleArgs) (ps qs : List Kept) : List Nat → Nat → Nat
  | [], j => j
  | d :: t, j => if accepts seed a (nth ps j ⟨[], [], 0⟩) (nth qs j ⟨[], [], 0⟩) d j then acceptRun seed a ps qs t (j + 1) else j

/-- How many drafts are the greedy choices of their rows. -/
def greedyRun (aic : Nat) : List (List (Nat × W32)) → List Nat → Nat
  | r :: rs, d :: ds => if (greedy aic r).1 = d then greedyRun aic rs ds + 1 else 0
  | _, _ => 0

/-- The token after the accepted drafts, its log-probability under the distribution it was drawn from, and that
distribution's size (R241). -/
def verifyToken (aic : Nat) (seed : W64) (a : SampleArgs) (ps qs : List Kept) (acc n : Nat) : Nat × W32 × Nat :=
  let p := nth ps acc ⟨[], [], 0⟩
  let step := a.step + acc
  let plain :=
    let token := drawToken aic seed a step (p.kept.map (fun x => (x.1, valueOf p.xs x.1)))
    (token, Config.samplerLn aic (fdivR 0 (valueOf p.kept token) p.z), p.kept.length)
  if acc = n then plain
  else
    let q := nth qs acc ⟨[], [], 0⟩
    let rs := (p.kept.map (fun x => (x.1, fsubR 0 (p.prob x.1) (q.prob x.1)))).filter (fun x => fltW 0 x.2)
    if rs.isEmpty then plain
    else
      let token := drawToken aic seed a step (rs.map (fun x => (x.1, Config.samplerLn aic x.2)))
      let z := (rs.foldl (fun (s : W32 × Bool) x => (if s.2 then faddR 0 s.1 x.2 else x.2, true)) (0, false)).1
      (token, Config.samplerLn aic (fdivR 0 (valueOf rs token) z), rs.length)

/-- VERIFY (R241). -/
def verifyDo (s : SheetAt) (tag : Nat) (c : Chip) : Chip :=
  match c.engineReq s tag 0x49 with
  | none => c
  | some (d, t) =>
    let ream := s.ream.val
    let n := body d.words 44 4
    let drafts := (List.range n).map (fun i => (nth d.words (64 + i) 0).toNat)
    if ¬ c.samplerNext ream t.cls d.issue then c
    else match c.rowsOf s t d.words (body d.words 4 4) (n + 1), c.rowsOf s t d.words (body d.words 40 4) n with
    | .inr c, _ => c
    | _, .inr c => c
    | .inl (some target), .inl (some draft) =>
      let a := sampleArgs d.words
      let seed := c.seedOf t
      let c := c.bump (R.SMP_CNT ream) F.SMP_CNT.SAMPLES 1
      if sampleBad a (target ++ draft) then c.engineDone s tag (sampleBlock 0x10 0 0 0 0 0)
      else if (f32 a.temp).isZero then
        let acc := greedyRun c.aic target drafts
        let g := greedy c.aic (nth target acc [])
        let (f, c) := (c.bump (R.SMP_CNT ream) F.SMP_CNT.DRAFTS_ACCEPTED acc).free
        c.engineDone s tag (sampleBlock 0 g.1 0 g.2 (f.toNat % 2 ^ 32) acc)
      else
        let ps := target.map (keep c.aic a)
        let qs := draft.map (keep c.aic a)
        let acc := acceptRun seed a ps qs drafts 0
        let r := verifyToken c.aic seed a ps qs acc n
        let full := logpFull c.aic (nth ps acc ⟨[], [], 0⟩).xs r.1
        (c.bump (R.SMP_CNT ream) F.SMP_CNT.DRAFTS_ACCEPTED acc).engineDone s tag (sampleBlock 0 r.1 r.2.1 full r.2.2 acc)
    | _, _ => c

end Sys2Proof.Machine
end

