-- ==== Sys2Proof/Machine/Repair.lean ====
section
/-! DEFINITION. The repair map of a quire (R10, R12, R14, R95 to R97, R108, R338 to R340): sheet errors, spares and time
sharing, retirement, the returning sheet, and the isolation of a quire. -/

namespace Sys2Proof.Machine

/-- The key of a position of a quire. -/
def posKey (q p : Nat) : Nat := q * 132 + 2 * p

/-- The position of a key. -/
def keyAtPos (k : Nat) : Nat := k / 2 % 66

/-- The lowest spare position of a quire. -/
def Chip.spareOf (c : Chip) (q : Nat) : Option Nat := (List.range 66).find? (fun p => (c.sheetK (posKey q p)).role == .spare)

/-- The number of free spares of a quire. -/
def Chip.sparesFree (c : Chip) (q : Nat) : Nat := ((List.range 66).filter (fun p => (c.sheetK (posKey q p)).role == .spare)).length

/-- The lowest active position that carries one logical sheet (R108). -/
def Chip.roomFor (c : Chip) (q : Nat) : Option Nat :=
  (List.range 66).find? (fun p =>
    let sh := c.sheetK (posKey q p)
    sh.role == .active && decide (sh.logical.length ≤ 1))

/-- Change the sheet at a key. -/
def Chip.updKey (c : Chip) (k : Nat) (f : Sheet → Sheet) : Chip := c.setSheetK k (f (c.sheetK k))

/-- A logical sheet time-shares another physical sheet (R12). -/
def Chip.addHost (c : Chip) (q l : Nat) : Chip :=
  match c.roomFor q with
  | some p => c.updKey (posKey q p) (fun sh => { sh with logical := sh.logical ++ [l] })
  | none => c

/-- The logical sheets of a position that left service move to a spare, or each time-shares another sheet (R12, R339). The
position keeps their numbers only while no spare replaces it. -/
def Chip.rehouse (c : Chip) (q p : Nat) : Chip :=
  let ls := (c.sheetK (posKey q p)).logical
  match c.spareOf q with
  | some j =>
    (c.updKey (posKey q j) (fun sh => { sh with role := .active, logical := ls })).updKey (posKey q p) (fun sh => { sh with logical := [] })
  | none => ls.foldl (fun c l => c.addHost q l) c

/-- The CRC-free view of how many sheets a quire runs, kept in QUIRE_HEALTH (R358). -/
def Chip.quireCount (c : Chip) (q : Nat) : Chip :=
  (c.setFld (R.QUIRE_HEALTH q) F.QUIRE_HEALTH.ACTIVE (c.activeSheets q)).setFld (R.QUIRE_HEALTH q) F.QUIRE_HEALTH.SPARES_FREE (c.sparesFree q)

/-- A quire's error at its place. -/
def atQuireIx (q : Nat) : ErrAt := atQuire (q / 8) (q % 8)

/-- Capacity was lost now (R210, R211). -/
def Chip.loseCapacity (c : Chip) : Chip := { c with capacityLost := some c.tick }

/-! ### Isolation of a quire (R340) -/

/-- A position of a gang's ream mask that can take a logical sheet: on a quire in service, outside the radio floor, and in no
other context's gang. -/
def Chip.openPos (c : Chip) (x : Context) (taken : List Nat) (n : Nat) : Option Nat :=
  (List.range 32).findSome? (fun q =>
    if x.reamMask.testBit (q / 8) && c.quireUp q && !c.emergency (q / 8) then
      ((List.range 64).find? (fun l => !c.inFloor q l && !taken.contains (q * 64 + l) && (x.posIn q).length + n ≤ 64)).map (fun l => q * 64 + l)
    else none)

/-- The positions that a gang keeps from others: a joined-capable context occupies whole quires (R124). -/
def Context.holds (x : Context) : List Nat :=
  if x.joinedCapable then ((x.gang.map (fun p => p / 64)).eraseDups).flatMap (fun q => (List.range 64).map (fun l => q * 64 + l))
  else x.gang

/-- The positions that contexts hold, on chip or on the way. -/
def Chip.takenPos (c : Chip) : List Nat := c.contexts.flatMap (fun x => if x.2.place = .couched then [] else x.2.holds)

/-- A context leaves the chip because it has lost its place (R139): its tasks on sheets go back to wait, and its couch begins. -/
def Chip.evict (c : Chip) (ctx : Nat) : Chip :=
  match c.context ctx with
  | none => c
  | some x =>
    let c : Chip := { c with contexts := tabPut c.contexts ctx { x with place := .couchingOut, couchStart := c.time.uptime, evicting := true } }
    let running := c.sheets.filterMap (fun y =>
      match y.2.task with
      | some t => if t.ctx = ctx ∧ y.2.wait.isNone then some y.1 else none
      | none => none)
    running.foldl (fun c k => c.killTask k true) c

/-- Move the positions of a gang off a quire, in order; a gang that finds no room is couched out (R139). The
state that the quire's sheets held is lost, and the tasks run again (R132). -/
def Chip.regang (c : Chip) (ctx q : Nat) : Chip :=
  match c.context ctx with
  | none => c
  | some x =>
    if (x.posIn q).isEmpty then c
    else if x.place = .couchingIn then { c with contexts := tabPut c.contexts ctx { x with place := .couched, gang := [] } }
    else if x.place ≠ .onChip then c
    else
      let step := fun (a : List Nat × List Nat × Bool) (p : Nat) =>
        if p / 64 ≠ q then (a.1 ++ [p], a.2.1, a.2.2)
        else match c.openPos x a.2.1 0 with
          | some r => (a.1 ++ [r], r :: a.2.1, a.2.2)
          | none => (a.1 ++ [p], a.2.1, false)
      let (gang, _, ok) := x.gang.foldl step ([], c.takenPos, true)
      if ok then { c with contexts := tabPut c.contexts ctx { x with gang := gang } }
      else c.evict ctx

/-- Put waiting tasks back where their contexts now are. -/
def Chip.replaceTasks (c : Chip) (ts : List Task) : Chip :=
  ts.foldl (fun c t =>
    match c.context t.ctx with
    | some x => if x.place = .onChip then c.enqueue t
        else { c with contexts := tabPut c.contexts t.ctx { x with queued := x.queued ++ [t] } }
    | none => c.enqueue t) c

/-- The events of isolation or other causes of the last 24 hours, by uptime in nanoseconds. -/
def lastDay (now : Nat) (l : List Nat) : List Nat := l.filter (fun t => decide (now < t + 86400 * 10 ^ 9))

/-- A quire leaves service (R340): every task on it is killed and re-queued on the other quires of its gang. A second isolation within
24 hours is for good. -/
def Chip.withdrawQuire (c : Chip) (q : Nat) : Chip :=
  let c := (quireKeys q).foldl (fun c k => c.killTask k true) c
  let ctxs := (c.contexts.filter (fun x => !(x.2.posIn q).isEmpty)).map (·.1)
  let waiting := (c.quire q).queues.flatMap (fun t => t.tasks)
  let home := c.radioHome (q / 8)
  let c := c.setFld (R.QUIRE_HEALTH q) F.QUIRE_HEALTH.STATE 1
  let c : Chip := if q = home then { c with poolReload := q / 8 :: c.poolReload.filter (· != q / 8) } else c
  let now := c.time.uptime
  let c := c.updQuire q (fun x =>
    { x with queues := [], joined := none, isolations := now :: lastDay now x.isolations,
             isolatedForGood := x.isolatedForGood || !(lastDay now x.isolations).isEmpty })
  let c := ctxs.foldl (fun c n => c.regang n q) c
  c.replaceTasks waiting

/-- QUIRE_ISOLATE's handling (R340): the quire leaves service, which is soft evidence, and the cells of its ream are counted against
the capacity that is left (R211). -/
def Chip.isolateQuire (c : Chip) (q : Nat) : Chip :=
  if c.fld (R.QUIRE_HEALTH q) F.QUIRE_HEALTH.STATE = 1 then c
  else ((c.withdrawQuire q).softError (atQuireIx q) 0x05 .quireIsolated).loseCapacity

/-! ### Sheet errors (R95, R339) -/

/-- A sheet left service: its logical sheets find another place, and a quire below 48 active sheets is isolated (R12). -/
def Chip.outOfService (c : Chip) (k : Nat) (role : SheetRole) : Chip :=
  let q := keyQuire k
  let p := keyPrimary k
  let was := c.activeSheets q
  let c := c.updKey p (fun sh => { sh with role := role })
  let c := (c.rehouse q (keyAtPos k)).quireCount q
  let c := if c.activeSheets q < was then c.loseCapacity else c
  if c.activeSheets q < 48 then c.isolateQuire q else c.assignQuire q

/-- The place of a sheet in the error ring. -/
def atKey (k : Nat) : ErrAt := let s := keyAt k; atSheet s.ream.val s.quire.val s.pos.val

/-- A sheet is retired (R339, code 0x04). -/
def Chip.retire (c : Chip) (k : Nat) : Chip := (c.softError (atKey k) 0x04 .sheetRetired).outOfService k .retired

/-- The LAST_CAUSE code of a cause (R97). -/
def causeCode : SheetCause → Nat
  | .feltUncorrectable _ => 1
  | .repeatedResidue => 2
  | .coreParity => 3
  | .vectorParity => 4
  | .accParity => 5
  | .tapParity => 6

/-- SHEET_ERR of a key. -/
def sheetErr (k : Nat) : RegRef := let s := keyAt k; R.SHEET_ERR s.ream.val s.quire.val s.pos.val
/-- SHEET_CNT of a key. -/
def sheetCntK (k : Nat) : RegRef := let s := keyAt k; R.SHEET_CNT s.ream.val s.quire.val s.pos.val
/-- SHEET_FAULT_ADDR of a key. -/
def sheetFaultAddr (k : Nat) : RegRef := let s := keyAt k; R.SHEET_FAULT_ADDR s.ream.val s.quire.val s.pos.val
/-- SHEET_CTL of a key. -/
def sheetCtl (k : Nat) : RegRef := let s := keyAt k; R.SHEET_CTL s.ream.val s.quire.val s.pos.val

/-- Count on a field of SHEET_CNT; one that is full sets STICKY_SAT (R97). -/
def Chip.sheetCount (c : Chip) (k : Nat) (f : Fld) : Chip :=
  let c := if c.fld (sheetCntK k) f = fmax f then c.mark (sheetErr k) F.SHEET_ERR.STICKY_SAT else c
  c.bump (sheetCntK k) f 1

/-- The sheet records the cause of its error (R95, R97). -/
def Chip.noteCause (c : Chip) (k : Nat) (cause : SheetCause) : Chip :=
  let c := c.setFld (sheetErr k) F.SHEET_ERR.LAST_CAUSE (causeCode cause)
  match cause with
  | .feltUncorrectable a =>
    ((c.mark (sheetErr k) F.SHEET_ERR.STICKY_UE).sheetCount k F.SHEET_CNT.FELT_UE).setReg (sheetFaultAddr k) (BitVec.ofNat 64 (a / 16 * 16))
  | .repeatedResidue => c.mark (sheetErr k) F.SHEET_ERR.STICKY_RES2
  | _ => c.mark (sheetErr k) F.SHEET_ERR.STICKY_PAR

/-- Code 0x03 (R95, R338, R339): the sheet kills its task, which the quire re-queues, and leaves for scrub and self-test, or
for good on its second such error within 24 hours. Radio tasks for which the sheet was being taken get the next sheet of the
ream (R14). -/
def Chip.sheetFails (c : Chip) (k : Nat) (cause : SheetCause) : Chip :=
  let p := keyPrimary k
  let ream := keyQuire k / 8
  let c := c.noteCause k cause
  let taken := (c.sheetK p).acquired.isSome
  let c := if taken then
      { c.loseCapacity with radioFirst := tabUpd c.radioFirst ream [] (fun l =>
          match c.nextRadio ream with
          | some t => l ++ [t]
          | none => l) }
    else c
  let c := ((c.killTask p true).killTask (p + 1) true).recordError (atKey k) 0x03 1 0
  let now := c.time.uptime
  let again := match (c.sheetK p).errorUptime with
    | some t => decide (now < t + 86400 * 10 ^ 9)
    | none => false
  let c := c.updKey p (fun sh => { sh with errorUptime := some now, killing := false, acquired := none })
  let c := c.updKey (p + 1) (fun sh => { sh with killing := false, acquired := none })
  if again then c.retire p else c.outOfService p .scrubbing

/-- A corrected felt error (R73, R95): written back and counted; beyond 64 in a health window the sheet is retired at its
next task boundary (R339). -/
def Chip.feltCorrected (c : Chip) (k addr : Nat) : Chip :=
  let p := keyPrimary k
  let c := (c.sheetCount k F.SHEET_CNT.FELT_CE).setReg (sheetFaultAddr k) (BitVec.ofNat 64 (addr / 16 * 16))
  let c := c.softError (atKey k) 0x01 .correctedMemory
  let c := c.updKey p (fun sh => { sh with feltCeWindow := sh.feltCeWindow + 1 })
  if 64 < (c.sheetK p).feltCeWindow then c.updKey p (fun sh => { sh with retireAsked := true }) else c

/-- A residue mismatch cured by re-execution (R95). -/
def Chip.residueCured (c : Chip) (k : Nat) : Chip :=
  ((c.sheetCount k F.SHEET_CNT.RES_RETRY).softError (atKey k) 0x02 .residueRetry).perf (.sheet (keyAt k)) 0x10 1

/-- FELT_UNCORRECTABLE_ERROR (R95): a sheet in service finds an uncorrectable error of its own. -/
def feltUncorrectableError (s : SheetAt) (cause : SheetCause) (c : Chip) : Chip :=
  if (c.sheetK (keyPrimary (sheetKey s))).role = .active then c.sheetFails (sheetKey s) cause else c

/-- PATROL_SCRUB (R73): the scrubber reads the next ECC word; a pass that SCRUB_NOW started ends at the last word. -/
def patrolScrub (s : SheetAt) (found : FeltRead) (c : Chip) : Chip :=
  let k := keyPrimary (sheetKey s)
  let w := (c.sheetK k).patrolWord
  let c := c.updKey k (fun sh => { sh with patrolWord := (w + 1) % 24576 })
  let c := if w = 24575 then c.setFlag (sheetCtl k) F.SHEET_CTL.SCRUB_NOW false else c
  match found with
  | .clean => c
  | .corrected _ => c.feltCorrected k (16 * w)
  | .uncorrectable _ => if (c.sheetK k).role = .active then c.sheetFails k (.feltUncorrectable (16 * w)) else c

/-- SCRUB_NOW (R97): a SHEET_CTL write that sets it starts a patrol pass at the first word. -/
def scrubNow (r : Requester) (s : SheetAt) (c : Chip) : Chip :=
  let k := keyPrimary (sheetKey s)
  if ¬ mayReachBar0 r then c
  else if c.early r then c.noteEarly
  else (c.setLogged (c.origin r) (sheetCtl k) (fput (c.reg (sheetCtl k)) F.SHEET_CTL.SCRUB_NOW 1)).updKey k (fun sh => { sh with patrolWord := 0 })

/-- SHEET_RETIRE (R97): at a task boundary, where RETIRE is set or corrected errors ask for it (R339), the sheet is retired
and a spare mapped. -/
def sheetRetire (s : SheetAt) (c : Chip) : Chip :=
  let k := keyPrimary (sheetKey s)
  let sh := c.sheetK k
  if (c.flag (sheetCtl k) F.SHEET_CTL.RETIRE ∨ sh.retireAsked) ∧ sh.task.isNone ∧ (c.sheetK (k + 1)).task.isNone ∧ ¬ sh.killing ∧
      (sh.role = .active ∨ sh.role = .spare) then
    (c.updKey k (fun sh => { sh with retireAsked := false })).retire k
  else c

/-- A sheet under R96: every memory and register zero, tags and records cleared, a new incarnation, and its counters at
reset (R391). -/
def Chip.scrubSheet (c : Chip) (k : Nat) : Chip :=
  let sh := c.sheetK k
  let fresh := { sheetReset k with
    role := sh.role
    logical := sh.logical
    incarnation := sh.incarnation + 1
    errorUptime := sh.errorUptime }
  cntReset (c.setSheetK k fresh) (.sheet (keyAt k))

/-- SHEET_RETURN (R96): a sheet out of service is scrubbed, takes a new incarnation and runs its self-test. -/
def sheetReturn (s : SheetAt) (c : Chip) : Chip :=
  let k := keyPrimary (sheetKey s)
  if (c.sheetK k).role = .scrubbing then (c.scrubSheet k).setSheetK (k + 1) (sheetReset (k + 1)) else c

/-- Logical sheets come back from the sheets that host them. -/
def Chip.unhost (c : Chip) (q p : Nat) (ls : List Nat) : Chip :=
  (List.range 66).foldl (fun c j =>
    if j = p then c
    else
      let k := posKey q j
      let sh := c.sheetK k
      if sh.role = .active ∧ sh.logical.any (fun l => ls.contains l) then
        let c := if sh.logical[1]?.any (fun l => ls.contains l) then c.killTask (k + 1) true else c
        (c.updKey k (fun sh => { sh with logical := sh.logical.filter (fun l => !ls.contains l) })).updKey (k + 1) (fun sh => { sh with killing := false })
      else c) c

/-- SHEET_SELF_TEST_COMPLETE (R339): a sheet that passes becomes a spare, or returns to its own logical number where no
spare replaced it; one that fails is retired. A test that the monitor asked for (R378) ends the same way, with no error to repair. -/
def sheetSelfTestComplete (s : SheetAt) (pass : Bool) (c : Chip) : Chip :=
  let k := keyPrimary (sheetKey s)
  let q := keyQuire k
  let p := keyAtPos k
  let sh := c.sheetK k
  if sh.role ≠ .scrubbing then c
  else if c.selfTests.contains k then
    let c : Chip := { c with selfTests := c.selfTests.filter (· != k) }
    let c := (c.updKey k (fun sh => { sh with role := if sh.logical.isEmpty then .spare else .active })).quireCount q
    if pass then c.assign k else c.retire k
  else if ¬ pass then
    ((c.softError (atKey k) 0x04 .sheetRetired).updKey k (fun sh => { sh with role := .retired, logical := [] })).quireCount q
  else
    let (_, c) := c.charge .sheetKill 1
    if sh.logical.isEmpty then (c.updKey k (fun sh => { sh with role := .spare })).quireCount q
    else
      let c := c.unhost q p sh.logical
      ((c.updKey k (fun sh => { sh with role := .active })).quireCount q).assign k

/-- A quire returns to service (R342): its pool, walk slots and every sheet scrubbed, its counters at reset, a new
incarnation. -/
def Chip.quireReturns (c : Chip) (q : Nat) : Chip :=
  let c := (List.range 66).foldl (fun c p =>
    let k := posKey q p
    (c.scrubSheet k).setSheetK (k + 1) (sheetReset (k + 1))) c
  let c := c.updQuire q (fun x => { x with pool := [], poison := [], slots := [], joined := none, queues := [] })
  let c : Chip := { c with walks := tabDel c.walks q, walkWait := c.walkWait.filter (fun x => keyQuire x.1 != q) }
  let c := cntReset c (.quire ⟨Fin.ofNat 4 (q / 8), Fin.ofNat 8 (q % 8)⟩)
  let r := R.QUIRE_HEALTH q
  let c := (c.bump r F.QUIRE_HEALTH.INCARNATION 1).setFld r F.QUIRE_HEALTH.STATE 0
  let c : Chip := if q = c.radioHome (q / 8) then { c with poolReload := q / 8 :: c.poolReload.filter (· != q / 8) } else c
  c.assignQuire q

/-- QUIRE_TEST (R340): 10 minutes after its isolation a quire with 48 active sheets or more may be tested. -/
def quireTest (q : QuireAt) (c : Chip) : Chip :=
  let i := quireIx q.ream q.quire
  let x := c.quire i
  let aged : Bool := match x.isolations with
    | t :: _ => decide (t + 600 * 10 ^ 9 ≤ c.time.uptime)
    | [] => false
  if c.fld (R.QUIRE_HEALTH i) F.QUIRE_HEALTH.STATE = 1 ∧ ¬ x.isolatedForGood ∧ 48 ≤ c.activeSheets i ∧ aged then
    c.setFld (R.QUIRE_HEALTH i) F.QUIRE_HEALTH.STATE 3
  else c

/-- QUIRE_TEST_COMPLETE (R340): a quire that passes returns; another stays isolated. -/
def quireTestComplete (q : QuireAt) (pass : Bool) (c : Chip) : Chip :=
  let i := quireIx q.ream q.quire
  if c.fld (R.QUIRE_HEALTH i) F.QUIRE_HEALTH.STATE ≠ 3 then c
  else if pass then c.quireReturns i
  else c.setFld (R.QUIRE_HEALTH i) F.QUIRE_HEALTH.STATE 1

/-- A context holds state on a quire. -/
def Chip.quireHeld (c : Chip) (q : Nat) : Bool :=
  c.contexts.any (fun x => x.2.place != .couched && !(x.2.posIn q).isEmpty) || !(c.keysWhere (fun _ => true)).all (fun k => keyQuire k != q)

/-- A cell in a state that R201 counts has the ream as its home (R207). -/
def Chip.reamCovered (c : Chip) (ream : Nat) : Bool :=
  (List.range 1024).any (fun i =>
    let st := c.fld (R.CELL_STAT i) F.CELL_STAT.STATE
    c.fld (R.CELL_STAT i) F.CELL_STAT.HOME_REAM == ream && decide (1 ≤ st) && decide (st ≤ 4))

/-- QUIRE_SLEEP (R343): a quire in service that R207 does not cover and on which no context has state. -/
def quireSleep (q : QuireAt) (c : Chip) : Chip :=
  let i := quireIx q.ream q.quire
  if c.quireUp i ∧ ¬ c.quireHeld i ∧ ¬ c.reamCovered q.ream.val then c.setFld (R.QUIRE_HEALTH i) F.QUIRE_HEALTH.STATE 2 else c

/-- QUIRE_WAKE (R342, R343): a sleeping quire, or an isolated one that a test has passed, is scrubbed and returns with a new
incarnation. -/
def quireWake (q : QuireAt) (c : Chip) : Chip :=
  let i := quireIx q.ream q.quire
  if c.fld (R.QUIRE_HEALTH i) F.QUIRE_HEALTH.STATE = 2 then c.quireReturns i else c

end Sys2Proof.Machine
end

