-- ==== Sys2Proof/Machine/Fx.lean ====
section
/-! DEFINITION. Dataflow issue (R69, R70, R76, R79, R80): a sheet's program order, its issue window, and the commands of
the FX instructions, the scalar instructions and the sheet's own completions. -/

namespace Sys2Proof.Machine

/-! ### Counting (R385) -/

/-- What a sample of a sheet counter takes from its task. -/
def Sheet.cause (sh : Sheet) : CntCause :=
  match sh.task with
  | some t => ⟨sh.pc, t.ctx, some t.slot, some t.cls⟩
  | none => noCause

/-- An event of a sheet. -/
def Chip.perfSheet (c : Chip) (k code inc : Nat) : Chip := c.perf (.sheet (keyAt k)) code inc (c.sheetK k).cause

/-- An event of the quire of a sheet, caused by a task of a class. -/
def Chip.perfQuire (c : Chip) (q code inc : Nat) (cls : Option Nat) : Chip :=
  c.perf (.quire ⟨Fin.ofNat 4 (q / 8), Fin.ofNat 8 (q % 8)⟩) code inc { noCause with cls := cls }

/-! ### What an instruction takes from the chip -/

/-- FX.CNTRD may read counter n of a sheet for a slot (R390). -/
def Chip.cntReadable (c : Chip) (u : CounterUnit) (slot n : Nat) : Bool :=
  let cfg := c.reg (cntCfg u n)
  c.flag (R.DCK_CTL slot) F.DCK_CTL.CNT_RD && fget cfg F.SC_CFG.SLOT_EN != 0 && fget cfg F.SC_CFG.SLOT == slot

/-- Bytes of pool that a task's context has on a quire: its own, or for radio work the ream's radio region (R20, R134,
R204). -/
def Chip.poolOf (c : Chip) (t : Task) (k : Nat) : Nat :=
  match c.context t.ctx with
  | some x => x.poolBytes
  | none => c.radioMib (keyQuire k / 8) * 2 ^ 20

/-- The request limit of a sheet (R276). -/
def Chip.reqLimit (c : Chip) (ream : Nat) : Nat :=
  if (c.fld R.TIER_CFG F.TIER_CFG.INFLIGHT).testBit ream then 48 else 256

/-- The context of an instruction of a sheet's task. -/
def Chip.fxCtx (c : Chip) (k : Nat) (t : Task) (m : Command) : FxCtx :=
  let u : CounterUnit := .sheet (keyAt k)
  { seed := m.desc.seed
    cls := t.cls
    inLens := (List.range 8).map (fun i => (m.tensorRange i).2)
    outLens := (List.range 8).map (fun i => (m.tensorRange (8 + i)).2)
    outFmts := (List.range 8).map (fun i => ((m.tensors[8 + i]?).map (fun x => x.format)).getD 0)
    rslots := m.desc.rslots
    pool := c.poolOf t k
    aic := c.aic
    tick := c.tick
    rtValid := c.rtValid
    taiNs := c.taiNs
    cntOk := (List.range 8).map (fun n => c.cntReadable u t.slot n)
    counts := (List.range 8).map (fun n => c.fld (cntCount u n) F.SC_COUNT.VALUE)
    drained := !c.undrained t.ctx
    reqLimit := c.reqLimit (keyQuire k / 8)
    domain := c.domainChips
    routes := c.domainChips.filter c.routeValid
    rxqs := c.boundRxqs t.slot m.desc.job
    jobOk := c.jobOk m.desc.job t.slot }

/-! ### Scalar registers that an instruction reads (R78) -/

/-- SRC1 and SRC2 as scalar registers. -/
def src12 (o : FxOps) : List Nat := [o.src1.val, o.src2.val]

/-- The scalar registers that an FX instruction reads. -/
def fxScalars (i : Instr) : List Nat :=
  match i with
  | .feltForm _ _ o => src12 o
  | .fxVld _ o _ => [o.src1.val]
  | .fxVst _ o => [o.src1.val]
  | .fxVld2 _ o => src12 o
  | .fxVldx _ o => src12 o
  | .fxVstx _ o => src12 o
  | .fxVgath _ o => [o.src1.val]
  | .fxVscat _ o => [o.src1.val]
  | .fxTapld _ o => [o.src1.val]
  | .fxCbxupk _ o => src12 o
  | .fxCbxpk _ o => src12 o
  | .fxMma _ o _ => src12 o
  | .fxAccrd _ o => [o.src1.val]
  | .fxAccld _ o => [o.src1.val]
  | .fxAccmv _ o => src12 o
  | .fxDma _ o => [o.src1.val]
  | .fxPref _ o => [o.src1.val]
  | .fxWaitrdy _ o => src12 o
  | .fxMkrdy _ o => src12 o
  | .fxClrrdy _ o => src12 o
  | .fxWaitev _ o => [o.src1.val, o.src1.val + 1]
  | .fxStrec _ o => src12 o
  | .fxStred _ o => src12 o
  | .fxRtwait _ o => [o.src1.val]
  | .fxStmsg _ o => src12 o
  | _ => []

/-- The scalar registers whose values go with the instruction as `rs1` and `rs2`: for FX.WAITEV the second is the register
after the first (R88). -/
def fxOperands (i : Instr) : Nat × Nat :=
  match fxScalars i with
  | [a] => (a, 0)
  | [a, b] => (a, b)
  | _ => (0, 0)

/-! ### Legality before the window -/

/-- The trap that an FX instruction raises before it enters the window. `gr` and `gc` are the sheet's place in the grid of
R104. -/
def fxCheck (x : FxCtx) (gr gc : Nat) (e : FxEntry) : Option Nat :=
  match e.op with
  | .fxVadd _ o => vecCheck 0x00 false e o
  | .fxVsub _ o => vecCheck 0x01 false e o
  | .fxVmul _ o => vecCheck 0x02 false e o
  | .fxVfma _ o => vecCheck 0x03 false e o
  | .fxVmin _ o => vecCheck 0x04 false e o
  | .fxVmax _ o => vecCheck 0x05 false e o
  | .fxVcmplt _ o => vecCheck 0x06 false e o
  | .fxVcmpeq _ o => vecCheck 0x07 false e o
  | .fxVsel _ o => vecCheck 0x08 false e o
  | .fxVand _ o => vecCheck 0x09 false e o
  | .fxVor _ o => vecCheck 0x0A false e o
  | .fxVxor _ o => vecCheck 0x0B false e o
  | .fxVshl _ o => vecCheck 0x0C false e o
  | .fxVshra _ o => vecCheck 0x0D false e o
  | .fxVcvt _ o => vecCheck 0x0E false e o
  | .fxVrsum _ o => vecCheck 0x0F false e o
  | .fxVrmax _ o => vecCheck 0x10 false e o
  | .fxVperm _ o => vecCheck 0x11 false e o
  | .fxVfn _ o => vecCheck 0x12 false e o
  | .fxVcmul _ o => vecCheck 0x13 false e o
  | .fxVcmulc _ o => vecCheck 0x14 false e o
  | .fxVcmag _ o => vecCheck 0x15 false e o
  | .fxVscale _ o => vecCheck 0x16 false e o
  | .fxVmvxs _ o => vecCheck 0x17 false e o
  | .feltForm _ f o => vecCheck f.val true e o
  | .fxVld _ o _ => vldCheck e o
  | .fxVst _ o => vstCheck e o
  | .fxVld2 _ o => vld2Check e o
  | .fxVldx _ o => vldxCheck e o
  | .fxVstx _ o => vstxCheck e o
  | .fxVgath _ o => vgathCheck o
  | .fxVscat _ o => vgathCheck o
  | .fxTapld _ o => tapldCheck e o
  | .fxTapmv _ o => tapmvCheck e o
  | .fxDemap _ o => demapCheck e o
  | .fxCbxupk _ o => cbxCheck e o
  | .fxCbxpk _ o => cbxCheck e o
  | .fxMma _ o _ => mmaCheck e o gr gc
  | .fxAccrd _ o => accrdCheck e o
  | .fxAccld _ o => accldCheck e o
  | .fxAccz _ o => acczCheck o
  | .fxAccmv _ o => accmvCheck o
  | .fxDma _ o => dmaCheck e o
  | .fxPref _ o => dmaCheck e o
  | .fxTfence _ o => bareCheck o
  | .fxFence _ o => bareCheck o
  | .fxWaitrdy _ o => rdyCheck e o
  | .fxMkrdy _ o => rdyCheck e o
  | .fxClrrdy _ o => rdyCheck e o
  | .fxWaitev _ o => waitevCheck x e o
  | .fxStrec _ o => strecCheck x e o
  | .fxStred _ o => stredCheck x e o
  | .fxCommit _ o => bareCheck o
  | .fxRtwait _ o => rtwaitCheck x o
  | .fxRand _ o => randCheck o
  | .fxCntrd _ o => cntrdCheck x o
  | .fxStmsg _ o => stmsgCheck e o
  | _ => some trIllegal

/-! ### Hazards (R79) -/

/-- Vector registers as resources. -/
def vregs (l : List (Fin 32)) : List Res := l.map (fun r => Res.vreg r.val)

/-- The scale bytes of an MX format at an address. -/
def mxRange (fmt a : Nat) : List (Nat × Nat) := if fmtMx fmt then [(a, 2)] else []

/-- What an FX instruction of the window reads and writes. -/
def fxUses (gr gc : Nat) (e : FxEntry) : Uses :=
  let a := e.rs1.toNat
  let b := e.rs2.toNat
  match e.op with
  | .fxVadd _ o => vecUses 0x00 false e o
  | .fxVsub _ o => vecUses 0x01 false e o
  | .fxVmul _ o => vecUses 0x02 false e o
  | .fxVfma _ o => vecUses 0x03 false e o
  | .fxVmin _ o => vecUses 0x04 false e o
  | .fxVmax _ o => vecUses 0x05 false e o
  | .fxVcmplt _ o => vecUses 0x06 false e o
  | .fxVcmpeq _ o => vecUses 0x07 false e o
  | .fxVsel _ o => vecUses 0x08 false e o
  | .fxVand _ o => vecUses 0x09 false e o
  | .fxVor _ o => vecUses 0x0A false e o
  | .fxVxor _ o => vecUses 0x0B false e o
  | .fxVshl _ o => vecUses 0x0C false e o
  | .fxVshra _ o => vecUses 0x0D false e o
  | .fxVcvt _ o => vecUses 0x0E false e o
  | .fxVrsum _ o => vecUses 0x0F false e o
  | .fxVrmax _ o => vecUses 0x10 false e o
  | .fxVperm _ o => vecUses 0x11 false e o
  | .fxVfn _ o => vecUses 0x12 false e o
  | .fxVcmul _ o => vecUses 0x13 false e o
  | .fxVcmulc _ o => vecUses 0x14 false e o
  | .fxVcmag _ o => vecUses 0x15 false e o
  | .fxVscale _ o => vecUses 0x16 false e o
  | .fxVmvxs _ o => vecUses 0x17 false e o
  | .feltForm _ f o => vecUses f.val true e o
  | .fxVld _ o _ => usesOf [(a, 256)] [] [] (vregs [o.dst])
  | .fxVst _ o => usesOf [] (vregs [o.src2]) [(a, 256)] []
  | .fxVld2 _ o => usesOf [(a, 256), (b, 256)] [] [] [.vreg o.dst.val, .vreg (o.dst.val + 1)]
  | .fxVldx _ o => usesOf ((a, bytes64 e.csrs.fmtA) :: mxRange e.csrs.fmtA b) [] [] (vregs [o.dst])
  | .fxVstx _ o => usesOf [] (vregs [o.dst]) ((a, bytes64 e.csrs.fmtD) :: mxRange e.csrs.fmtD b) []
  | .fxVgath _ o => usesOf [] (.felt :: vregs [o.src2]) [] (vregs [o.dst])
  | .fxVscat _ o => usesOf [] (vregs [o.src2, o.dst]) [] [.felt]
  | .fxTapld _ o => usesOf [(a, 64)] [] [] [.tap (o.dst.val / 8)]
  | .fxTapmv _ o =>
    let t := tapCfg e.csrs.tapcfg
    usesOf [(e.csrs.tapptr.toNat, 4 * tapMove t)] (.tap t.bank :: vregs [o.src1, o.src2]) [] (vregs [o.dst, o.src1, o.src2])
  | .fxDemap _ o => usesOf [] (vregs [o.src1, o.src2]) [(demapPtr e.csrs, 64 * demapQm e.csrs)] []
  | .fxCbxupk _ o => usesOf [(a, 200)] [] [] (vregs [o.dst])
  | .fxCbxpk _ o => usesOf [] (vregs [o.dst]) [(a, 200)] []
  | .fxMma _ o _ => usesOf (mmaReads (mmaOpOf e.csrs o) e.csrs e.rs1 e.rs2 gr gc) [.bank (dstBank o)] [] [.bank (dstBank o)]
  | .fxAccrd _ o => usesOf [] [.bank (dstBank o)] [(a, bankBytes e.csrs.fmtD)] []
  | .fxAccld _ o => usesOf [(a, bankBytes e.csrs.fmtD)] [] [] [.bank (dstBank o)]
  | .fxAccz _ o => usesOf [] [] [] [.bank (dstBank o)]
  | .fxAccmv _ o => usesOf [] [.bank (accmvBank e)] [] (vregs [o.dst])
  | .fxDma _ _ => usesOf [(a, 16)] [.felt, .dma] [] [.felt, .records]
  | .fxPref _ _ => usesOf [(a, 16)] [.felt, .dma] [] [.felt]
  | .fxTfence _ _ => usesOf [] [] [] [.dma]
  | .fxFence _ _ => usesOf [] [] [] [.all]
  | .fxWaitrdy _ _ => usesOf [(a, b)] [] [] []
  | .fxMkrdy _ _ => usesOf [] [] [(a, b)] []
  | .fxClrrdy _ _ => usesOf [] [] [(a, b)] []
  | .fxWaitev _ o => usesOf [] [] [] [.xreg o.dst.val]
  | .fxStrec _ _ => usesOf [] [] [] [.records]
  | .fxStred _ _ => usesOf [] [] [] [.records]
  | .fxCommit _ _ => usesOf [] [] [] [.all]
  | .fxRtwait _ o => usesOf [] [] [] [.xreg o.dst.val]
  | .fxRand _ o => usesOf [] [] [] (vregs [o.dst])
  | .fxCntrd _ o => usesOf [] [] [] [.xreg o.dst.val, .latch]
  | .fxStmsg _ _ => usesOf [(a, 64)] [] [] [.records]
  | _ => ⟨[], [], []⟩

/-- An instruction only marks ready bits, so that outstanding fills of its lines do not hold it back. -/
def marksReady (i : Instr) : Bool :=
  match i with
  | .fxMkrdy _ _ => true
  | .fxClrrdy _ _ => true
  | _ => false

/-- An engine request that still reads felt when it is served (R221): its queries, statistics or rows. -/
def Sheet.readsLater (sh : Sheet) : Bool :=
  sh.dma.any (fun d => !d.served && [0x41, 0x42, 0x48, 0x49].contains d.kind)

/-- The felt that a joined instruction which waits for its quire still reads (R105). -/
def Sheet.joinedReads (sh : Sheet) (gr gc : Nat) : List Res :=
  match sh.joined with
  | none => []
  | some j => lineRes ((mmaReads j.op j.csrs j.a j.b gr gc).flatMap (fun x => linesOf x.1 x.2))

/-- Scalar registers that a wait will write (R88, R89). -/
def Sheet.waitReg (sh : Sheet) : Option Nat :=
  match sh.wait with
  | some (.message rd _) => some rd
  | some (.inputWord rd _ _) => some rd
  | some (.token rd _) => some rd
  | some (.radio rd _ _ _) => some rd
  | none => none

/-- The instruction belongs to the control unit, which a wait occupies. -/
def usesWait (i : Instr) : Bool :=
  match i with
  | .fxWaitev _ _ => true
  | .fxRtwait _ _ => true
  | _ => false

/-- What instructions that have left the window still hold. -/
def Sheet.held (sh : Sheet) (gr gc : Nat) : Uses :=
  ⟨[], sh.joinedReads gr gc ++ (if sh.readsLater then [.felt] else []),
    lineRes sh.outstanding ++ sh.bankBusy.map Res.bank ++ (match sh.waitReg with
      | some r => [Res.xreg r]
      | none => [])⟩

/-- The felt lines that an instruction whose addresses stand in a vector register reads, and those it writes. -/
def laneLines (sh : Sheet) (e : FxEntry) : List Nat × List Nat :=
  match e.op with
  | .fxVgath _ o => ((gatherAddrs sh e o).flatMap (fun a => linesOf a.toNat 4), [])
  | .fxVscat _ o => ([], (gatherAddrs sh e o).flatMap (fun a => linesOf a.toNat 4))
  | _ => ([], [])

/-- The wildcards of an instruction's uses against those still to come. -/
def Res.wild (r : Res) : Bool := r == .felt || r == .dma || r == .all || r == .records

/-- Its uses against what has left the window: lines in place of the wildcards. -/
def fxUsesNow (gr gc : Nat) (sh : Sheet) (e : FxEntry) : Uses :=
  let u := fxUses gr gc e
  let l := laneLines sh e
  ⟨u.ready ++ l.1, u.reads.filter (fun r => !r.wild) ++ lineRes l.1, u.writes.filter (fun r => !r.wild) ++ lineRes l.2⟩

/-- An entry may issue: no older instruction of the window stands in its way, its operands are ready, and nothing that has
left the window stands in its way. A ready-marking instruction is not held back by outstanding fills. -/
def Sheet.canIssue (sh : Sheet) (gr gc : Nat) (older : List FxEntry) (e : FxEntry) : Bool :=
  let u := fxUses gr gc e
  !older.any (fun d => (fxUses gr gc d).blocks u) &&
  (fxUsesNow gr gc sh e).ready.all sh.ready &&
  (marksReady e.op || !(sh.held gr gc).blocks (fxUsesNow gr gc sh e)) &&
  !(usesWait e.op && sh.wait.isSome) &&
  (match e.op with
   | .fxMma _ _ _ => sh.joined.isNone
   | _ => true)

/-! ### Execution -/

/-- What an issued instruction does to its sheet. `q` is the sheet's quire. -/
def Chip.fxRun (c : Chip) (q : Nat) (x : FxCtx) (sh : Sheet) (e : FxEntry) : FxOut :=
  match e.op with
  | .fxVadd _ o => runVadd false x sh e o
  | .fxVsub _ o => runVsub false x sh e o
  | .fxVmul _ o => runVmul false x sh e o
  | .fxVfma _ o => runVfma false x sh e o
  | .fxVmin _ o => runVmin false x sh e o
  | .fxVmax _ o => runVmax false x sh e o
  | .fxVcmplt _ o => runVcmplt false x sh e o
  | .fxVcmpeq _ o => runVcmpeq false x sh e o
  | .fxVsel _ o => runVsel false sh e o
  | .fxVand _ o => runVand false sh e o
  | .fxVor _ o => runVor false sh e o
  | .fxVxor _ o => runVxor false sh e o
  | .fxVshl _ o => runVshl false sh e o
  | .fxVshra _ o => runVshra false sh e o
  | .fxVcvt _ o => runVcvt false x sh e o
  | .fxVrsum _ o => runVrsum false x sh e o
  | .fxVrmax _ o => runVrmax false sh e o
  | .fxVperm _ o => runVperm sh o
  | .fxVfn _ o => runVfn x sh o
  | .fxVcmul _ o => runVcmul false x sh e o
  | .fxVcmulc _ o => runVcmulc false x sh e o
  | .fxVcmag _ o => runVcmag false x sh e o
  | .fxVscale _ o => runVscale false x sh e o
  | .fxVmvxs _ o => runVmvxs sh o
  | .feltForm _ f o => runFelt f.val x sh e o
  | .fxVld _ o found => runVld sh e o found
  | .fxVst _ o => runVst sh e o
  | .fxVld2 _ o => runVld2 sh e o
  | .fxVldx _ o => runVldx x sh e o
  | .fxVstx _ o => runVstx x sh e o
  | .fxVgath _ o => runVgath sh e o
  | .fxVscat _ o => runVscat sh e o
  | .fxTapld _ o => runTapld sh e o
  | .fxTapmv _ o => runTapmv x sh e o
  | .fxDemap _ o => runDemap x sh e o
  | .fxCbxupk _ o => runCbxupk x sh e o
  | .fxCbxpk _ o => runCbxpk x sh e o
  | .fxMma _ o residue => if residue.val = 2 then .repeated else runMma sh e o
  | .fxAccrd _ o => runAccrd x sh e o
  | .fxAccld _ o => runAccld sh e o
  | .fxAccz _ o => runAccz sh o
  | .fxAccmv _ o => runAccmv sh e o
  | .fxDma _ _ => c.dmaIssue q false x sh e
  | .fxPref _ _ => c.dmaIssue q true x sh e
  | .fxTfence _ _ => runTfence x sh
  | .fxFence _ _ => runFence sh
  | .fxWaitrdy _ _ => runWaitrdy sh
  | .fxMkrdy _ _ => runMkrdy sh e
  | .fxClrrdy _ _ => runClrrdy sh e
  | .fxWaitev _ o => runWaitev sh e o
  | .fxStrec _ o => runStrec sh e o
  | .fxStred _ o => runStred sh e o
  | .fxCommit _ _ => runCommit sh
  | .fxRtwait _ o => runRtwait x sh e o
  | .fxRand _ o => runRand x sh e o
  | .fxCntrd _ o => runCntrd x sh o
  | .fxStmsg _ _ => runStmsg x sh e
  | _ => .trap trIllegal

/-- Products formed on enabled outputs, in units of 64 (R385, sheet event 0x05). -/
def mmaProducts (op : MmaOp) : Nat := ((List.range 16).filter (fun i => op.mask.testBit i)).length * op.steps

/-- Generator evaluations of an instruction (R60, R78, R85). -/
def genEvals (e : FxEntry) : Nat :=
  match e.op with
  | .fxRand _ _ => 64
  | .fxVrsum _ o => if e.csrs.mode o.rm.val = 4 then 1 else 0
  | .fxAccrd _ o => if e.csrs.mode o.rm.val = 4 then 256 else 0
  | .fxVadd _ o | .fxVsub _ o | .fxVmul _ o | .fxVfma _ o | .fxVcvt _ o | .fxVcmul _ o | .fxVcmulc _ o | .fxVscale _ o
  | .feltForm _ _ o | .fxVldx _ o | .fxVstx _ o | .fxTapmv _ o | .fxDemap _ o | .fxCbxupk _ o | .fxCbxpk _ o =>
    if e.csrs.mode o.rm.val = 4 then 64 else 0
  | _ => 0

/-- Bytes that a transfer asks for (R385, sheet event 0x0A). -/
def DmaReq.asked (d : DmaReq) : Nat :=
  if d.kind ≤ 0x03 ∧ d.kind ≠ 0x02 then d.parts.foldl (fun n p => n + p.2.2) 0 else 0

/-- What an issued instruction counts beside its effect (R95, R385). -/
def Chip.fxCount (c : Chip) (k : Nat) (before : Nat) (e : FxEntry) : Chip :=
  let c := c.perfSheet k 0x03 1
  let c := c.perfSheet k 0x0D (genEvals e)
  let c := match e.op with
    | .fxMma _ o _ => c.perfSheet k 0x05 (mmaProducts (mmaOpOf e.csrs o))
    | .fxDma _ _ | .fxPref _ _ => c.perfSheet k 0x0A (((c.sheetK k).dma.drop before).foldl (fun n d => n + d.asked) 0)
    | _ => c
  match e.op with
  | .fxVld _ _ (.corrected a) => c.feltCorrected k a
  | .fxMma _ _ residue => if residue.val = 1 then c.residueCured k else c
  | _ => c

/-- The sheet's place in the grid of R104: its row. -/
def gridRow (t : Task) : Nat := t.logical % 64 / 8
/-- The sheet's place in the grid of R104: its column. -/
def gridCol (t : Task) : Nat := t.logical % 8

/-- The oldest entry of the window that can issue runs (R79); `older` are the entries it has passed. None when none can. -/
def Chip.fxIssue (c : Chip) (k : Nat) (x : FxCtx) (t : Task) (sh : Sheet) : List FxEntry → List FxEntry → Option Chip
  | _, [] => none
  | older, e :: rest =>
    if sh.canIssue (gridRow t) (gridCol t) older e then
      match c.fxRun (keyQuire k) x sh e with
      | .wait _ => c.fxIssue k x t sh (older ++ [e]) rest
      | .ok sh' =>
        let c := c.setSheetK k { sh' with window := older ++ rest }
        let c : Chip := { c with nextIssue := c.nextIssue + (sh'.dma.length - sh.dma.length) }
        some (c.fxCount k sh.dma.length e)
      | .trap cause => some ((c.updKey k (fun sh => { sh with pc := e.pc })).trap k cause)
      | .uncorrectable a => some (c.sheetFails k (.feltUncorrectable a))
      | .repeated => some (c.sheetFails k .repeatedResidue)
    else c.fxIssue k x t sh (older ++ [e]) rest

/-! ### Program order (R70, R76, R79) -/

/-- A scalar register is still to be written by an older instruction. -/
def Sheet.xPending (sh : Sheet) (gr gc r : Nat) : Bool :=
  r != 0 && (sh.waitReg == some r || sh.window.any (fun e => (fxUses gr gc e).writes.contains (.xreg r)))

/-- The scalar core waits at an ordering point of R70, for a scalar register, or for FX_FLAGS. -/
def Sheet.scalarWaits (sh : Sheet) (gr gc w : Nat) : Bool :=
  let uses := sh.window.map (fxUses gr gc)
  [rvRd w, rvRs1 w, rvRs2 w].any (fun r => sh.xPending gr gc r) ||
  (w % 128 == 0x73 && w / 2 ^ 20 == 0x801 && !sh.window.isEmpty) ||
  (match rvAccess sh w with
   | none => false
   | some (a, _, store) =>
     let line := a.toNat / 256
     let hit := fun (l : List Res) => l.any (fun r => r.clash (.line line))
     if store then uses.any (fun u => hit u.reads || hit u.writes) || sh.outstanding.contains line
     else !sh.ready line || uses.any (fun u => hit u.writes))

/-- The head of the program order enters the window, or executes on the control core; none while it must wait. -/
def Chip.fxDispatch (c : Chip) (k : Nat) (x : FxCtx) (t : Task) (sh : Sheet) : Option Chip :=
  let gr := gridRow t
  let gc := gridCol t
  match sh.stalled with
  | [] => none
  | .scalarInstruction _ word :: rest =>
    match rvWord word with
    | none => some (c.trap k trIllegal)
    | some (w, len) =>
      if fxOpcode w then
        match fxDecode (keyAt k) w with
        | none => some (c.trap k trIllegal)
        | some i => some (c.setSheetK k { sh with stalled := i :: rest })
      else if sh.scalarWaits gr gc w then none
      else match rvExec x sh w len with
        | .ok sh' => some ((c.setSheetK k { sh' with stalled := rest }).perfSheet k 0x02 1)
        | .trap cause => some (c.trap k cause)
        | _ => none
  | .csrWrite _ csr v :: rest =>
    if csr = 0x801 ∧ ¬ sh.window.isEmpty then none
    else match sh.csrs.write csr.toNat v with
      | none => some (c.trap k trIllegal)
      | some ks => some ((c.setSheetK k { sh with csrs := ks, stalled := rest, pc := sh.pc + 4 }).perfSheet k 0x02 1)
  | i :: rest =>
    if 16 ≤ sh.window.length ∨ (fxScalars i).any (fun r => sh.xPending gr gc r) then none
    else
      let o := fxOperands i
      let e : FxEntry := { op := i, rs1 := sh.x o.1, rs2 := sh.x o.2, csrs := sh.csrs, pc := sh.pc }
      match fxCheck x gr gc e with
      | some cause => some (c.trap k cause)
      | none => some (c.setSheetK k { sh with window := sh.window ++ [e], stalled := rest, pc := sh.pc + 4, csrs := csrsAfter i sh.csrs })

/-- One move of a sheet: the next instruction in program order, else the oldest that can issue. -/
def Chip.fxMove (c : Chip) (k : Nat) : Option Chip :=
  let sh := c.sheetK k
  match sh.task with
  | none => none
  | some t =>
    match c.command t.cmd with
    | none => none
    | some m =>
      let x := c.fxCtx k t m
      match c.fxDispatch k x t sh with
      | some c => some c
      | none => c.fxIssue k x t sh [] sh.window

/-- A sheet moves until nothing on it can. -/
def Chip.fxRunOn (c : Chip) (k : Nat) : Nat → Chip
  | 0 => c
  | n + 1 =>
    match c.fxMove k with
    | none => c
    | some c => c.fxRunOn k n

/-- Every instruction that a sheet holds gets its chance. -/
def Chip.pump (c : Chip) (k : Nat) : Chip :=
  let sh := c.sheetK k
  c.fxRunOn k (3 * sh.stalled.length + sh.window.length)

/-- An instruction of the program of a sheet's task follows those before it. -/
def Chip.submit (c : Chip) (s : SheetAt) (i : Instr) : Chip :=
  let k := sheetKey s
  let sh := c.sheetK k
  if sh.task.isNone then c else (c.setSheetK k { sh with stalled := sh.stalled ++ [i] }).pump k

end Sys2Proof.Machine
end

