-- ==== Sys2Proof/Machine/Commit.lean ====
section
/-! DEFINITION. What ends an instruction or a task on a sheet (R64, R88 to R93, R105, R109, R320, R430): waits, matrix
drains, joined steps, commits and their drains, split reductions, kill requests and the sheet's release. -/

namespace Sys2Proof.Machine

/-! ### Completion tokens (R120) -/

/-- The key of a token's entry: a tenant's table, or the radio token table that class 0 commands of events use. -/
def tokenKey (slot token : Nat) : Nat := slot * 4096 + token % 4096

/-- The table of the radio tokens. -/
def radioTokens : Nat := 64

/-- A token is complete (R120): its entry holds it and is marked done, or holds another value. -/
def Chip.tokenDone (c : Chip) (table token : Nat) : Bool :=
  match tabGet c.tokens (tokenKey table token) with
  | some (t, done) => t != token || done
  | none => true

/-- The token table that a command uses. -/
def Command.tokenTable (k : Command) : Nat :=
  match k.source with
  | .sq _ _ _ _ => k.slot
  | .event _ => radioTokens

/-! ### Waits (R88, R89) -/

/-- The event that a task's FX.WAITEV awaits has occurred. -/
def Chip.waitMet (c : Chip) (t : Task) (w : WaitFor) : Bool :=
  match w with
  | .message _ q =>
    (match c.rxq q with
     | some x => x.head != x.tail
     | none => false)
  | .inputWord _ slot i =>
    let r := c.cmdRange t.cmd slot
    c.treadNat t.slot (r.1 + 4 * i) 4 != 0
  | .token _ tok =>
    (match c.command t.cmd with
     | some m => c.tokenDone m.tokenTable tok.toNat
     | none => false)
  | .radio _ _ _ _ => false

/-- WAITEV_COMPLETE (R88): rd takes 0. -/
def waitevComplete (s : SheetAt) (c : Chip) : Chip :=
  let k := sheetKey s
  let sh := c.sheetK k
  match sh.task, sh.wait, sh.waitReg with
  | some t, some w, some rd =>
    if c.waitMet t w then (c.setSheetK k ({ sh with wait := none }.setX rd 0)).pump k else c
  | _, _, _ => c

/-- RTWAIT_COMPLETE (R89): the instant is reached; or radio time has become valid again and the rules apply afresh. -/
def rtwaitComplete (s : SheetAt) (c : Chip) : Chip :=
  let k := sheetKey s
  let sh := c.sheetK k
  match sh.wait with
  | some (.radio rd frame tick due) =>
    let done := fun (v : Nat) => (c.setSheetK k ({ sh with wait := none }.setX rd (BitVec.ofNat 32 v))).pump k
    if ¬ c.rtValid then c
    else match due with
      | some d => if d ≤ c.tick then done 0 else c
      | none =>
        match rtJudge c.tick frame tick with
        | some v => done v
        | none => c.setSheetK k { sh with wait := some (.radio rd frame tick (some (rtNext c.tick frame tick))) }
  | _ => c

/-- Radio time stopped being valid: waits for instants apply the rules of R89 again once it is valid. -/
def Chip.voidRtwaits (c : Chip) : Chip :=
  let void := fun (sh : Sheet) =>
    match sh.wait with
    | some (.radio rd frame tick _) => { sh with wait := some (.radio rd frame tick none) }
    | _ => sh
  { c with sheets := c.sheets.map (fun x => (x.1, void x.2)) }

/-! ### Matrix drains (R109) -/

/-- MATRIX_DRAIN_COMPLETE (R80, R109): the bank, or the felt lines, of a finished matrix instruction become ready. A joined
instruction's bank drains only after its last step. -/
def matrixDrainComplete (s : SheetAt) (target : DrainTarget) (c : Chip) : Chip :=
  let k := sheetKey s
  let sh := c.sheetK k
  match target with
  | .bank b =>
    let busy := (sh.joined.map (fun j => j.bank == b.val)).getD false
    if busy then c else (c.setSheetK k { sh with bankBusy := sh.bankBusy.filter (· != b.val) }).pump k
  | .lines first count =>
    let ls := (List.range count).map (· + first)
    let done := sh.draining.filter (fun l => ls.contains l)
    (c.setSheetK k ({ sh with draining := sh.draining.filter (fun l => !ls.contains l) }.mkReady done)).pump k

/-! ### Joined steps (R104, R105) -/

/-- The sheets of the joined group on a quire, by logical sheet, each with the joined instruction it has issued; none while
the group is not whole or one of them has issued none. -/
def Chip.joinedGroup (c : Chip) (q : Nat) : Option (List (Nat × Sheet × JoinedIssue)) :=
  let l := (List.range 64).filterMap (fun l =>
    match c.sheetOf q l with
    | none => none
    | some k =>
      let sh := c.sheetK k
      match sh.joined, sh.task with
      | some j, some _ => some (k, sh, j)
      | _, _ => none)
  let group := fun (x : Nat × Sheet × JoinedIssue) => x.2.1.task.map (fun t => (t.cmd, t.index / 64))
  match l with
  | [] => none
  | x :: _ => if l.length = 64 ∧ l.all (fun y => group y == group x) then some l else none

/-- One step of the group's joined instruction on the sheet at position n of the list (R104): the bank before its first group
is cleared where CLR asks for it. -/
def joinedShare (l : List (Nat × Sheet × JoinedIssue)) (g n : Nat) (x : Nat × Sheet × JoinedIssue) : Sheet :=
  let sh := x.2.1
  let j := x.2.2
  match mmaKind j.op.fmtA j.op.fmtB with
  | none => sh
  | some kind =>
    let vals := (sh.bank j.bank).vals
    let start := if g = 0 then mmaStart j.op vals else vals
    let (vals, f) := joinedStep (l.map (fun y => (y.2.1, y.2.2))) kind (n / 8) (n % 8) g (start, 0)
    (sh.setBank j.bank ⟨kind, vals⟩).raise f

/-- JOINED_STEP_FIRE (R105): with every sheet's n-th joined instruction issued and agreeing, and the tiles of the step ready,
every sheet takes its share; the last step ends the instruction. A second mismatch of an operand tile on one step is an
operand network failure (R338, code 0x05). -/
def joinedStepFire (q : QuireAt) (mismatches : Fin 3) (c : Chip) : Chip :=
  let i := quireIx q.ream q.quire
  match c.joinedGroup i with
  | none => c
  | some l =>
    match l with
    | [] => c
    | (k0, sh0, j0) :: _ =>
      match sh0.task with
      | none => c
      | some t =>
        if ¬ l.all (fun x => x.2.2.agrees j0) then c.trap k0 trIllegal
        else
          let g := match (c.quire i).joined with
            | some r => if r.cmd = t.cmd ∧ r.group = t.index / 64 then r.step else 0
            | none => 0
          if ¬ joinedReady (l.map (fun y => (y.2.1, y.2.2))) g then c
          else if mismatches.val = 2 then c.isolateQuire i
          else
            let last := decide (j0.op.steps ≤ g + 1)
            let news := l.zipIdx.map (fun y => (y.1.1, joinedShare l g y.2 y.1))
            let c := news.foldl (fun c x => c.setSheetK x.1 (if last then { x.2 with joined := none } else x.2)) c
            let c := c.updQuire i (fun x => { x with joined := if last then none else some ⟨t.cmd, t.index / 64, g + 1⟩ })
            let c := c.perfQuire i 0x04 1 (some t.cls)
            if last then l.foldl (fun c x => c.pump x.1) c else c

/-! ### Commit (R90, R91) -/

/-- A commit record with its stager bytes. -/
def CommitRec.filled (sh : Sheet) (r : CommitRec) : CommitRec :=
  { r with data := (List.range r.length).map (fun i => sh.rd (r.offset + i)) }

/-- Put a task's deferred requests behind those of lower tasks (R222). -/
def mergeDeferred (ds : List Deferred) (task : Nat) (new : List Deferred) : List Deferred :=
  ds.takeWhile (fun d => decide (d.task ≤ task)) ++ new ++ ds.dropWhile (fun d => decide (d.task ≤ task))

/-- COMMIT_BEGIN (R91): every older instruction has completed and the sheet's commit slot is free. The records and their
stager bytes go to the slot, the flags to the command, and the commit record is written: the sheet is free, and after a class 0 task joined
groups may be placed again on its quire (R106). A second commit of a task is discarded and counted. -/
def commitBegin (s : SheetAt) (c : Chip) : Chip :=
  let k := sheetKey s
  let sh := c.sheetK k
  match sh.task, sh.window with
  | some t, [e] =>
    (match e.op, c.command t.cmd with
     | .fxCommit _ _, some m =>
       if ¬ sh.quiet ∨ sh.commitSlot then c
       else
         let q := keyQuire k
         let again := m.committed.contains t.index
         let c := (c.perfSheet k 0x0E 1).freeWalks k
         let c := if again then
             (c.updQuire q (fun x => { x with dupCommits := x.dupCommits + 1 })).setSheetK k sh.finish
           else
             let records := sh.records.map (fun r => r.filled sh)
             let bytes := records.foldl (fun n r => n + r.length) 0
             let slot : CommitSlot := { task := t, sheet := k, records := records, flags := sh.csrs.flags.toNat % 32, deferred := sh.deferred }
             let c := (c.updQuire q (fun x => { x with slots := x.slots ++ [slot] })).setSheetK k { sh.finish with commitSlot := true }
             let c := c.updCommand t.cmd (fun m =>
               { m with committed := m.committed ++ [t.index], flags := m.flags ||| slot.flags,
                        deferred := mergeDeferred m.deferred t.index slot.deferred })
             c.perfQuire q 0x07 bytes (some t.cls)
         if t.cls = 0 then (c.assign k).assignQuire q else c.assign k
     | _, _ => c)
  | _, _ => c

/-! ### Drain (R64, R90, R91, R320) -/

/-- The fabric record of a message record (R320); its payload is read from the input slot that SRC_SLOT names. -/
def Chip.fabRecOf (c : Chip) (t : Task) (m : Command) (r : CommitRec) (uid : Nat) : FabRec :=
  let ws := r.words
  let src := wordAt64 ws 6
  let fromSlot := wordAt ws 1 / 2 ^ 24 % 2 == 1
  { uid := uid
    cmd := t.cmd
    task := t.index
    slot := t.slot
    job := m.desc.job
    token := m.desc.token
    op := wordAt ws 0 % 256
    cls := wordAt ws 0 / 2 ^ 8 % 256
    dest := wordAt ws 0 / 2 ^ 16
    target := wordAt ws 1 % 2 ^ 16
    aop := wordAt ws 1 / 2 ^ 16 % 256
    resEn := wordAt ws 1 / 2 ^ 25 % 2 == 1
    offset := wordAt64 ws 2
    key := wordAt ws 4
    op0 := BitVec.ofNat 64 (wordAt64 ws 8)
    op1 := BitVec.ofNat 64 (wordAt64 ws 10)
    resSlot := wordAt64 ws 12 / 2 ^ 60
    resOff := wordAt64 ws 12 % 2 ^ 48
    data := if fromSlot then c.treadN t.slot ((c.cmdRange t.cmd (src / 2 ^ 60)).1 + src % 2 ^ 48) (wordAt ws 5) else r.data
    gone := 0
    state := .queued
    since := c.time.uptime
    notReady := 0 }

/-- One record drains: a store to its output tensor, a partial held for its reduction, a fabric record to the ream's send
engine. The near-memory FP32 add marks the command (R66). -/
def Chip.drainRecord (c : Chip) (ream : Nat) (t : Task) (m : Command) (r : CommitRec) : Chip :=
  match r.kind with
  | .store =>
    let base := (m.tensorRange (8 + r.outSlot)).1
    c.twrite t.slot (base + r.dest) r.data
  | .reduction =>
    let p : Partial := { outSlot := r.outSlot, dest := r.dest, rslot := r.rslot, rm := r.rm, s := r.s, draw := r.draw, data := r.data }
    c.updCommand t.cmd (fun m => { m with partials := m.partials ++ [p] })
  | .message =>
    let f := c.fabRecOf t m r c.nextRec
    let c := c.setEngine ream (c.engine ream ++ [f])
    let c := { c with nextRec := c.nextRec + 1 }
    c.updCommand t.cmd (fun m => { m with fabricOpen := m.fabricOpen + 1, nonrepro := m.nonrepro || (f.op == 2 && f.aop == 4) })

/-- COMMIT_DRAIN_COMPLETE (R91): the sheet's committed slot drains in record order and is freed. Fabric records wait for room
in the send engine, which holds 1,024. Sheets of the context whose FX.TFENCE waits for the drain go on (R282). -/
def commitDrainComplete (s : SheetAt) (c : Chip) : Chip :=
  let k := sheetKey s
  let q := keyQuire k
  match (c.quire q).slots.find? (fun x => x.sheet == k) with
  | none => c
  | some x =>
    match c.command x.task.cmd with
    | none => c.updQuire q (fun y => { y with slots := y.slots.filter (fun z => z.sheet != k) })
    | some m =>
      let messages := (x.records.filter (fun r => r.kind == .message)).length
      if messages ≠ 0 ∧ 1024 < (c.engine (q / 8)).length + messages then c
      else
        let c := x.records.foldl (fun c r => c.drainRecord (q / 8) x.task m r) c
        let c := c.updQuire q (fun y => { y with slots := y.slots.filter (fun z => z.sheet != k) })
        let c := c.updKey k (fun sh => { sh with commitSlot := false })
        let c := c.updCommand x.task.cmd (fun m => { m with drained := m.drained + 1 })
        let c := c.perfQuire q 0x06 (x.records.foldl (fun n r => n + r.length) 0) (some x.task.cls)
        (c.keysWhere (fun t => t.ctx == x.task.ctx)).foldl (fun c j => c.pump j) c

/-! ### Split reductions (R64, R430) -/

/-- The destinations of a command's partials, each once. -/
def destinations (ps : List Partial) : List (Nat × Nat) := (ps.map (fun p => (p.outSlot, p.dest))).eraseDups

/-- The elements that a partial's bytes hold. -/
def partialWords (fmt : Nat) (data : List Byte) : List Nat :=
  let w := if (fmtComplex fmt).isSome then 8 else 4
  (List.range (data.length / w)).map (fun i => natLE ((data.drop (w * i)).take w))

/-- Bytes that a destination takes in its output slot. -/
def destSpan (fmt : Nat) (p : Partial) : Nat := destBytes fmt (partialElems fmt p.data.length)

/-- Combine column e of the partials: an FP32 word with flags, or exact sums of the parts. -/
def combineFp (cols : List Nat) : Nat × Nat :=
  match treeFold treeAdd 12 (cols.map (fun w => (w, 0))) with
  | x :: _ => x
  | [] => (0, 0)

/-- The result element of a column in its format, with its flags (R430). `r` is its rounding. -/
def reduceElem (fmt : Nat) (s : Bool) (r : LaneRnd) (cols : List Nat) : Nat × Nat :=
  match fmtComplex fmt with
  | some b =>
    let sum := fun (sh : Nat) => cols.foldl (fun (a : Int) w => a + signed 32 (w / 2 ^ sh)) 0
    let (i, f) := fitInt b s (sum 0)
    let (q, g) := fitInt b s (sum 32)
    (i + q * 2 ^ b, f ||| g)
  | none =>
    match fmtInt fmt with
    | some b => fitInt b s (cols.foldl (fun (a : Int) w => a + signed 32 w) 0)
    | none =>
      let (w, f) := combineFp cols
      let (x, g) := convertOut fmt r.i .fp32 w
      (x, f ||| g)

/-- The columns of the partials in slot order. -/
def columns (fmt : Nat) (ps : List Partial) : List (List Nat) :=
  let rows := ps.map (fun p => partialWords fmt p.data)
  match rows with
  | [] => []
  | r :: _ => (List.range r.length).map (fun e => rows.map (fun x => nth x e 0))

/-- The partials of a destination in slot order, or in order of arrival where UNORDERED_REDUCE allows it (R66). -/
def orderPartials (unordered : Bool) (rslots : Nat) (ps : List Partial) : List Partial :=
  if unordered then ps else (List.range rslots).filterMap (fun i => ps.find? (fun p => p.rslot == i))

/-- A destination that R430 refuses. -/
def destBad (rslots fmt outSlot dest : Nat) (ps : List Partial) (all : List Partial) (fmtOf : Nat → Nat) : Bool :=
  let len := (ps.map (fun p => p.data.length)).headD 0
  let span := destBytes fmt (partialElems fmt len)
  let dup := ps.any (fun p => 1 < (ps.filter (fun p' => p'.rslot == p.rslot)).length)
  let missing := (List.range rslots).any (fun i => !ps.any (fun p => p.rslot == i))
  let overlap := all.any (fun p => p.outSlot == outSlot && p.dest != dest &&
    decide (p.dest < dest + span) && decide (dest < p.dest + destSpan (fmtOf p.outSlot) p))
  let block := 32 * fmtBits fmt / 8
  dup || missing || ps.any (fun p => p.data.length != len) || overlap ||
  ((fmtFp fmt).isNone && (fmtInt fmt).isNone && (fmtComplex fmt).isNone && !fmtMx fmt) || fmt == 0x12 ||
  (fmtMx fmt && (outSlot == 7 || dest % block != 0 || span % block != 0))

/-- The rounding of element e of a destination (R64, R85). -/
def reduceRnd (seed : W64) (shared : Bool) (p0 : Partial) (e : Nat) : LaneRnd :=
  let d : DrawCtx := ⟨seed, p0.draw.1, p0.draw.2.2, shared⟩
  let ix := p0.draw.2.1 + BitVec.ofNat 64 e
  if p0.rm = 4 then ⟨⟨4, p0.s, roundWord d ix false⟩, ⟨4, p0.s, roundWord d ix true⟩⟩ else ⟨⟨p0.rm, p0.s, 0⟩, ⟨p0.rm, p0.s, 0⟩⟩

/-- Write one good destination; MX blocks put their scales in the next output slot. -/
def Chip.reduceDest (c : Chip) (m : Command) (shared : Bool) (outSlot dest : Nat) (ps : List Partial) : Chip :=
  let fmt := ((m.tensors[8 + outSlot]?).map (fun x => x.format)).getD 0
  let p0 := (ps.find? (fun p => p.rslot == 0)).getD ⟨0, 0, 0, 0, false, (0, 0, 0), []⟩
  let ordered := orderPartials (m.desc.flags.testBit 1) m.desc.rslots ps
  let cols := columns fmt ordered
  let base := (m.tensorRange (8 + outSlot)).1 + dest
  let flag := fun (c : Chip) (f : Nat) => c.updCommand m.uid (fun m => { m with flags := m.flags ||| f })
  if fmtMx fmt then
    let sums := cols.map combineFp
    let blocks := (List.range (sums.length / 32)).map (fun b =>
      let part := (sums.drop (32 * b)).take 32
      mxBlock fmt (fun i => (reduceRnd m.desc.seed shared p0 (32 * b + i)).i) (part.map (fun x => f32 (BitVec.ofNat 32 x.1))))
    let c := c.twrite m.slot base (packElems (fmtBits fmt) (blocks.flatMap (fun b => b.2.1)))
    let scales := (m.tensorRange (9 + outSlot)).1 + dest / (32 * fmtBits fmt / 8)
    let c := c.twrite m.slot scales (blocks.map (fun b => BitVec.ofNat 8 b.1))
    flag c (sums.foldl (fun (f : Nat) x => f ||| x.2) (blocks.foldl (fun (f : Nat) b => f ||| b.2.2) 0))
  else
    let es := cols.zipIdx.map (fun x => reduceElem fmt p0.s (reduceRnd m.desc.seed shared p0 x.2) x.1)
    let c := c.twrite m.slot base (packElems (fmtBits fmt) (es.map (·.1)))
    flag c (es.foldl (fun (f : Nat) x => f ||| x.2) 0)

/-- SPLIT_REDUCTION_COMBINE (R64, R430): with every task committed and drained, each destination's partials are combined and
converted; one that R430 refuses is not written, and the command ends with PROGRAM_FAULT. -/
def splitReductionCombine (uid : Nat) (c : Chip) : Chip :=
  match c.command uid with
  | none => c
  | some m =>
    if m.partials.isEmpty ∨ m.ending.isSome ∨ m.committed.length ≠ m.desc.tasks ∨ m.drained ≠ m.desc.tasks then c
    else
      let fmtOf := fun (i : Nat) => ((m.tensors[8 + i]?).map (fun x => x.format)).getD 0
      let shared := match tabGet c.programs m.desc.program with
        | some p => p.shared
        | none => false
      let ds := (destinations m.partials).map (fun d => (d, m.partials.filter (fun p => p.outSlot == d.1 && p.dest == d.2)))
      let bad := fun (d : (Nat × Nat) × List Partial) => destBad m.desc.rslots (fmtOf d.1.1) d.1.1 d.1.2 d.2 m.partials fmtOf
      let c := (ds.filter (fun d => !bad d)).foldl (fun c d => c.reduceDest m shared d.1.1 d.1.2 d.2) c
      let c := c.updCommand uid (fun m => { m with partials := [], nonrepro := m.nonrepro || m.desc.flags.testBit 1 })
      if ds.any bad then c.endCommand uid ⟨0x13, 3, 0⟩ else c

/-! ### Kill and release (R92, R93) -/

/-- KILL_REQUEST (R92, R107, R132): a task that has not begun its commit is killed and re-queued; class 0 tasks are not killed
for radio demand. -/
def killRequest (s : SheetAt) (c : Chip) : Chip :=
  let k := sheetKey s
  match (c.sheetK k).task with
  | some t => if t.cls = 0 then c else c.killTask k true
  | none => c

/-- The longest time a class 0 task waited for a sheet is kept in ACQ_STAT (R220); beyond the bound STICKY_OVER. -/
def Chip.acquiredAfter (c : Chip) (ream since : Nat) : Chip :=
  let ns := c.time.uptime - since
  let r := R.ACQ_STAT ream
  let c := if c.fld r F.ACQ_STAT.ACQ_MAX_NS < ns then c.setFld r F.ACQ_STAT.ACQ_MAX_NS (min ns (fmax F.ACQ_STAT.ACQ_MAX_NS)) else c
  if 2000 < ns then c.mark r F.ACQ_STAT.STICKY_OVER else c

/-- SHEET_RELEASE_COMPLETE (R92): the sheet reports itself free and takes its next task, a class 0 task first (R129); so does every free
sheet of its quire. -/
def sheetReleaseComplete (s : SheetAt) (c : Chip) : Chip :=
  let k := sheetKey s
  let sh := c.sheetK k
  if ¬ sh.killing then c
  else
    let c := match sh.acquired with
      | some since => c.acquiredAfter (keyQuire k / 8) since
      | none => c
    ((c.setSheetK k { sh with killing := false, acquired := none }).assign k).assignQuire (keyQuire k)

end Sys2Proof.Machine
end

