-- ==== Sys2Proof/Machine/Mirror.lean ====
section
/-! DEFINITION. Buddy mirroring (R347 to R350): closed steps, the copy of REGION entries, the commands that a step holds, and the mirror
table's writes. -/

namespace Sys2Proof.Machine

/-! ### Closed steps (R348) -/

/-- The step that a command counts for: at least one past the highest closed step. -/
def Chip.stepOf (c : Chip) (k : Command) : Nat := max k.desc.step (c.closedSteps k.desc.job)

/-- A REGION entry in use. -/
def MirrorEntry.region (e : MirrorEntry) : Bool := fget e.v0 ⟨34, 1⟩ != 0 && fget e.v0 ⟨35, 1⟩ == 0

/-- Bytes of the local range. -/
def MirrorEntry.length (e : MirrorEntry) : Nat := fget e.v0 ⟨18, 16⟩ * 2097152

/-- The half that does not hold LIVE. -/
def MirrorEntry.other (e : MirrorEntry) : Nat :=
  match e.live with
  | some 0 => 1
  | _ => 0

/-- Mirror entry i; one with a broken complement is failed (R334). -/
def Chip.mirrorAt (c : Chip) (i : Nat) : Option MirrorEntry :=
  (tabGet c.mirrors i).map (fun e => if c.damaged.contains (.mirror (Fin.ofNat 64 i)) then { e with failed := true } else e)

/-- The bytes of the local range of an entry in some of its 64 KiB blocks, by offset. -/
def Chip.blockData (c : Chip) (e : MirrorEntry) (keep : Nat → Bool) : List Host.Cell :=
  let base := devKey e.slot e.base
  (c.mem.filter (fun x => decide (base ≤ x.1) && decide (x.1 < base + e.length) && keep ((e.base + (x.1 - base)) / 65536))).map
    (fun x => ((x.1 - base, x.2) : Host.Cell))

/-- Start the copy of the latest closed step into the half without LIVE, unless the entry copies already or holds that step. -/
def Chip.startCopy (c : Chip) (i : Nat) : Chip :=
  match c.mirrorAt i with
  | none => c
  | some e =>
    let n := c.closedSteps (c.entryJob e)
    if ¬ e.region ∨ e.failed ∨ e.copying.isSome ∨ n = 0 ∨ (e.mirrored.any (fun m => decide (n ≤ m + 1))) then c
    else
      let half := e.other
      let blocks := if half = 0 then e.dirtyA else e.dirtyB
      let whole := !e.received.contains half
      let data := c.blockData e (fun b => whole || blocks.contains b)
      let e' := { e with copying := some (n - 1), dirtyA := if half = 0 then [] else e.dirtyA, dirtyB := if half = 0 then e.dirtyB else [] }
      let c : Chip := { c with mirrors := tabPut c.mirrors i e' }
      c.send (.mirrorCopy e.buddy e.window (c.fabKey e.slot e.keysel) (c.entryJob e) (n - 1) half whole blocks data)

/-- Steps of a job that are complete below every outstanding command and below the highest accepted step close, and their copies
start (R348). -/
def Chip.closeSteps (c : Chip) (job : Nat) : Chip :=
  if job = 0 then c
  else
    let (high, closed) := tabGetD c.jobSteps job (0, 0)
    let out := (c.commands.filter (fun k => k.desc.job == job)).foldl (fun n k => min n (c.stepOf k)) high
    if out ≤ closed then c
    else
      let c : Chip := { c with jobSteps := tabPut c.jobSteps job (high, out) }
      (c.mirrors.map (·.1)).foldl (fun c i => c.startCopy i) c

/-- A command of a job is accepted. -/
def Chip.noteStep (c : Chip) (k : Command) : Chip :=
  let job := k.desc.job
  if job = 0 then c
  else
    let (high, closed) := tabGetD c.jobSteps job (0, 0)
    ({ c with jobSteps := tabPut c.jobSteps job (max high (c.stepOf k), closed) }).closeSteps job

/-- A command whose outputs touch an enabled REGION entry of its job waits until the latest closed step is mirrored (R349). -/
def Chip.mirrorHolds (c : Chip) (k : Command) : Bool :=
  let job := k.desc.job
  let n := c.closedSteps job
  if job = 0 ∨ n = 0 then false
  else
    let mine := (c.mirrors.map (·.1)).filterMap (fun i => (c.mirrorAt i).filter (fun e => c.entryJob e == job && !e.failed))
    let outs := (k.tensors.drop 8).map (fun t => (t.base, t.length))
    let regions := mine.filter MirrorEntry.region
    regions.any (fun e => e.slot == k.slot && outs.any (fun o => o.2 != 0 && overlap o (e.base, e.length))) &&
    (regions.any (fun e => !e.mirrored.any (fun m => decide (n ≤ m + 1))) ||
     mine.any (fun e => !e.region && fget e.v0 ⟨34, 1⟩ != 0 && e.stamps.any (fun s => decide (s.2 < n))))

/-- MIRROR_COPY_COMPLETE (R348 to R350): the acknowledgement of a REGION copy's header, or of the oldest outstanding stamp of a SEALED
entry; or the copy is refused or fails, and the entry is failed and disabled. -/
def mirrorCopyComplete (index : Fin 64) (ok : Bool) (c : Chip) : Chip :=
  let i := index.val
  match tabGet c.mirrors i with
  | none => c
  | some e =>
    let sealed_ := fget e.v0 ⟨35, 1⟩ != 0
    if (sealed_ && e.stamps.isEmpty) || (!sealed_ && e.copying.isNone) then c
    else if ¬ ok then
      { c with mirrors := tabPut c.mirrors i { e with failed := true, copying := none, stamps := [], v0 := fput e.v0 ⟨34, 1⟩ 0 } }
    else if sealed_ then
      { c with mirrors := tabPut c.mirrors i { e with stamps := e.stamps.drop 1, mirrored := (e.stamps.head?).map (·.2) } }
    else
      let half := e.other
      let e' := { e with live := some half, mirrored := e.copying, copying := none, received := half :: e.received.filter (· != half) }
      ({ c with mirrors := tabPut c.mirrors i e' }).startCopy i

/-! ### The table (R347, R358) -/

/-- Put the result of a MIR_CMD. -/
def Chip.mirResult (c : Chip) (err : Nat) : Chip := c.setFld R.MIR_STAT F.MIR_STAT.ERR err

/-- The reason that an entry is refused, 0 for none (R347). -/
def Chip.mirErr (c : Chip) (index : Nat) (e : MirrorEntry) : Nat :=
  if 64 ≤ index then 2
  else if e.length = 0 ∨ 32767 < fget e.v0 ⟨18, 16⟩ then 3
  else if c.entryJob e = 0 then 4
  else if ¬ c.deviceCovered e.slot e.base e.length then 5
  else 0

/-- MIR_WRITE (R347): a MIR_CMD write stores the staged words in an entry, which starts without a live copy. -/
def mirWrite (r : Requester) (index : Nat) (c : Chip) : Chip :=
  let v0 := c.reg (R.MIR_STAGE 0)
  let v1 := c.reg (R.MIR_STAGE 1)
  let slot := ((tabGet c.jobs (fget v1 ⟨11, 10⟩)).map (fun j => if fget j.v0 ⟨0, 1⟩ = 0 then 0 else fget j.v0 ⟨26, 6⟩)).getD 0
  let m0 : W64 := v0 &&& 0xFFFFFFFFFFFC0000#64
  let m1 : W64 := v1 &&& 0x01FFFFFFFFFFF800#64
  let e : MirrorEntry := ⟨slot, m0, m1, none, [], [], [], none, none, [], false⟩
  let err := c.mirErr index e
  if ¬ mayReachBar0 r then c
  else if c.early r then c.noteEarly
  else if c.reg (R.MIR_STAGE 2) ≠ ~~~ v0 ∨ c.reg (R.MIR_STAGE 3) ≠ ~~~ v1 then (c.integrity atChip).mirResult 1
  else if err ≠ 0 then c.mirResult err
  else
    let old := ((tabGet c.mirrors index).map (fun e => (e.v0, e.v1))).getD (0, 0)
    let c := c.logTable (c.origin r) 7 index old.1 old.2 m0 m1
    (({ c with mirrors := tabPut c.mirrors index e } : Chip).mend (.mirror (Fin.ofNat 64 index))).mirResult 0

/-- MIR_READ_BACK (R358): an entry and its complements go to the staging registers. -/
def mirReadBack (r : Requester) (index : Nat) (c : Chip) : Chip :=
  if ¬ mayReachBar0 r then c
  else if c.early r then c.noteEarly
  else if 64 ≤ index then c.mirResult 2
  else
    let e := ((tabGet c.mirrors index).map (fun e => (e.v0, e.v1))).getD (0, 0)
    ((((c.setReg (R.MIR_STAGE 0) e.1).setReg (R.MIR_STAGE 1) e.2).setReg (R.MIR_STAGE 2) (~~~ e.1)).setReg (R.MIR_STAGE 3)
      (~~~ e.2)).mirResult 0

end Sys2Proof.Machine
end

