-- ==== Sys2Proof/Machine/Miss.lean ====
section
/-! DEFINITION. Slot misses (R210): their causes, the miss ring (R219), and the instants that slots and frames begin. -/

namespace Sys2Proof.Machine

/-! ### Slots and windows -/

/-- The numerology of a cell. -/
def Chip.cellMu (c : Chip) (i : Nat) : Nat := ((tabGet c.cells i).map (fun x => x.cfg.mu % 4)).getD 0

/-- The slot in its frame that an absolute tick falls in. -/
def slotOf (mu : Nat) (t : Int) : Nat := (rtView mu (tickInFrame t)).1

/-- The absolute tick at which a slot of the frame that holds `t` begins. -/
def slotStart (mu : Nat) (t : Int) (slot : Nat) : Int := t / (ticksPerFrame : Nat) * (ticksPerFrame : Nat) + (symStart mu slot 0 : Nat)

/-- The next slot boundary after a tick. -/
def nextSlot (mu : Nat) (t : Int) : Int := slotStart mu t (slotOf mu t + 1)

/-- The next frame boundary after a tick. -/
def nextFrame (t : Int) : Int := (t / (ticksPerFrame : Nat) + 1) * (ticksPerFrame : Nat)

/-- Fine ticks of a window of R172. -/
def windowTicks : Nat := 307200

/-- The 2.5 ms window of an absolute tick (R172). -/
def windowOf (t : Int) : Int := t / (windowTicks : Nat)

/-- Fine ticks in a number of microseconds. -/
def usTicks (us : Nat) : Nat := us * 3072 / 25

/-- The absolute tick, nearest to `now`, at which a slot of a frame begins. -/
def slotTick (now : Int) (mu frame slot : Nat) : Int :=
  let period : Int := (1024 * ticksPerFrame : Nat)
  let t : Int := (frame * ticksPerFrame + symStart mu slot 0 : Nat)
  let d := (t - now) % period
  if 2 * d < period then now + d else now + d - period

/-! ### The miss ring (R210, R219) -/

/-- A sub-port that carries one of a cell's streams is down, or came up after the slot began. -/
def Chip.cellLinkDown (c : Chip) (i : Nat) (since : Int) : Bool :=
  match tabGet c.cells i with
  | none => false
  | some x => x.cfg.streams.any (fun s =>
      let p := c.fld (R.STRM_CFG s.val) F.STRM_CFG.PORT
      let u := c.fld (R.STRM_CFG s.val) F.STRM_CFG.SUBPORT
      !(c.fld (R.PORT_STAT p) F.PORT_STAT.LINK_UP).testBit u ||
      (match tabGet c.linkUpTick (p * 4 + u) with
       | some t => decide (since < t)
       | none => false))

/-- The cause of a slot miss (R210), for a slot that began at `start`. -/
def Chip.missCause (c : Chip) (i : Nat) (start : Int) : Nat :=
  let hw : Bool := match c.capacityLost with
    | some t => decide (windowOf t ≤ windowOf start) && decide (windowOf start ≤ windowOf t + 1)
    | none => false
  if hw then 1 else if !c.rtValid then 2 else if c.cellLinkDown i start then 3 else if c.power.cooling then 4 else 0

/-- Enter a slot miss (R210): cell, KIND, and the frame, slot and start of the slot that was missed. -/
def Chip.slotMiss (c : Chip) (i kind frame slot : Nat) (start : Int) : Chip :=
  let cause := c.missCause i start
  let c := (c.bump R.MISS_STAT F.MISS_STAT.MISS_CNT 1).perf .chip 0x0B 1
  let c := if cause = 0 then (c.mark R.MISS_STAT F.MISS_STAT.STICKY_UNEXPLAINED).softError atChip 0x0A .slotMiss else c
  if c.missRing.length < 64 then
    let hi := frame % 1024 * 2 ^ 54 + slot % 128 * 2 ^ 47 + c.cellMu i % 4 * 2 ^ 45 + i % 1024 * 2 ^ 35 + cause * 2 ^ 32 + kind % 256 * 2 ^ 24
    let c : Chip := { c with missRing := c.missRing ++ [⟨BitVec.ofNat 64 hi, BitVec.ofNat 64 c.taiNs⟩] }
    (c.setFld R.MISS_STAT F.MISS_STAT.COUNT c.missRing.length).irq 8
  else (c.bump R.MISS_STAT F.MISS_STAT.OVF_CNT 1).mark R.MISS_STAT F.MISS_STAT.STICKY_OVF

/-- A miss of a cell's slot that holds an absolute tick. -/
def Chip.missAt (c : Chip) (i kind : Nat) (t : Int) : Chip :=
  let mu := c.cellMu i
  c.slotMiss i kind (frameOf t) (slotOf mu t) (slotStart mu t (slotOf mu t))

/-- The words of the head of the miss ring, 0 when it is empty. -/
def Chip.missHead (c : Chip) : W64 × W64 :=
  match c.missRing with
  | [] => (0, 0)
  | e :: _ => (e.hi, e.lo)

/-- MISS_HI_READ (R219, R44): latches the head entry. -/
def missHiRead (r : Requester) (c : Chip) : Chip :=
  if mayReachBar0 r then (c.latchPop r R.MISS_HI.addr c.missHead.2).send (.readData r c.missHead.1) else c

/-- MISS_LO_READ (R219, R44): returns the rest of the entry and pops it. -/
def missLoRead (r : Requester) (c : Chip) : Chip :=
  if mayReachBar0 r then
    let (w, c) := c.takePop r R.MISS_HI.addr c.missHead.2
    let q := c.missRing.drop 1
    let c : Chip := { c with missRing := q }
    (c.setFld R.MISS_STAT F.MISS_STAT.COUNT q.length).send (.readData r w)
  else c

/-- A class 0 command of a cell that completes after its deadline is a slot miss (R210). One that came by a submission queue
names no cell: the entry's cell is open (log entry 43). -/
def Chip.noteLate (c : Chip) (k : Command) : Chip :=
  if k.desc.cls ≠ 0 ∨ k.desc.deadline = 0 ∨ c.taiNs ≤ k.desc.deadline then c
  else
    let t := ticksAt (k.desc.deadline * 65536) c.rtOffset
    match k.cell with
    | some i => c.missAt i 7 t
    | none =>
      let (w, c) := c.free
      c.missAt (w.toNat % 1024) 7 t

end Sys2Proof.Machine
end

