-- ==== Sys2Proof/Machine/Sched.lean ====
section
/-! DEFINITION. Commands (R112 to R133): doorbells, intake and its checks, completions, placement, stealing and moving of
tasks, deadlines, and the end of a command. -/

namespace Sys2Proof.Machine

/-! ### Doorbells (R114, R123) -/

/-- The size of a ring in entries. -/
def Ring.size (r : Ring) : Nat := 2 ^ r.log2

/-- Distance from one index of a ring up to another. -/
def Ring.ahead (r : Ring) (a b : Nat) : Nat := (b + r.size - a) % r.size

/-- An ignored doorbell write or an aborted fetch (R114, R123). -/
def Chip.badDoorbell (c : Chip) (slice q : Nat) (cq : Bool) (count : Bool) : Chip :=
  let r := R.DB_ERR slice
  let c := ((c.mark r F.DB_ERR.STICKY_BAD).setFld r F.DB_ERR.LAST_Q q).setFlag r F.DB_ERR.LAST_CQ cq
  if count then c.bump r F.DB_ERR.BAD_CNT 1 else c

/-- A tail doorbell of a ring (R114): accepted, without effect, or ignored, as every one of a draining slot is (R287). -/
def Chip.tailWrite (c : Chip) (slice kind q v : Nat) (tail : RegRef) : Chip :=
  match c.ring (c.sliceSlot slice) kind q with
  | none => c.badDoorbell slice q false true
  | some r =>
    if c.slotState r.slot ≠ 1 ∨ r.slice ≠ slice ∨ r.size ≤ v ∨ r.ahead r.own v < r.ahead r.own r.soft then c.badDoorbell slice q false true
    else if v = r.soft then c
    else (c.updRing r.slot kind q (fun r => { r with soft := v, stopped := false })).setReg tail (BitVec.ofNat 64 v)

/-- SQ_TAIL_WRITE (R114). -/
def sqTailWrite (slice : Fin 1024) (q : Fin 64) (v : W32) (c : Chip) : Chip :=
  if ¬ c.sliceOn slice.val then c
  else c.tailWrite slice.val 0 q.val (v.toNat % 65536) (R.SQ_TAIL slice.val q.val)

/-- FETCH_ABORT (R114): the host aborts the fetch of an entry; the queue stops until its next accepted doorbell. -/
def fetchAbort (slot : Fin 64) (q : Fin 64) (c : Chip) : Chip :=
  match c.ring slot.val 0 q.val with
  | none => c
  | some r =>
    if r.own = r.soft ∨ r.stopped then c
    else (c.updRing slot.val 0 q.val (fun r => { r with stopped := true })).badDoorbell r.slice q.val false false

/-! ### Completions (R122, R123) -/

/-- The bytes of a completion entry. -/
def Completion.bytes (e : Completion) (phase : Bool) : List Byte :=
  let fl := e.flags % 32 + (if e.nonrepro then 32 else 0) + (if e.late then 64 else 0) + (if phase then 128 else 0)
  let head := bytesLE 4 e.tag ++ bytesLE 4 e.token ++ bytesLE 1 e.status ++ bytesLE 1 e.cause ++ bytesLE 1 fl ++ bytesLE 1 e.sq ++
    bytesLE 2 e.sqHead ++ bytesLE 2 (min 65535 e.reruns) ++ bytesLE 4 e.step ++ bytesLE 4 e.trapPc ++ bytesLE 4 0
  let tail := e.watermark ++ List.replicate (32 - e.watermark.length) 0
  head ++ bytesLE 4 (crc32c (head ++ tail)).toNat ++ tail

/-- A completion queue has no room: one entry stays unused, so that its indices tell full from empty. -/
def Ring.full (r : Ring) : Bool := r.ahead r.soft r.own == r.size - 1

/-- Write one completion into its queue. -/
def Chip.writeCompletion (c : Chip) (r : Ring) (e : Completion) : Chip :=
  let next := (r.own + 1) % r.size
  let c := c.twrite r.slot (r.base + 64 * r.own) (e.bytes r.phase)
  let c := c.updRing r.slot 1 r.index (fun r => { r with own := next, phase := if next = 0 then !r.phase else r.phase })
  if e.interrupt then c.slotVector r.slot r.vector else c

/-- Post a completion: written at once, or held in order while the queue is full (R123). -/
def Chip.post (c : Chip) (slot cq : Nat) (e : Completion) : Chip :=
  match c.ring slot 1 cq with
  | none => c
  | some r =>
    if r.full ∨ ¬ r.held.isEmpty then c.updRing slot 1 cq (fun r => { r with held := r.held ++ [e] }) else c.writeCompletion r e

/-- Held completions go out in order while there is room. -/
def Chip.releaseHeld (c : Chip) (slot cq : Nat) : Nat → Chip
  | 0 => c
  | n + 1 =>
    match c.ring slot 1 cq with
    | none => c
    | some r =>
      match r.held with
      | [] => c
      | e :: t =>
        if r.full then c
        else ((c.updRing slot 1 cq (fun r => { r with held := t })).writeCompletion { r with held := t } e).releaseHeld slot cq n

/-- CQ_HEAD_WRITE (R123). -/
def cqHeadWrite (slice : Fin 1024) (q : Fin 64) (v : W32) (c : Chip) : Chip :=
  let i := slice.val
  let v := v.toNat % 65536
  if ¬ c.sliceOn i then c
  else match c.ring (c.sliceSlot i) 1 q.val with
    | none => c.badDoorbell i q.val true true
    | some r =>
      if c.slotState r.slot ≠ 1 ∨ r.slice ≠ i ∨ r.size ≤ v ∨ r.ahead r.soft r.own < r.ahead r.soft v then c.badDoorbell i q.val true true
      else
        let c := (c.updRing r.slot 1 q.val (fun r => { r with soft := v })).setReg (R.CQ_HEAD i q.val) (BitVec.ofNat 64 v)
        c.releaseHeld r.slot q.val r.held.length

/-! ### Descriptors (R113, R115, R117) -/

/-- A field of bytes. -/
def byteField (bs : List Byte) (off n : Nat) : Nat := natLE ((bs.drop off).take n)

/-- A command descriptor from its 128 bytes; `reservedOk` says that its version, reserved fields and field ranges stand as R115
asks. -/
def parseDesc (bs : List Byte) : Desc :=
  let f := byteField bs
  { program := f 0 4
    ctx := f 4 2
    cls := f 6 1 % 4
    flags := f 7 1 % 64
    footprint := f 8 2
    mode := f 10 1 % 4
    version := f 11 1
    tasks := f 12 4 % 2 ^ 20 + 1
    tensorTab := f 16 8
    seed := BitVec.ofNat 64 (f 24 8)
    deadline := f 32 8
    token := f 40 4
    waitToken := f 44 4
    job := f 48 4
    step := f 52 4
    rslots := f 56 2
    params := (List.range 14).map (fun i => BitVec.ofNat 32 (f (64 + 4 * i) 4))
    reservedOk := f 6 1 / 4 == 0 && f 7 1 / 64 == 0 && f 10 1 / 4 == 0 && f 11 1 == 1 && f 12 4 / 2 ^ 20 == 0 && f 58 6 == 0 &&
      f 120 4 == 0 && f 10 1 % 4 != 3 && f 16 8 % 64 == 0 && decide (1 ≤ f 8 2) && decide (f 8 2 ≤ 2048) &&
      (f 10 1 % 4 != 2 || f 8 2 % 64 == 0) && decide (f 56 2 ≤ 4096) }

/-- The CRC-32C at the end of a structure holds over the bytes before it. -/
def crcOk (bs : List Byte) (n : Nat) : Bool := (crc32c (bs.take n)).toNat == byteField bs n 4

/-- A tensor table entry from its 32 bytes. -/
def parseTensor (bs : List Byte) : Tensor :=
  ⟨byteField bs 0 8, byteField bs 8 8 % 2 ^ 48, byteField bs 16 1, byteField bs 17 1 % 2 == 1⟩

/-- The fields of a tensor table entry are as R117 asks. -/
def tensorOk (bs : List Byte) : Bool :=
  byteField bs 0 8 % 16 == 0 && byteField bs 8 8 % 16 == 0 && byteField bs 8 8 / 2 ^ 48 == 0 && !fmtReserved (byteField bs 16 1) &&
  byteField bs 17 1 / 2 == 0 && byteField bs 18 10 == 0

/-- The built-in commands (R124). -/
def builtinFirst : Nat := 0xFFFFFF00

/-- A built-in's PARAMS and context (R124, R431). `known` says that the context exists and is the slot's own. -/
def builtinOk (d : Desc) (known : Bool) : Bool :=
  let p := fun (i : Nat) => (nth d.params i 0).toNat
  match d.program - builtinFirst with
  | 1 => d.ctx == 0xFFFF
  | 2 => d.ctx == 0xFFFF
  | 3 => d.ctx == 0xFFFF && decide (p 0 < 2048) && decide (p 1 < 32) && p 1 % 16 != 0 && decide (p 2 ≤ 2048)
  | 4 => known
  | 5 => known
  | 6 => d.ctx == 0xFFFF && decide (p 0 < 2)
  | 7 => d.ctx == 0xFFFF
  | _ => false

/-- Check 4 of R118 for the program and the context (R124, R173, R431). -/
def Chip.programOk (c : Chip) (slot : Nat) (d : Desc) : Bool :=
  let ctx := (c.context d.ctx).filter (fun x => x.slot == slot)
  if builtinFirst ≤ d.program then
    builtinOk d ctx.isSome && (d.program != builtinFirst + 2 ||
      (match tabGet c.programs (nth d.params 0 0).toNat with
       | some p => p.slot == some slot
       | none => false))
  else
    (match tabGet c.programs d.program with
     | none => false
     | some p => if d.cls = 0 then p.slot.isNone else p.slot == some slot) &&
    (match ctx with
     | none => false
     | some x => decide (d.footprint ≤ x.footprint) && (d.mode != 2 || x.joinedCapable))

/-- Two byte ranges share a byte. -/
def rangesMeet (a b : Nat × Nat) : Bool := decide (a.1 < b.1 + b.2) && decide (b.1 < a.1 + a.2) && a.2 != 0 && b.2 != 0

/-- The overlap rule (R119): an output meets an input, or another output. -/
def overlapBad (ins outs : List (Nat × Nat)) : Bool :=
  outs.any (fun o => ins.any (rangesMeet o)) ||
  (outs.zipIdx).any (fun o => (outs.drop (o.2 + 1)).any (rangesMeet o.1))

/-- The checks 4 to 11 of R118 on a descriptor whose CRC holds: the status of the first that fails, and the tensor table. `radio`
says that it came by a radio tenant's radio queue; `table` is its token table. -/
def Chip.intake (c : Chip) (slot table : Nat) (radio entryOk : Bool) (d : Desc) : Nat × List Tensor :=
  let tab := if d.tensorTab = 0 then [] else (List.range 16).map (fun i => c.treadN slot (d.tensorTab + 32 * i) 32)
  let ts := tab.map parseTensor
  let range := fun (t : Tensor) => (t.base, t.length)
  let ins := (ts.take 8).map range
  let outs := (ts.drop 8).map range
  let status :=
    if ¬ entryOk ∨ ¬ d.reservedOk ∨ ¬ c.programOk slot d then 0x14
    else if d.cls = 0 ∧ ¬ radio then 0x10
    else if d.tensorTab ≠ 0 ∧ ¬ c.permitted slot d.tensorTab 512 false then 0x10
    else if tab.any (fun bs => !crcOk bs 28) then 0x20
    else if tab.any (fun bs => !tensorOk bs) then 0x14
    else if ins.any (fun r => r.2 != 0 && !c.permitted slot r.1 r.2 false) ∨ outs.any (fun r => r.2 != 0 && !c.permitted slot r.1 r.2 true) then 0x10
    else if outs.any (fun r => r.2 != 0 && c.touchesSealed slot r.1 r.2) then 0x11
    else if overlapBad ins outs then 0x12
    else if d.token ≠ 0 ∧ c.commands.any (fun k => k.slot == slot && k.tokenTable == table && k.desc.token != 0 && k.desc.token % 4096 == d.token % 4096) then 0x14
    else if d.program < builtinFirst ∧ c.tierQuota slot 0 < c.couchBytes slot then 0x50
    else if d.cls = 0 ∧ ¬ c.rtValid then 0x71
    else 0
  (status, ts)

/-- Accept a command (R118, R120): it waits for placement, and its token is not done. -/
def Chip.accept (c : Chip) (slot : Nat) (src : CmdSource) (d : Desc) (ts : List Tensor) (cell : Option Nat) : Chip :=
  let k : Command := { uid := c.nextCmd, slot := slot, source := src, desc := d, tensors := ts, accepted := c.taiNs, placed := false,
                       committed := [], drained := 0, flags := 0, late := false, nonrepro := false, reruns := 0, partials := [],
                       deferred := [], ending := none, digests := [], fabricOpen := 0, cell := cell }
  let table := k.tokenTable
  let c := if d.token = 0 then c else { c with tokens := tabPut c.tokens (tokenKey table d.token) (d.token, false) }
  (({ c with commands := c.commands ++ [k], nextCmd := c.nextCmd + 1 }).noteStep k).perf .chip 0x02 1

/-- A completion queue that the next entry names holds completions (R123). -/
def Chip.cqHolds (c : Chip) (slot cq : Nat) : Bool :=
  match c.ring slot 1 cq with
  | some r => !r.held.isEmpty
  | none => false

/-- A command whose context may only lie on lost reams needs a failed structure (R341). -/
def Chip.needsLost (c : Chip) (d : Desc) : Bool :=
  match c.context d.ctx with
  | some x => decide (d.program < builtinFirst) && x.reamMask != 0 && (List.range 4).all (fun r => !x.reamMask.testBit r || c.reamLost r)
  | none => false

/-- COMMAND_FETCH (R113, R114, R118, R123): the next entry of a submission queue, its descriptor and the checks; a command that
fails one completes at once with its status. -/
def commandFetch (slot : Fin 64) (q : Fin 64) (c : Chip) : Chip :=
  let t := slot.val
  match c.ring t 0 q.val with
  | none => c
  | some r =>
    if r.own = r.soft ∨ r.stopped ∨ r.deleting ∨ c.slotState t ≠ 1 then c
    else
      let bs := c.treadN t (r.base + 64 * r.own) 64
      let cq := byteField bs 12 1 % 64
      if c.cqHolds t cq then c
      else
        let head := (r.own + 1) % r.size
        let c := c.updRing t 0 q.val (fun r => { r with own := head })
        let va := byteField bs 0 8
        let tag := byteField bs 8 4
        let db := c.treadN t va 128
        let d := parseDesc db
        let entryOk := va % 128 == 0 && byteField bs 12 1 / 64 == 0 && byteField bs 13 47 == 0
        let (status, ts) :=
          if ¬ crcOk bs 60 then (0x20, [])
          else if ¬ c.permitted t va 128 false then (0x10, [])
          else if ¬ crcOk db 124 then (0x20, [])
          else c.intake t t (r.radio && c.slotKind t == 1) entryOk d
        let status := if status = 0 ∧ c.needsLost d then 0x21 else status
        if status = 0 then c.accept t (.sq q.val cq tag head) d ts none
        else
          let known := crcOk bs 60 && c.permitted t va 128 false
          let e : Completion := { tag := tag, token := if known then d.token else 0, status := status, cause := 0, flags := 0, nonrepro := false,
                                  late := false, sq := q.val, sqHead := head, reruns := 0, step := if known then d.step else 0, trapPc := 0,
                                  interrupt := known && d.flags.testBit 5, watermark := [] }
          (c.post t cq e).perf .chip 0x04 1

/-! ### Placement (R121, R126) -/

/-- Earlier commands of the same submission queue. -/
def Chip.earlier (c : Chip) (k : Command) : List Command :=
  match k.source with
  | .sq q _ _ _ => c.commands.filter (fun m => m.slot == k.slot && decide (m.uid < k.uid) && (match m.source with
      | .sq p _ _ _ => p == q
      | .event _ => false))
  | .event _ => []

/-- An open recovery epoch holds a job's commands (R352). -/
def Chip.jobHeld (c : Chip) (job : Nat) : Bool := job != 0 && c.rcvRecords.any (fun r => r.job == job && !r.closed)

/-- A command may start (R121): those before it in its queue have started, with BARRIER have completed; its token is complete; its
job is not held. -/
def Chip.mayStart (c : Chip) (k : Command) : Bool :=
  let before := c.earlier k
  before.all (fun m => m.placed || m.ending.isSome) && (!k.desc.flags.testBit 2 || before.isEmpty) &&
  (k.desc.waitToken == 0 || c.tokenDone k.tokenTable k.desc.waitToken) && !c.jobHeld k.desc.job && !c.mirrorHolds k

/-- The ream that serves a class 0 command: the one that its event names, or the ream of its context (R18, R38). -/
def Chip.radioReam (c : Chip) (k : Command) : Nat :=
  match k.source with
  | .event r => r
  | .sq _ _ _ _ =>
    match c.context k.desc.ctx with
    | some x => posReam (x.posOf 0)
    | none => 0

/-- A task of a command at its home. -/
def taskOf (k : Command) (i logical : Nat) : Task := ⟨k.uid, i, 0, k.desc.ctx, k.slot, k.desc.cls, logical⟩

/-- TASK_PLACE (R121, R126): the command's tasks go to their queues in index order, to their couched context, or for class 0 to the
ready tasks of the home ream. -/
def taskPlace (uid : Nat) (c : Chip) : Chip :=
  match c.command uid with
  | none => c
  | some k =>
    if k.placed ∨ k.ending.isSome ∨ builtinFirst ≤ k.desc.program ∨ ¬ c.mayStart k then c
    else
      let c := c.updCommand uid (fun k => { k with placed := true })
      if k.desc.cls = 0 then
        let ream := c.radioReam k
        let ts := (List.range k.desc.tasks).map (fun i => taskOf k i 0)
        { c with radioReady := tabPut c.radioReady ream (c.radioAt ream ++ ts) }
      else
        let c := c.keepOnChip (fun x => x.1 == k.desc.ctx)
        match c.context k.desc.ctx with
        | none => c
        | some x =>
          let ts := (List.range k.desc.tasks).map (fun i => taskOf k i ((x.indexOf (Chip.homePos x k i)).getD 0))
          if x.place ≠ .onChip then { c with contexts := tabPut c.contexts k.desc.ctx { x with queued := x.queued ++ ts } }
          else
            let c := ts.foldl (fun c t => c.enqueue t) c
            let qs := (x.gang.map (fun p => p / 64)).eraseDups
            let c := qs.foldl (fun c q => c.perfQuire q 0x02 (ts.filter (fun t => c.taskPos t / 64 == q)).length (some k.desc.cls)) c
            qs.foldl (fun c q => c.assignQuire q) c

/-! ### Stealing and moving (R127, R128) -/

/-- A waiting task that may be stolen or moved. -/
def Chip.stealable (c : Chip) (t : Task) : Bool :=
  match c.command t.cmd with
  | some k => !k.fixedSheets && k.desc.cls != 0
  | none => false

/-- The context that holds a position on chip. -/
def Chip.ctxAt (c : Chip) (pos : Nat) : Option (Nat × Context) :=
  c.contexts.find? (fun x => x.2.place == .onChip && x.2.gang.contains pos)

/-- The longest queue among positions, the lowest position on a tie. -/
def Chip.longest (c : Chip) : List Nat → Option Nat
  | [] => none
  | p :: ps =>
    match c.longest ps with
    | none => some p
    | some r => if (c.queueAt p).length < (c.queueAt r).length then some r else some p

/-- The tail half, rounded up, of the tasks of a queue that may move. -/
def Chip.tailHalf (c : Chip) (ts : List Task) : List Task :=
  let m := ts.filter c.stealable
  m.drop (m.length / 2)

/-- Move tasks from one position of a context to another. -/
def Chip.moveTasks (c : Chip) (x : Context) (src dst : Nat) (ts : List Task) : Chip :=
  let c := c.setQueueAt src ((c.queueAt src).filter (fun t => !ts.contains t))
  let new := ts.map (fun t => { t with logical := (x.indexOf dst).getD 0 })
  c.setQueueAt dst (c.queueAt dst ++ new)

/-- TASK_STEAL (R127): an idle sheet with an empty queue takes the tail half of the longest queue of its gang in its quire. -/
def taskSteal (s : SheetAt) (c : Chip) : Chip :=
  let k := sheetKey s
  let q := keyQuire k
  let pos := c.keyPos k
  let ream := q / 8
  if ¬ c.flag (R.SCHED_CFG ream) F.SCHED_CFG.STEAL_EN ∨ ¬ c.freeSheet k ∨ ¬ (c.queueAt pos).isEmpty ∨ c.inFloor q (pos % 64) then c
  else match c.ctxAt pos with
    | none => c
    | some (_, x) =>
      match c.longest (x.posIn q) with
      | none => c
      | some src =>
        let ts := c.tailHalf (c.queueAt src)
        if ts.isEmpty then c
        else
          let c := (c.moveTasks x src pos ts).bump (R.SCHED_CNT0 ream) F.SCHED_CNT0.STEALS 1
          ((c.perfQuire q 0x03 1 ((ts.head?).map (·.cls))).refill ream).assign k

/-- Queued tasks of a gang on a quire. -/
def Chip.loadOf (c : Chip) (x : Context) (q : Nat) : Nat := (x.posIn q).foldl (fun n p => n + (c.queueAt p).length) 0

/-- The quire of a list with the greatest load, the lowest on a tie. -/
def Chip.mostLoaded (c : Chip) (x : Context) : List Nat → Option Nat
  | [] => none
  | q :: qs =>
    match c.mostLoaded x qs with
    | none => some q
    | some r => if c.loadOf x q < c.loadOf x r then some r else some q

/-- One move to an empty quire of a gang (R128): the tasks go to its lowest logical sheet, whence the others steal. -/
def Chip.moveTo (c : Chip) (ream : Nat) (x : Context) (q : Nat) : Chip :=
  let qs := ((x.gang.filter (fun p => posReam p == ream)).map (fun p => p / 64)).eraseDups
  if c.loadOf x q ≠ 0 ∨ ¬ c.quireUp q then c
  else match c.mostLoaded x (qs.filter (· != q)), (x.posIn q).head? with
    | some src, some dst =>
      (match c.longest (x.posIn src) with
       | none => c
       | some p =>
         let ts := c.tailHalf (c.queueAt p)
         if ts.isEmpty then c
         else ((c.moveTasks x p dst ts).bump (R.SCHED_CNT1 ream) F.SCHED_CNT1.MOVES 1).assignQuire q)
    | _, _ => c

/-- LOAD_BALANCE_CHECK (R128): for each gang of the ream, each quire whose queues for it are empty gets at most one move. -/
def loadBalanceCheck (ream : Fin 4) (c : Chip) : Chip :=
  let r := ream.val
  if ¬ c.flag (R.SCHED_CFG r) F.SCHED_CFG.MOVE_EN then c
  else
    let gangs := c.contexts.filter (fun x => x.2.place == .onChip)
    ((gangs.foldl (fun (c : Chip) (x : Nat × Context) =>
      let qs := ((x.2.gang.filter (fun p => posReam p == r)).map (fun p => p / 64)).eraseDups
      let empty := qs.filter (fun q => c.loadOf x.2 q == 0)
      empty.foldl (fun c q => c.moveTo r x.2 q) c) c).refill r).assignReam r

/-! ### Deadlines and the end of a command (R112, R131) -/

/-- DEADLINE_EXPIRY (R131): the deadline of a class 1 to 3 command has passed; with ABORT_LATE the command ends in TIMEOUT. -/
def deadlineExpiry (uid : Nat) (c : Chip) : Chip :=
  match c.command uid with
  | none => c
  | some k =>
    if k.desc.cls = 0 ∨ k.desc.deadline = 0 ∨ c.taiNs ≤ k.desc.deadline then c
    else
      let c := c.updCommand uid (fun k => { k with late := true })
      if k.desc.flags.testBit 4 then c.endCommand uid ⟨0x60, 0, 0⟩ else c

/-- A command is gone: its token is done, its completion is posted, and sheets and contexts that await its token may go on. -/
def Chip.finishCommand (c : Chip) (k : Command) (e : CmdEnd) : Chip :=
  let table := k.tokenTable
  let c := if e.status = 0x70 then c else c.noteLate k
  let c := if k.desc.token = 0 then c else { c with tokens := tabPut c.tokens (tokenKey table k.desc.token) (k.desc.token, true) }
  let c : Chip := ({ c with commands := c.commands.filter (fun m => m.uid != k.uid) }).closeSteps k.desc.job
  let c := (c.wakeCouch (fun w => match w with
    | .token _ _ => true
    | _ => false)).perf .chip 0x03 1
  match k.source with
  | .event _ => c
  | .sq q cq tag sqHead =>
    let late := k.late || (k.desc.cls != 0 && k.desc.deadline != 0 && decide (k.desc.deadline < c.taiNs))
    let mark := if e.status = 0 ∧ k.desc.flags.testBit 0 then c.watermark k else []
    c.post k.slot cq { tag := tag, token := k.desc.token, status := e.status, cause := e.cause, flags := k.flags, nonrepro := k.nonrepro,
                       late := late, sq := q, sqHead := sqHead, reruns := k.reruns, step := k.desc.step, trapPc := e.pc,
                       interrupt := k.desc.flags.testBit 5, watermark := mark }

/-- COMMAND_COMPLETE (R112, R133, R222, R250): every task has committed and drained, its fabric records, reductions, deferred requests
and digests are done; or the command has ended and its begun commits have drained. A joined command waits for tasks that run a second time (R107). A
command of a draining slot gets no completion entry (R287). -/
def commandComplete (uid : Nat) (c : Chip) : Chip :=
  match c.command uid with
  | none => c
  | some k =>
    if builtinFirst ≤ k.desc.program ∧ k.ending.isNone then c
    else if k.drained ≠ k.committed.length ∨ (k.desc.mode = 2 ∧ ¬ (c.keysWhere (fun t => t.cmd == uid)).isEmpty) then c
    else if c.slotState k.slot = 2 then ({ c with commands := c.commands.filter (fun m => m.uid != uid) }).closeSteps k.desc.job
    else match k.ending with
      | some e => c.finishCommand k e
      | none =>
        let digested := !k.desc.flags.testBit 0 || (c.digestSlots k).all (fun i => k.digests.any (fun x => x.1 == i))
        if k.committed.length = k.desc.tasks ∧ k.fabricOpen = 0 ∧ k.partials.isEmpty ∧ k.deferred.isEmpty ∧ digested then
          c.finishCommand k ⟨0, 0, 0⟩
        else c

end Sys2Proof.Machine
end

