-- ==== Sys2Proof/Machine/Couch.lean ====
section
/-! DEFINITION. Contexts (R134 to R142) and the built-in commands (R124, R431): where a gang lies, couching out and in, the
blocked swap, context images, programs, and the teardown of a job (R125). -/

namespace Sys2Proof.Machine

/-! ### Where a gang lies (R124, R140) -/

/-- The part of a quire's pool that contexts share (R20, R204). -/
def Chip.poolRoom (c : Chip) (q : Nat) : Nat :=
  8 * 2 ^ 20 - (if q = c.radioHome (q / 8) then c.radioMib (q / 8) * 2 ^ 20 else 0)

/-- Contexts with state on chip, or on the way, but for those of a list. -/
def Chip.present (c : Chip) (off : List Nat) : List Context :=
  (c.contexts.filter (fun x => x.2.place != .couched && !off.contains x.1)).map (·.2)

/-- The positions that a context may take on a quire once the contexts of a list are gone. -/
def Chip.openOn (c : Chip) (x : Context) (off : List Nat) (q : Nat) : List Nat :=
  let others := c.present off
  let taken := others.flatMap Context.holds
  let pool := others.foldl (fun a y => if (y.posIn q).isEmpty then a else a + y.poolBytes) 0
  let ls := (List.range 64).filter (fun l => !c.inFloor q l && !taken.contains (q * 64 + l))
  if ¬ x.reamMask.testBit (q / 8) ∨ ¬ c.quireUp q ∨ c.emergency (q / 8) ∨ c.poolRoom q < pool + x.poolBytes ∨ (x.joinedCapable ∧ ls.length < 64) then []
  else ls.map (fun l => q * 64 + l)

/-- A gang for a context, on the lowest quires with room (log entry 38). -/
def Chip.findGang (c : Chip) (x : Context) (off : List Nat) : Option (List Nat) :=
  let gang := ((List.range 32).flatMap (c.openOn x off)).take x.footprint
  if gang.length = x.footprint then some gang else none

/-- The quires of a gang in order. -/
def Context.quires (x : Context) : List Nat := (x.gang.map (fun p => p / 64)).eraseDups

/-- The sheet key of a position. -/
def Chip.posKeyOf (c : Chip) (p : Nat) : Option Nat := c.sheetOf (p / 64) (p % 64)

/-- Change a context. -/
def Chip.updContext (c : Chip) (n : Nat) (f : Context → Context) : Chip :=
  match c.context n with
  | some x => { c with contexts := tabPut c.contexts n (f x) }
  | none => c

/-! ### Blocked and runnable contexts (R137, R138) -/

/-- A wait of FX.WAITEV. -/
def WaitFor.isEvent : WaitFor → Bool
  | .radio _ _ _ _ => false
  | _ => true

/-- A context on chip is blocked: each of its tasks on a sheet waits in FX.WAITEV, and none is queued. -/
def Chip.blocked (c : Chip) (n : Nat) (x : Context) : Bool :=
  c.sheets.all (fun y => match y.2.task with
    | some t => t.ctx != n || (y.2.wait.map WaitFor.isEvent).getD false
    | none => true) &&
  x.gang.all (fun p => (c.queueAt p).all (fun t => t.ctx != n)) &&
  c.waiting.all (fun y => y.2.all (fun t => t.ctx != n))

/-- A context off chip is runnable: it holds a task that can run, or one whose event has arrived. -/
def Chip.couchedReady (c : Chip) (x : Context) : Bool :=
  !x.queued.isEmpty || x.images.any (fun i => match i.task, i.wait with
    | some t, some w => c.waitMet t w
    | some _, none => true
    | none, _ => false)

/-- A context with outstanding class 0 commands is pinned. -/
def Chip.pinned (c : Chip) (n : Nat) : Bool := c.commands.any (fun k => k.desc.ctx == n && k.desc.cls == 0)

/-- The class of a context: the highest of its outstanding commands. -/
def Chip.ctxClass (c : Chip) (n : Nat) : Nat :=
  c.commands.foldl (fun a k => if k.desc.ctx = n ∧ builtinFirst > k.desc.program then min a k.desc.cls else a) 3

/-- A context has state on a ream. -/
def Context.onReam (x : Context) (ream : Nat) : Bool := x.gang.any (fun p => posReam p == ream)

/-- Note since when each context has been blocked, or runnable off chip. -/
def Chip.noteBlocked (c : Chip) : Chip :=
  let now := c.time.uptime
  let upd := fun (n : Nat) (x : Context) =>
    match x.place with
    | .onChip => { x with blockedSince := if c.blocked n x then some (x.blockedSince.getD now) else none, runnableSince := none }
    | .couched => { x with blockedSince := none, runnableSince := if c.couchedReady x then some (x.runnableSince.getD now) else none }
    | _ => x
  { c with contexts := c.contexts.map (fun (y : Nat × Context) => (y.1, upd y.1 y.2)) }

/-- The order in which runnable contexts are picked: highest class, runnable earliest, lowest number. -/
def Chip.pickRank (c : Chip) (y : Nat × Context) : List Nat := [c.ctxClass y.1, y.2.runnableSince.getD 0, y.1]

/-- Runnable contexts off chip that a ream may take, first to be picked first. -/
def Chip.runnableOff (c : Chip) (ream : Nat) : List (Nat × Context) :=
  sortBy (fun a b => listLt (c.pickRank a) (c.pickRank b))
    (c.contexts.filter (fun (y : Nat × Context) => y.2.place == .couched && y.2.runnableSince.isSome && y.2.reamMask.testBit ream))

/-- A couch-in begins where the footprint fits without evicting anything (R139, R140). -/
def Chip.couchIn (c : Chip) (n : Nat) : Chip :=
  match c.context n with
  | none => c
  | some x =>
    if x.place ≠ .couched then c
    else match c.findGang x [] with
      | some g => c.updContext n (fun x => { x with place := .couchingIn, gang := g, couchStart := c.time.uptime })
      | none => c

/-- The fewest of a list of contexts, from its head, whose leaving lets a context in. -/
def Chip.outFor (c : Chip) (x : Context) : List Nat → List Nat → Option (List Nat)
  | off, [] => if (c.findGang x off).isSome then some off else none
  | off, n :: t => if (c.findGang x off).isSome then some off else c.outFor x (off ++ [n]) t

/-- BLOCKED_SWAP_CHECK (R137, R139): runnable contexts that fit come in; otherwise, with every unpinned context on the ream
blocked beyond the threshold, the first runnable one swaps with those blocked longest. -/
def blockedSwapCheck (ream : Fin 4) (c : Chip) : Chip :=
  let r := ream.val
  let c := c.noteBlocked
  if ¬ c.flag (R.SCHED_CFG r) F.SCHED_CFG.SWAP_EN ∨ (tabGet c.swaps r).isSome then c
  else
    let c := (c.runnableOff r).foldl (fun c y => c.couchIn y.1) c
    match c.runnableOff r with
    | [] => c
    | (n, x) :: _ =>
      let now := c.time.uptime
      let on := c.contexts.filter (fun (y : Nat × Context) => y.2.place != .couched && y.2.onReam r && !c.pinned y.1)
      let long := fun (y : Nat × Context) => y.2.place == .onChip && (match y.2.blockedSince with
        | some t => decide (t + 1000 * c.fld (R.SCHED_CFG r) F.SCHED_CFG.BLOCK_THRESH < now)
        | none => false)
      if ¬ on.all long then c
      else
        let order := sortBy (fun (a b : Nat × Context) => listLt [a.2.blockedSince.getD 0, a.1] [b.2.blockedSince.getD 0, b.1]) on
        match c.outFor x [] (order.map (·.1)) with
        | none => c
        | some off =>
          let c := off.foldl (fun c m => c.updContext m (fun y => { y with place := .couchingOut, couchStart := now })) c
          { c with swaps := tabPut c.swaps r n }

/-! ### Couching (R134 to R136) -/

/-- The image of a sheet for a context (R134): regions that a task on it claimed and did not commit are saved only of a task that
waits. -/
def Sheet.imageOf (sh : Sheet) (n logical : Nat) : SheetImage :=
  let mine := match sh.task with
    | some t => t.ctx == n
    | none => false
  let rs := sh.regionsOf n
  { logical := logical
    felt := sh.felt.filter (fun x => rs.contains (x.1 / 4096))
    tags := rs.map (fun r => (r, n))
    vregs := if mine then sh.vregs else List.replicate 32 zeroLine
    banks := if mine then sh.banks else List.replicate 4 bankReset
    taps := if mine then sh.taps else List.replicate 4 (List.replicate 16 0)
    xregs := if mine then sh.xregs else List.replicate 32 0
    csrs := if mine then sh.csrs else .zero
    pc := if mine then sh.pc else 0
    task := if mine then sh.task else none
    wait := if mine then sh.wait else none
    window := if mine then sh.window else []
    stalled := if mine then sh.stalled else []
    records := if mine then sh.records else []
    deferred := if mine then sh.deferred else []
    claimed := if mine then sh.claimed else []
    notReady := if mine then sh.notReady else []
    nextTag := sh.nextTag }

/-- A sheet takes an image for a context; `logical` is its logical sheet in the quire. -/
def Sheet.takeImage (sh : Sheet) (n logical now : Nat) (i : SheetImage) : Sheet :=
  let rs := i.tags.map (·.1)
  let felt := (sh.felt.filter (fun x => !rs.contains (x.1 / 4096)))
  let sh := { sh with felt := i.felt.foldl (fun m x => memPut m x.1 x.2) felt,
                      tags := i.tags.foldl (fun t x => tabPut t x.1 n) sh.tags }
  match i.task with
  | none => sh
  | some t =>
    { sh with task := some { t with logical := logical }, wait := i.wait, window := i.window, stalled := i.stalled, records := i.records,
              deferred := i.deferred, claimed := i.claimed, notReady := i.notReady, vregs := i.vregs, banks := i.banks, taps := i.taps,
              xregs := i.xregs, csrs := i.csrs, pc := i.pc, nextTag := i.nextTag, started := now }

/-- A sheet can be saved for a context: it holds no task of it, or one that waits with nothing under way. -/
def Sheet.savable (sh : Sheet) (n : Nat) : Bool :=
  match sh.task with
  | none => true
  | some t => t.ctx != n || ((sh.wait.map WaitFor.isEvent).getD false && ({ sh with wait := none } : Sheet).quiet)

/-- The sheet keys of a gang with their indices. -/
def Chip.gangKeys (c : Chip) (x : Context) : List (Nat × Nat × Nat) :=
  x.gang.zipIdx.filterMap (fun y => (c.posKeyOf y.1).map (fun k => (y.2, y.1, k)))

/-- Image bytes of a context on one ream (R135). -/
def Context.imageBytes (x : Context) (images : List SheetImage) (ream : Nat) : Nat :=
  images.foldl (fun a i => if posReam (x.posOf i.logical) = ream then a + i.tags.length * 4096 + 16896 else a) 0 +
  (x.quires.filter (fun q => q / 8 == ream)).length * x.poolBytes

/-- Counting of one couch direction (R145, R385). -/
def Chip.couchCount (c : Chip) (x : Context) (images : List SheetImage) (out_ : Bool) : Chip :=
  let ns := c.time.uptime - x.couchStart
  let reams := (x.gang.map posReam).eraseDups
  reams.foldl (fun (c : Chip) r =>
    let kib := ceilDiv (x.imageBytes images r) 1024
    let c := c.bump (R.SCHED_CNT1 r) (if out_ then F.SCHED_CNT1.COUCH_OUT else F.SCHED_CNT1.COUCH_IN) 1
    let c := (c.setFld (R.COUCH_LAST r) F.COUCH_LAST.BYTES_KIB (min kib (2 ^ 32 - 1))).setFld (R.COUCH_LAST r) F.COUCH_LAST.TIME_NS (min ns (2 ^ 32 - 1))
    c.perf .chip 0x09 kib) c

/-- The pool bytes of a context on a quire. -/
def Quire.poolFor (y : Quire) (n : Nat) : Memory :=
  (y.pool.filter (fun x => x.1 / 2 ^ 32 == n)).map (fun x => (x.1 % 2 ^ 32, x.2))

/-- Tasks of a context that wait anywhere on chip, in order of their queues. -/
def Chip.queuedOf (c : Chip) (n : Nat) (x : Context) : List Task :=
  x.gang.flatMap (fun p => (c.queueAt p).filter (fun t => t.ctx == n)) ++ c.waiting.flatMap (fun y => y.2.filter (fun t => t.ctx == n))

/-- Those tasks leave their queues. -/
def Chip.unqueue (c : Chip) (n : Nat) : Chip :=
  let keep := fun (ts : List Task) => ts.filter (fun t => t.ctx != n)
  { c with quires := c.quires.map (fun (y : Nat × Quire) => (y.1, { y.2 with queues := y.2.queues.map (fun q => { q with tasks := keep q.tasks }) })),
           waiting := c.waiting.map (fun y => (y.1, keep y.2)) }

/-- A swap whose last couch-out is done goes on with the couch-in of the context it picked (R137). -/
def Chip.swapOn (c : Chip) : Chip :=
  c.swaps.foldl (fun (c : Chip) (s : Nat × Nat) =>
    if c.contexts.any (fun (y : Nat × Context) => y.2.place == .couchingOut && y.2.onReam s.1) then c
    else
      let c := c.couchIn s.2
      match c.context s.2 with
      | some x => if x.place = .couchingIn then c else { c with swaps := tabDel c.swaps s.1 }
      | none => { c with swaps := tabDel c.swaps s.1 }) c

/-- COUCH_OUT_COMPLETE (R136, R138): the context's state goes to its couch area; where an awaited event has arrived first, the
context stays on chip. -/
def couchOutComplete (ctx : Nat) (c : Chip) : Chip :=
  match c.context ctx with
  | none => c
  | some x =>
    if x.place ≠ .couchingOut then c
    else
      let keys := c.gangKeys x
      let sheets := keys.map (fun k => c.sheetK k.2.2)
      let arrived := sheets.any (fun sh => match sh.task, sh.wait with
        | some t, some w => t.ctx == ctx && c.waitMet t w
        | _, _ => false)
      if arrived ∧ ¬ x.evicting then c.keepOnChip (fun y => y.1 == ctx)
      else if ¬ sheets.all (fun sh => sh.savable ctx) ∨ c.undrained ctx then c
      else
        let images := keys.map (fun k => (c.sheetK k.2.2).imageOf ctx k.1)
        let queued := x.queued ++ c.queuedOf ctx x
        let pools := x.quires.map (fun q => (c.quire q).poolFor ctx)
        let c := c.couchCount x images true
        let c := keys.foldl (fun c k => c.setSheetK k.2.2 ((c.sheetK k.2.2).leave ctx)) c
        let c := x.quires.foldl (fun c q => c.updQuire q (fun y => y.dropPool ctx)) (c.unqueue ctx)
        let c := c.updContext ctx (fun x =>
          { x with place := .couched, images := images, queued := queued, pools := pools, blockedSince := none, evicting := false, gang := [] })
        x.quires.foldl (fun c q => c.assignQuire q) c.swapOn

/-- COUCH_IN_COMPLETE (R140): the image is restored on the quires chosen; a sheet whose waiting task must come back but that
holds other work makes the couch-in wait (R136). -/
def couchInComplete (ctx : Nat) (c : Chip) : Chip :=
  match c.context ctx with
  | none => c
  | some x =>
    if x.place ≠ .couchingIn then c
    else
      let keys := c.gangKeys x
      let image := fun (i : Nat) => x.images.find? (fun m => m.logical == i)
      let busy := keys.any (fun k => match image k.1 with
        | some m => m.task.isSome && ((c.sheetK k.2.2).task.isSome || (c.sheetK k.2.2).killing)
        | none => false)
      if busy ∨ keys.length ≠ x.footprint then c
      else
        let c := c.couchCount x x.images false
        let now := c.time.uptime
        let c := keys.foldl (fun (c : Chip) k => match image k.1 with
          | some m => c.setSheetK k.2.2 ((c.sheetK k.2.2).takeImage ctx (k.2.1 % 64) now m)
          | none => c) c
        let c := (x.quires.zip x.pools).foldl (fun (c : Chip) (y : Nat × Memory) =>
          c.updQuire y.1 (fun q => { q with pool := y.2.foldl (fun m b => memPut m (ctx * 2 ^ 32 + b.1) b.2) q.pool })) c
        let c := c.updContext ctx (fun x =>
          { x with place := .onChip, images := [], queued := [], pools := [], runnableSince := none })
        let c : Chip := { c with swaps := c.swaps.filter (fun s => s.2 != ctx) }
        let c := x.queued.foldl (fun c t => c.enqueue t) c
        x.quires.foldl (fun c q => c.assignQuire q) c

/-! ### Context images (R134, R141; the body's layout is the model's, log entry 37) -/

/-- The FX CSRs in order of their numbers. -/
def Csrs.list (k : Csrs) : List W32 :=
  [k.acr, k.flags, k.fmt, k.mshape, k.mstride, k.mmeta, k.tapcfg, k.tapptr, k.rstream, k.ridxLo, k.ridxHi, k.rstep, k.rld, k.stager, k.dmcfg]

/-- CSRs from a list. -/
def csrsOf (l : List W32) : Csrs :=
  let g := fun (i : Nat) => nth l i 0
  ⟨g 0, g 1, g 2, g 3, g 4, g 5, g 6, g 7, g 8, g 9, g 10, g 11, g 12, g 13, g 14⟩

/-- Code of a bank's type. -/
def accCode : AccKind → Nat
  | .fp32 => 0
  | .int32 => 1
  | .ci32 => 2

/-- The bank type of a code. -/
def accOf (n : Nat) : AccKind := if n = 1 then .int32 else if n = 2 then .ci32 else .fp32

/-- Words as bytes. -/
def wordBytes (n : Nat) (l : List Nat) : List Byte := l.flatMap (fun w => bytesLE n w)

/-- Bytes as words of n bytes. -/
def wordsAt (n count : Nat) (bs : List Byte) : List Nat := (List.range count).map (fun i => natLE ((bs.drop (n * i)).take n))

/-- The 16,896-byte core image of a sheet (R134). -/
def SheetImage.core (i : SheetImage) : List Byte :=
  wordBytes 4 ((i.vregs.flatMap id).map BitVec.toNat) ++
  wordBytes 8 (i.banks.flatMap (fun b => b.vals.map BitVec.toNat)) ++
  wordBytes 4 ((i.taps.flatMap id).map BitVec.toNat) ++
  (wordBytes 4 ((i.xregs ++ i.csrs.list ++ [i.pc]).map BitVec.toNat) ++ wordBytes 1 (i.banks.map (fun b => accCode b.kind)) ++
    List.replicate 60 0)

/-- Felt regions in 4 KiB units: their count, then each number with its bytes. -/
def regionBytes (m : Memory) (rs : List Nat) : List Byte :=
  bytesLE 4 rs.length ++ rs.flatMap (fun r => bytesLE 4 r ++ memRead m (r * 4096) 4096)

/-- The 4 KiB units that a memory touches. -/
def unitsOf (m : Memory) : List Nat := (m.map (fun x => x.1 / 4096)).eraseDups

/-- The body of an image: the sheets, the pools with their size, the queued tasks. -/
def Context.body (x : Context) : List Byte :=
  x.images.flatMap (fun i => regionBytes i.felt (i.tags.map (·.1)) ++ i.core) ++
  bytesLE 4 x.poolBytes ++ bytesLE 4 x.pools.length ++ x.pools.flatMap (fun m => regionBytes m (unitsOf m)) ++
  bytesLE 4 x.queued.length ++ x.queued.flatMap (fun t => bytesLE 4 t.index ++ bytesLE 4 t.attempt ++ bytesLE 4 t.logical)

/-- A CRC-32C after every 64 KiB of the body, and after its end. -/
def crcBlocks : Nat → List Byte → List Byte
  | 0, _ => []
  | n + 1, bs => if bs.isEmpty then [] else bs.take 65536 ++ bytesLE 4 (crc32c (bs.take 65536)).toNat ++ crcBlocks n (bs.drop 65536)

/-- The body behind its CRCs; none where one fails. -/
def uncrcBlocks : Nat → List Byte → Option (List Byte)
  | 0, _ => some []
  | n + 1, bs =>
    if bs.isEmpty then some []
    else
      let len := min 65536 (bs.length - 4)
      if natLE ((bs.drop len).take 4) ≠ (crc32c (bs.take len)).toNat then none
      else (uncrcBlocks n (bs.drop (len + 4))).map (fun t => bs.take len ++ t)

/-- The image of a context with its 64-byte header (R141); `program` is the digest prefix of PROGRAMS. -/
def Context.image (x : Context) (program : Nat) : List Byte :=
  let body := x.body
  let body := crcBlocks (body.length / 65536 + 1) body
  let head := bytesLE 2 1 ++ bytesLE 2 0x4044 ++ bytesLE 2 x.aic ++ bytesLE 2 (x.footprint - 1) ++
    bytesLE 1 ((if x.joinedCapable then 1 else 0) + (if x.aicOverride then 2 else 0)) ++ bytesLE 7 0 ++ bytesLE 8 (64 + body.length) ++
    bytesLE 8 program ++ bytesLE 28 0
  head ++ bytesLE 4 (crc32c head).toNat ++ body

/-- Regions from bytes: a memory, the region numbers and the rest. -/
def readRegions : Nat → List Byte → Memory → List Nat → Memory × List Nat × List Byte
  | 0, bs, m, rs => (m, rs, bs)
  | n + 1, bs, m, rs =>
    let r := natLE (bs.take 4)
    readRegions n (bs.drop 4100) (memWrite m (r * 4096) ((bs.drop 4).take 4096)) (rs ++ [r])

/-- The image of one logical sheet from bytes, and the rest. What a task of the exporting part left waiting has no command here,
and is left out (log entry 37). -/
def readSheet (n logical : Nat) (bs : List Byte) : SheetImage × List Byte :=
  let (felt, rs, bs) := readRegions (natLE (bs.take 4)) (bs.drop 4) [] []
  let words := fun (off count : Nat) => (wordsAt 4 count (bs.drop off)).map (fun w => BitVec.ofNat 32 w)
  let rows := fun (l : List W32) (w : Nat) (k : Nat) => (List.range k).map (fun i => (l.drop (w * i)).take w)
  let accs := (wordsAt 8 1024 (bs.drop 8192)).map (fun w => BitVec.ofNat 64 w)
  let tail := words (16384 + 256) 48
  let kinds := (bs.drop (16640 + 192)).take 4
  ({ logical := logical
     felt := felt
     tags := (sortBy (fun a b => decide (a < b)) rs).map (fun r => (r, n))
     vregs := rows (words 0 2048) 64 32
     banks := (List.range 4).map (fun b => ⟨accOf (nth kinds b 0).toNat, (accs.drop (256 * b)).take 256⟩)
     taps := rows (words 16384 64) 16 4
     xregs := tail.take 32
     csrs := csrsOf ((tail.drop 32).take 15)
     pc := nth tail 47 0
     task := none
     wait := none
     window := []
     stalled := []
     records := []
     deferred := []
     claimed := []
     notReady := []
     nextTag := 0 }, bs.drop 16896)

/-- Logical sheets from bytes. -/
def readSheets (n : Nat) : Nat → Nat → List Byte → List SheetImage × List Byte
  | 0, _, bs => ([], bs)
  | k + 1, i, bs =>
    let (m, bs) := readSheet n i bs
    let (l, bs) := readSheets n k (i + 1) bs
    (m :: l, bs)

/-- Pools from bytes. -/
def readPools : Nat → List Byte → List Memory
  | 0, _ => []
  | k + 1, bs =>
    let (m, _, bs) := readRegions (natLE (bs.take 4)) (bs.drop 4) [] []
    m :: readPools k bs

/-! ### Built-in commands (R124, R431) -/

/-- What a built-in command comes to. -/
inductive Built where
  | wait (c : Chip)
  | done (c : Chip) (status : Nat)

/-- A built-in command runs when it may start; it completes with a status, or goes on waiting. -/
def builtin (n uid : Nat) (act : Chip → Command → Built) (c : Chip) : Chip :=
  match c.command uid with
  | none => c
  | some k =>
    if k.desc.program ≠ builtinFirst + n ∨ k.ending.isSome ∨ ¬ c.mayStart k then c
    else match act (c.updCommand uid (fun k => { k with placed := true })) k with
      | .wait c => c
      | .done c status => c.finishCommand k ⟨status, 0, 0⟩

/-- Word i of PARAMS. -/
def Command.param (k : Command) (i : Nat) : Nat := (nth k.desc.params i 0).toNat

/-- Write a result to output slot 0; PROT beyond its length (R143). -/
def Chip.result (c : Chip) (k : Command) (bs : List Byte) : Built :=
  let r := k.tensorRange 8
  if r.2 < bs.length then .done c 0x10 else .done (c.twrite k.slot r.1 bs) 0

/-- PROGRAM_LOAD (R124): the image of input slot 0 is verified, loaded and digested; its record goes to output slot 0. -/
def programLoad (uid : Nat) (c : Chip) : Chip :=
  builtin 1 uid (fun c k =>
    let r := k.tensorRange 0
    let bs := c.treadN k.slot r.1 r.2
    if ¬ Config.imageVerifies bs then .done c 0x20
    else if (k.tensorRange 8).2 < 16 then .done c 0x10
    else
      let h := c.nextProgram
      let d := sha256 bs
      let p : Program := ⟨some k.slot, bs, d, Config.imageDraw bs⟩
      let c : Chip := { c.digested (c.homeOf k) r.2 with programs := tabPut c.programs h p, nextProgram := h + 1 }
      c.result k (bytesLE 4 h ++ bytesLE 4 0 ++ d.take 8)) c

/-- PROGRAM_UNLOAD (R124, R431). -/
def programUnload (uid : Nat) (c : Chip) : Chip :=
  builtin 2 uid (fun c k =>
    let h := k.param 0
    match tabGet c.programs h with
    | none => .done c 0x14
    | some p =>
      if p.slot ≠ some k.slot ∨ c.commands.any (fun m => m.desc.program == h) then .done c 0x14
      else .done { c with programs := tabDel c.programs h } 0) c

/-- The couch area of a context in bytes (R431). -/
def couchArea (footprint pool quires : Nat) : Nat := roundUp (footprint * (393216 + 16896) + pool * quires + 65536) 2097152

/-- The quires that firmware spreads a context over: those of its gang, or the fewest that hold it. -/
def Context.spread (x : Context) : Nat := if x.gang.isEmpty then ceilDiv x.footprint 64 else x.quires.length

/-- A new context: QUOTA where a ream holds 256 already or its couch area does not fit; else its number, placed on chip where
there is room. -/
def Chip.newContext (c : Chip) (x : Context) : Option (Nat × Chip) :=
  let full := (List.range 4).any (fun r =>
    x.reamMask.testBit r && decide (256 ≤ (c.contexts.filter (fun (y : Nat × Context) => y.2.reamMask.testBit r)).length))
  match (List.range 65535).find? (fun n => (c.context n).isNone) with
  | none => none
  | some n =>
    let x := if x.place = .onChip then
        (match c.findGang x [] with
         | some g => { x with gang := g }
         | none => { x with place := .couched })
      else x
    let area := couchArea x.footprint x.poolBytes x.spread
    if full ∨ ¬ c.quotaRoom x.slot 0 area ∨ c.t2Free < area then none
    else some (n, { c with contexts := tabPut c.contexts n { x with couchPages := area / 2097152 } })

/-- CONTEXT_CREATE (R124, R431). -/
def contextCreate (uid : Nat) (c : Chip) : Chip :=
  builtin 3 uid (fun c k =>
    let w0 := k.param 0
    let w1 := k.param 1
    let x : Context :=
      { slot := k.slot, footprint := w0 % 2048 + 1, reamMask := w1 % 16, joinedCapable := w1.testBit 4, poolBytes := k.param 2 * 4096,
        place := .onChip, gang := [], images := [], queued := [], blockedSince := none, runnableSince := none, aic := c.aic,
        aicOverride := false, couchPages := 0, pools := [], couchStart := 0, evicting := false }
    if (k.tensorRange 8).2 < 4 then .done c 0x10
    else match c.newContext x with
      | none => .done c 0x50
      | some (n, c) =>
        (c.logOp (k.slot + 2) 1 n (BitVec.ofNat 32 w0) (BitVec.ofNat 32 w1)).result k (bytesLE 4 n)) c

/-- CONTEXT_DESTROY (R124): it waits for the context's other commands. -/
def contextDestroy (uid : Nat) (c : Chip) : Chip :=
  builtin 4 uid (fun c k =>
    match c.context k.desc.ctx with
    | none => .done c 0x14
    | some x =>
      if c.commands.any (fun m => m.uid != uid && m.desc.ctx == k.desc.ctx) then .wait c
      else .done ((c.logOp (k.slot + 2) 2 k.desc.ctx (BitVec.ofNat 32 (x.footprint - 1)) (BitVec.ofNat 32 x.reamMask)).freeContext k.desc.ctx) 0) c

/-- The digest prefix of the program that a context's first waiting task runs. -/
def Chip.programsOf (c : Chip) (x : Context) : Nat :=
  match (x.images.filterMap (fun i => i.task)) ++ x.queued with
  | [] => 0
  | t :: _ =>
    match c.command t.cmd with
    | none => 0
    | some m => natLE (((tabGet c.programs m.desc.program).map (fun p => p.digest.take 8)).getD [])

/-- CONTEXT_EXPORT (R124, R141): the context is couched out where it is on chip, then its image is written. -/
def contextExport (uid : Nat) (c : Chip) : Chip :=
  builtin 5 uid (fun c k =>
    match c.context k.desc.ctx with
    | none => .done c 0x14
    | some x =>
      match x.place with
      | .couched => c.result k (x.image (c.programsOf x))
      | .onChip => .wait (c.updContext k.desc.ctx (fun x => { x with place := .couchingOut, couchStart := c.time.uptime, evicting := true }))
      | _ => .wait c) c

/-- CONTEXT_IMPORT (R124, R142): the checks of the image, then a couched context from it. -/
def contextImport (uid : Nat) (c : Chip) : Chip :=
  builtin 6 uid (fun c k =>
    let r := k.tensorRange 0
    let head := c.treadN k.slot r.1 64
    let bytes := byteField head 0x10 8
    let aic := byteField head 4 2
    let anyAic := k.param 0 % 2 == 1
    if r.2 < 64 ∨ (k.tensorRange 8).2 < 4 then .done c 0x10
    else if ¬ crcOk head 60 then .done c 0x20
    else if r.2 < bytes then .done c 0x10
    else match uncrcBlocks (bytes / 65536 + 1) (c.treadN k.slot (r.1 + 64) (bytes - 64)) with
      | none => .done c 0x20
      | some body =>
        if byteField head 2 2 ≠ 0x4044 then .done c 0x40
        else if aic ≠ c.aic ∧ ¬ anyAic then .done c 0x41
        else
          let fp := byteField head 6 2 + 1
          let x : Context :=
            { slot := k.slot, footprint := fp, reamMask := 15, joinedCapable := byteField head 8 1 % 2 == 1, poolBytes := 0,
              place := .couched, gang := [], images := [], queued := [], blockedSince := none, runnableSince := none, aic := c.aic,
              aicOverride := byteField head 8 1 / 2 % 2 == 1 || aic != c.aic, couchPages := 0, pools := [], couchStart := 0,
              evicting := false }
          let (_, rest) := readSheets 0 fp 0 body
          let x := { x with poolBytes := byteField rest 0 4, pools := readPools (byteField rest 4 4) (rest.drop 8) }
          match c.newContext x with
          | none => .done c 0x50
          | some (n, c) =>
            let c := c.updContext n (fun x => { x with images := (readSheets n fp 0 body).1 })
            let c := if aic = c.aic then c else c.logOp (k.slot + 2) 3 n (BitVec.ofNat 32 aic) (BitVec.ofNat 32 c.aic)
            c.result k (bytesLE 4 n)) c

/-- The teardown of a job with an open recovery epoch: its running step ends with RESULT 6, and no step of it is done (R354). -/
def Chip.tearRecord (c : Chip) (job : Nat) : Chip :=
  let c := if c.rcvRunning.any (fun d => d.job == job) then
      let c : Chip := { c with rcvRunning := none }
      (((c.setFlag R.RCV_STAT F.RCV_STAT.BUSY false).setFld R.RCV_STAT F.RCV_STAT.RESULT 6).setFld R.RCV_STAT F.RCV_STAT.STATUS 0).irq 12
    else c
  { c with rcvRecords := c.rcvRecords.map (fun r => if r.job = job ∧ r.closed = false then { r with done := [] } else r) }

/-- JOB_TEARDOWN (R124, R125, R329, R354): through slot 0 or the job's own slot; PROT from another. -/
def jobTeardown (uid : Nat) (c : Chip) : Chip :=
  builtin 7 uid (fun c k =>
    let job := k.param 0
    match c.jobAt job with
    | none => .done c 0
    | some (_, j) =>
      if k.slot ≠ 0 ∧ k.slot ≠ fget j.v0 ⟨26, 6⟩ then .done c 0x10
      else if j.torn then .done c 0
      else .done ((c.tearJob job).tearRecord job) 0) c

/-! ### The end of a slot (R287) -/

/-- Evict the prefix-cache entries of a slot (R246). -/
def Chip.evictSlot (c : Chip) (slot : Nat) : Chip :=
  (c.pfxPool.filter (fun e => e.slot == slot)).foldl (fun c e => c.pfxEvict e) c

/-- Disable a slice and clear its mailboxes. -/
def Chip.sliceOff (c : Chip) (origin i : Nat) : Chip :=
  let c := c.setLogged origin (R.SLICE i) (fput (c.reg (R.SLICE i)) F.SLICE.ENABLE 0)
  (List.range 4).foldl (fun (c : Chip) n =>
    let c : Chip := { c with mbxQueue := tabDel c.mbxQueue (mbxKey (.slice (Fin.ofNat 1024 i)) n) }
    (c.setReg (mbxIn (.slice (Fin.ofNat 1024 i)) n) 0).setReg (mbxOut (.slice (Fin.ofNat 1024 i)) n) 0) c

/-- SLOT_DRAIN_COMPLETE (R287, steps 4 to 6): once the begun commits of a draining slot have drained, its pages, prefix entries,
weights, rings, slices, mailboxes, locks and key go, and the slot is free. -/
def slotDrainComplete (slot : Fin 64) (c : Chip) : Chip :=
  let s := slot.val
  if ¬ c.drains.any (fun d => d.slot == s) ∨ c.slotState s ≠ 2 ∨ c.commands.any (fun k => k.slot == s) ∨
      c.quires.any (fun x => x.2.slots.any (fun y => y.task.slot == s)) then c
  else
    let c := c.evictSlot s
    let origin := s + 2
    let c : Chip := { c with pages := c.pages.filter (fun x => keySlot x.1 != s), weights := tabDel c.weights s,
                             mem := c.mem.filter (fun x => keySlot x.1 != s), kvSealed := c.kvSealed.filter (fun k => keySlot k != s),
                             poison := c.poison.filter (fun l => keySlot l != s),
                             migrations := c.migrations.filter (fun m => keySlot m.key != s),
                             rings := c.rings.filter (fun r => r.slot != s), fapiHeld := tabDel c.fapiHeld s,
                             fapiArrived := tabDel c.fapiArrived s }
    let slices := (List.range 1024).filter (fun i => c.flag (R.SLICE i) F.SLICE.ENABLE && c.sliceSlot i == s)
    let c := slices.foldl (fun c i => c.sliceOff origin i) c
    let c := (List.range 16).foldl (fun (c : Chip) n => if (c.lock n).owner = s + 2 then c.setLock n ⟨0, false⟩ else c) c
    let c : Chip := { c with keys := tabDel c.keys s, drains := c.drains.filter (fun d => d.slot != s) }
    let c := (c.setFlag (R.TEN_STAT s) F.TEN_STAT.KEY_VALID false).setFld (R.TEN_STAT s) F.TEN_STAT.STATE 0
    c.setLogged origin (R.DCK_CTL s) (fput (fput (c.reg (R.DCK_CTL s)) F.DCK_CTL.ENABLE 0) F.DCK_CTL.RELEASE 0)

end Sys2Proof.Machine
end

