-- ==== Sys2Proof/Machine/Clock.lean ====
section
/-! DEFINITION. The clock's inputs (R29 to R36): PTP domains and their servo, frequency sources, and time stamps at the package
balls. -/

namespace Sys2Proof.Machine

/-- Nanoseconds in a second. -/
def nsPerSec : Nat := 1000000000

/-! ### Domains and frequency sources -/

/-- Domain d of the time unit. -/
def Chip.domain (c : Chip) (d : Nat) : Domain := nth c.time.domains d .reset

/-- Change domain d. -/
def Chip.setDomain (c : Chip) (d : Nat) (f : Domain → Domain) : Chip :=
  { c with time := { c.time with domains := updNth c.time.domains d f } }

/-- Domain d is good (R30). -/
def Chip.domGood (c : Chip) (d : Nat) : Bool := c.flag (R.PTP_DOM_STAT d) F.PTP_DOM_STAT.GOOD

/-- The timing state (R31). -/
def Chip.tmState (c : Chip) : Nat := c.fld R.TM_STATE F.TM_STATE.STATE

/-- FREERUN of R31. -/
def tmFreerun : Nat := 0
/-- ACQUIRING of R31. -/
def tmAcquiring : Nat := 1
/-- LOCKED_A of R31; LOCKED_B is one above. -/
def tmLockedA : Nat := 2
/-- LOCKED_B of R31. -/
def tmLockedB : Nat := 3
/-- PPS of R31. -/
def tmPps : Nat := 4
/-- HOLDOVER of R31. -/
def tmHoldover : Nat := 5

/-- Radio time is valid in LOCKED_A, LOCKED_B, PPS and HOLDOVER (R31). -/
def tmValid (s : Nat) : Bool := s == 2 || s == 3 || s == 4 || s == 5

/-- The source FREQ_CFG selects is valid now (R32). -/
def Chip.freqValid (c : Chip) : Bool :=
  match c.fld R.FREQ_CFG F.FREQ_CFG.SOURCE with
  | 1 => c.time.synceValid
  | 2 => c.time.ref10mValid
  | _ => false

/-- FREQ_ACTIVE follows the selected source while it is valid. -/
def Chip.freqRefresh (c : Chip) : Chip :=
  c.setFld R.TM_STATE F.TM_STATE.FREQ_ACTIVE (if c.freqValid then c.fld R.FREQ_CFG F.FREQ_CFG.SOURCE else 0)

/-- The validity of a frequency source changes; an assisting source lost in holdover is noted at its first
loss (R32). -/
def Chip.setFreqSource (c : Chip) (src : FreqSource) (valid : Bool) : Chip :=
  let before := c.freqValid
  let c := match src with
    | .syncE => { c with time := { c.time with synceValid := valid } }
    | .ref10M => { c with time := { c.time with ref10mValid := valid } }
  let c := match c.time.holdover with
    | some h =>
      if h.assisted ∧ before ∧ ¬ c.freqValid ∧ h.sourceLost = none then
        { c with time := { c.time with holdover := some { h with sourceLost := some c.time.uptime } } }
      else c
    | none => c
  c.freqRefresh

/-! ### Time stamps (R34, R35) -/

/-- The corrections of R34 by port mode, in units of 10 ps: transmit and receive. -/
def stampCorrection : Nat → Nat × Nat
  | 0 => (4250, 11800)
  | 1 => (4730, 13160)
  | _ => (5580, 16240)

/-- A time in units of 10 ps as chip time (2⁻¹⁶ ns). -/
def tenPs (n : Int) : Int := n * 65536 / 100

/-- The mode of a port. -/
def Chip.portMode (c : Chip) (p : Nat) : Nat := c.fld (R.PORT_CFG p) F.PORT_CFG.MODE

/-- A transmit stamp: the boundary time plus the corrections of the port's mode and board path. -/
def Chip.txStamp (c : Chip) (p : Nat) (boundary : Nat) : Nat :=
  ((boundary : Int) + tenPs ((stampCorrection (c.portMode p)).1 + signed 16 (c.fld (R.TS_ASYM p) ⟨16, 16⟩))).toNat

/-- A receive stamp: the boundary time less the corrections. -/
def Chip.rxStamp (c : Chip) (p : Nat) (boundary : Nat) : Nat :=
  ((boundary : Int) - tenPs ((stampCorrection (c.portMode p)).2 + signed 16 (c.fld (R.TS_ASYM p) ⟨0, 16⟩))).toNat

/-! ### PTP messages (R30; the offset is that of IEEE 1588, log entry 39) -/

/-- The domain that a received PTP message belongs to. -/
def Chip.ptpDomain (c : Chip) (p sub number : Nat) : Option Nat :=
  (List.range 2).find? (fun d =>
    let r := c.reg (R.PTP_DOM_CFG d)
    fget r F.PTP_DOM_CFG.ENABLE == 1 && fget r F.PTP_DOM_CFG.PORT == p && fget r F.PTP_DOM_CFG.SUBPORT == sub &&
      fget r F.PTP_DOM_CFG.DOMAIN_NUM == number)

/-- Half again the Sync interval of R29 in nanoseconds: a longer gap has missed a Sync. -/
def syncGap : Nat := 93750000

/-- A Sync arrived: it counts toward the domain's run where Announce keeps arriving with an acceptable class and no Sync was
missed. -/
def Chip.noteSync (c : Chip) (d stamp : Nat) : Chip :=
  let x := c.domain d
  let ns := stamp / 65536
  let classOk := decide (c.fld (R.PTP_DOM_STAT d) F.PTP_DOM_STAT.GM_CLASS ≤ c.fld (R.PTP_DOM_CFG d) F.PTP_DOM_CFG.CLASS_MAX)
  let run := if ¬ x.announceOk ∨ ¬ classOk then 0 else if x.t2 + syncGap < ns then 1 else x.goodRun + 1
  (c.setDomain d (fun x => { x with goodRun := run, t2 := ns })).setFld (R.PTP_DOM_STAT d) F.PTP_DOM_STAT.LOSS_RUN 0

/-- The servo of domain d takes a new phase estimate, in nanoseconds; PHASE_OFFSET shows it, and is open where it does not fit 32 bits
(log entry 39). -/
def Chip.setPhase (c : Chip) (d : Nat) (off : Int) : Chip :=
  let c := c.setDomain d (fun x => { x with offset := off })
  if -(2 ^ 31) ≤ off ∧ off < 2 ^ 31 then c.setFld (R.PTP_DOM_STAT d) F.PTP_DOM_STAT.PHASE_OFFSET (unsign 32 off)
  else
    let (w, c) := c.free
    c.setFld (R.PTP_DOM_STAT d) F.PTP_DOM_STAT.PHASE_OFFSET (w.toNat % 2 ^ 32)

/-- A PTP message of a domain, with its receive stamp. -/
def Chip.ptpReceive (c : Chip) (d stamp : Nat) (m : PtpMsg) : Chip :=
  match m with
  | .sync origin =>
    let c := c.noteSync d stamp
    match origin with
    | some t => c.setDomain d (fun x => { x with t1 := t })
    | none => c
  | .followUp t => c.setDomain d (fun x => { x with t1 := t })
  | .delayResp t4 =>
    let x := c.domain d
    c.setPhase d ((((x.t1 : Int) - x.t2) + ((t4 : Int) - x.t3)) / 2)
  | .announce k =>
    let c := c.setFld (R.PTP_DOM_STAT d) F.PTP_DOM_STAT.GM_CLASS k
    c.setDomain d (fun x => { x with announceOk := true, goodRun := if k ≤ c.fld (R.PTP_DOM_CFG d) F.PTP_DOM_CFG.CLASS_MAX then x.goodRun else 0 })

end Sys2Proof.Machine
end

