-- ==== Sys2Proof/Machine/Ports.lean ====
section
/-! DEFINITION. The Ethernet ports (R146 to R151, R159 to R168): modes and links, transmit and receive rings, the egress of a
sub-port, time stamps of frames, and messages to host L2 (R161, R162). -/

namespace Sys2Proof.Machine

/-! ### Ports and links (R146, R147) -/

/-- The sub-ports of a port mode. -/
def modeSubs (mode : Nat) : Nat := 2 ^ mode

/-- A sub-port is there: its port is enabled, and so is it. -/
def Chip.subEnabled (c : Chip) (p s : Nat) : Bool :=
  c.portExists p && c.flag (R.PORT_CFG p) F.PORT_CFG.ENABLE && decide (s < modeSubs (c.portMode p)) &&
    (c.fld (R.PORT_CFG p) F.PORT_CFG.SUB_EN).testBit s

/-- The link of a sub-port is up. -/
def Chip.linkIsUp (c : Chip) (p s : Nat) : Bool := (c.fld (R.PORT_STAT p) F.PORT_STAT.LINK_UP).testBit s

/-- The counters of a sub-port by their number (R168). -/
def portRx : Nat := 0
/-- RX_BYTES. -/
def portRxBytes : Nat := 1
/-- RX_FCS_ERR. -/
def portFcs : Nat := 2
/-- RX_LEN_ERR. -/
def portLen : Nat := 3
/-- RX_PAUSE. -/
def portPause : Nat := 4
/-- FEC_CORR_CW. -/
def portFecOk : Nat := 5
/-- FEC_UNCORR_CW. -/
def portFecBad : Nat := 6
/-- TX_FRAMES. -/
def portTx : Nat := 7
/-- TX_BYTES. -/
def portTxBytes : Nat := 8
/-- TX_DISCARD. -/
def portDiscard : Nat := 9

/-- Count on a sub-port; a full counter sets STICKY_SAT. -/
def Chip.portCount (c : Chip) (p s n inc : Nat) : Chip :=
  let r := R.PORT_CNT p s n
  let v := (c.reg r).toNat + inc
  if v < 2 ^ 64 then c.setReg r (BitVec.ofNat 64 v)
  else (c.setReg r (BitVec.ofNat 64 (2 ^ 64 - 1))).mark (R.PORT_STAT p) F.PORT_STAT.STICKY_SAT

/-- An enabled stream, PTP domain, SyncE source or class 0 queue names a port (R147). -/
def Chip.portNamed (c : Chip) (p : Nat) : Bool :=
  (List.range 4096).any (fun i => c.flag (R.STRM_CFG i) F.STRM_CFG.ENABLE && c.fld (R.STRM_CFG i) F.STRM_CFG.PORT == p) ||
  (List.range 2).any (fun d => c.flag (R.PTP_DOM_CFG d) F.PTP_DOM_CFG.ENABLE && c.fld (R.PTP_DOM_CFG d) F.PTP_DOM_CFG.PORT == p) ||
  (c.fld R.FREQ_CFG F.FREQ_CFG.SOURCE == 1 && c.fld R.FREQ_CFG F.FREQ_CFG.PORT == p) ||
  (c.eg p).class0.any (fun x => x.2.enable)

/-- A link is lost: its bits fall and it is counted. -/
def Chip.dropLink (c : Chip) (p s : Nat) : Chip :=
  if ¬ c.linkIsUp p s then c
  else
    let c := c.setFld (R.PORT_STAT p) F.PORT_STAT.LINK_UP (clearBit (c.fld (R.PORT_STAT p) F.PORT_STAT.LINK_UP) s)
    let c := c.setFld (R.PORT_STAT p) F.PORT_STAT.FEC_LOCK (clearBit (c.fld (R.PORT_STAT p) F.PORT_STAT.FEC_LOCK) s)
    let c := c.bump (R.PORT_STAT p) F.PORT_STAT.LINK_DOWN_CNT 1
    let c : Chip := { c with linkDownAt := tabPut c.linkDownAt (p * 4 + s) c.time.uptime }
    let sync := c.fld R.FREQ_CFG F.FREQ_CFG.PORT == p && c.fld R.FREQ_CFG F.FREQ_CFG.SUBPORT == s
    if sync then c.setFreqSource .syncE false else c

/-- The frames queued on a port are discarded and counted (R147). -/
def Chip.discardFrames (c : Chip) (p : Nat) : Chip :=
  let e := c.eg p
  let n := fun (s : Nat) =>
    e.queues.foldl (fun a x => if x.2.place.subport = s then a + x.2.frames.length else a) 0 +
    e.class0.foldl (fun a x => if x.2.subport = s then a + x.2.frames.length else a) 0 + (tabGetD e.ptp s []).length
  let c := (List.range 4).foldl (fun c s => c.portCount p s portDiscard (n s)) c
  c.updEg p (fun e =>
    { e with queues := e.queues.map (fun x => (x.1, ({ x.2 with frames := [] }).emptied)),
             class0 := e.class0.map (fun x => (x.1, { x.2 with frames := [] })), ptp := [] })

/-- Apply a PORT_CFG write (R147): a change of MODE, or an ENABLE that falls, drops the port's links and frames. -/
def applyPortCfg (origin p : Nat) (v : W64) (c : Chip) : Chip :=
  let r := R.PORT_CFG p
  let old := c.reg r
  let change := fget v F.PORT_CFG.MODE != fget old F.PORT_CFG.MODE || (fget old F.PORT_CFG.ENABLE == 1 && fget v F.PORT_CFG.ENABLE == 0)
  if ¬ regFits .PORT_CFG v ∨ (change ∧ c.portNamed p) then c.mark (R.PORT_STAT p) F.PORT_STAT.CFG_REFUSED
  else
    let c := c.setLogged origin r (regWrite .PORT_CFG old v)
    let c := (List.range 4).foldl (fun c s => if change ∨ ¬ c.subEnabled p s then c.dropLink p s else c) c
    if change then c.discardFrames p else c

/-- PORT_CFG_WRITE (R147). -/
def portCfgWrite (r : Requester) (port : Fin 4) (v k : W32) (c : Chip) : Chip :=
  if c.portExists port.val then pairWrite r atChip (R.PORT_CFG port.val).addr false (k == ~~~ v) (applyPortCfg (c.origin r) port.val (v.setWidth 64)) c else c

/-- LINK_UP (R147): the link of an enabled sub-port has trained, its FEC aligned. -/
def linkUp (port sub : Fin 4) (c : Chip) : Chip :=
  let p := port.val
  let s := sub.val
  if ¬ c.subEnabled p s ∨ c.linkIsUp p s then c
  else
    let c := c.setFld (R.PORT_STAT p) F.PORT_STAT.LINK_UP (setBit (c.fld (R.PORT_STAT p) F.PORT_STAT.LINK_UP) s)
    let c := c.setFld (R.PORT_STAT p) F.PORT_STAT.FEC_LOCK (setBit (c.fld (R.PORT_STAT p) F.PORT_STAT.FEC_LOCK) s)
    { c with linkDownAt := tabDel c.linkDownAt (p * 4 + s), linkUpTick := tabPut c.linkUpTick (p * 4 + s) c.tick }

/-! ### Transmit rings (R150, R296) -/

/-- Count an ignored or discarded entry in a slice. -/
def Chip.badEntry (c : Chip) (slice : Nat) : Chip := c.bump (R.DB_ERR slice) F.DB_ERR.BAD_CNT 1

/-- A transmit descriptor: the frame enters its DRR queue, or the descriptor is discarded and counted. -/
def Chip.txDescriptor (c : Chip) (r : Ring) (bs : List Byte) : Chip :=
  let f := byteField bs
  let flags := f 14 1
  let p := (if flags.testBit 1 then 2 else 0) + (if flags.testBit 2 then 1 else 0)
  let q := f 12 2 % 1024
  let len := f 8 2
  let place := ((c.eg p).queue q).place
  let ok := crcOk bs 28 && decide (60 ≤ len) && decide (len ≤ 9596) && f 12 2 / 1024 == 0 && flags / 8 == 0 && f 15 8 == 0 && f 23 5 == 0 &&
    c.portExists p && place.enable && place.group == c.shpGroupOf r.slot p && c.permitted r.slot (f 0 8) len false
  if ¬ ok then c.badEntry r.slice
  else
    let frame : Frame :=
      { data := c.treadN r.slot (f 0 8) len
        length := len + 4
        tsId := if flags.testBit 0 then some (BitVec.ofNat 16 (f 10 2)) else none
        ptp := none }
    c.updEg p (fun e => e.setQueue q { e.queue q with frames := (e.queue q).frames ++ [frame] })

/-- Consume the descriptors up to the tail: after each, the head index goes behind the ring's last entry, and its vector is
signalled where INT_EN is set. -/
def Chip.txRun (c : Chip) (slot q : Nat) : Nat → Chip
  | 0 => c
  | n + 1 =>
    match c.ring slot 2 q with
    | none => c
    | some r =>
      if r.own = r.soft then c
      else
        let c := c.txDescriptor r (c.treadN slot (r.base + 32 * r.own) 32)
        let head := (r.own + 1) % r.size
        let c := (c.updRing slot 2 q (fun r => { r with own := head })).twrite slot (r.base + 32 * r.size) (bytesLE 4 head)
        let c := if r.intEn then c.slotVector slot r.vector else c
        c.txRun slot q n

/-- ETH_TX_TAIL_WRITE (R114, R150). -/
def ethTxTailWrite (slice : Fin 1024) (q : Fin 64) (v : W32) (c : Chip) : Chip :=
  let i := slice.val
  if ¬ c.sliceOn i then c
  else
    let c := c.tailWrite i 2 q.val (v.toNat % 65536) (R.ETH_TX_TAIL i q.val)
    match c.ring (c.sliceSlot i) 2 q.val with
    | some r => if r.slice = i then c.txRun r.slot q.val r.size else c
    | none => c

/-! ### Receive rings (R149, R151) -/

/-- ETH_RX_TAIL_WRITE (R114, R151): software posts buffers. -/
def ethRxTailWrite (slice : Fin 1024) (q : Fin 64) (v : W32) (c : Chip) : Chip :=
  if ¬ c.sliceOn slice.val then c
  else c.tailWrite slice.val 3 q.val (v.toNat % 65536) (R.ETH_RX_TAIL slice.val q.val)

/-- A frame that finds no posted buffer is dropped and counted in the ring's slice. -/
def Chip.noBuffer (c : Chip) (slice ring : Nat) : Chip :=
  (c.bump (R.RX_NOBUF slice) F.RX_NOBUF.COUNT 1).setFld (R.RX_NOBUF slice) F.RX_NOBUF.RING ring

/-- The lowest enabled slice of a slot. -/
def Chip.firstSlice (c : Chip) (slot : Nat) : Nat :=
  ((List.range 1024).find? (fun i => c.sliceOn i && c.sliceSlot i == slot)).getD 0

/-- The bytes of a receive completion (R151). -/
def rxCompletion (buf len p s stamp : Nat) (phase : Bool) : List Byte :=
  let head := bytesLE 8 buf ++ bytesLE 2 len ++ bytesLE 1 (p % 4 + 4 * (s % 4)) ++ bytesLE 1 (if phase then 128 else 0) ++ bytesLE 4 0 ++
    bytesLE 4 (stamp / 65536 % nsPerSec) ++ bytesLE 4 (stamp / 65536 / nsPerSec % 2 ^ 32) ++ bytesLE 4 0
  head ++ bytesLE 4 (crc32c head).toNat

/-- Deliver a frame to receive ring q of a slot: into the posted buffer, its completion over the posted entry. A frame longer
than the buffer counts as one without (log entry 40). -/
def Chip.rxDeliver (c : Chip) (slot q p s stamp : Nat) (data : List Byte) : Chip :=
  match c.ring slot 3 q with
  | none => c.noBuffer (c.firstSlice slot) q
  | some r =>
    let entry := r.base + 32 * r.own
    let buf := c.treadNat slot entry 8
    if r.own = r.soft ∨ 256 * r.bufUnits < data.length ∨ ¬ c.permitted slot buf data.length true then c.noBuffer r.slice q
    else
      let next := (r.own + 1) % r.size
      let c := (c.twrite slot buf data).twrite slot entry (rxCompletion buf data.length p s stamp r.phase)
      let c := c.updRing slot 3 q (fun r => { r with own := next, phase := if next = 0 then !r.phase else r.phase })
      if r.intEn then c.slotVector slot r.vector else c

/-- The steering entry that a frame matches first (R149). -/
def Chip.steer (c : Chip) (p : Nat) (dmac : BitVec 48) (vid : BitVec 12) : Option (Nat × Nat) :=
  ((List.range 256).find? (fun i =>
    let w := c.reg (R.STEER0 p i)
    fget w F.STEER0.VALID == 1 && fget w F.STEER0.DMAC == dmac.toNat &&
      (fget w F.STEER0.MATCH_VID == 0 || fget w F.STEER0.VID == vid.toNat))).map (fun i =>
    (c.fld (R.STEER1 p i) F.STEER1.SLOT, c.fld (R.STEER1 p i) F.STEER1.RING))

/-! ### Sending (R36, R159, R164) -/

/-- A stamp enters the port's queue of 64, or is dropped and counted; the port's interrupt follows (R36, R403). -/
def Chip.pushStamp (c : Chip) (p s : Nat) (id : W16) (stamp : Nat) : Chip :=
  let q := nth c.tsq p []
  if q.length < 64 then
    let e : TxStamp := ⟨id, stamp / 65536 / nsPerSec, stamp / 65536 % nsPerSec, s⟩
    let c : Chip := { c with tsq := setNth c.tsq p (q ++ [e]) }
    let c := c.setFld (R.TSQ_STAT p) F.TSQ_STAT.COUNT (q.length + 1)
    if q.isEmpty then c.irq (4 + p) else c
  else ((c.bump (R.TSQ_STAT p) F.TSQ_STAT.OVF_CNT 1).mark (R.TSQ_STAT p) F.TSQ_STAT.STICKY_OVF).irq (4 + p)

/-- The released class 0 queue of a sub-port that sends next: the earliest release, the lowest number on a tie. -/
def EgPort.releasedNext (e : EgPort) (s : Nat) : Option Nat :=
  (e.class0.foldl (fun (best : Option (Nat × Int)) x =>
    match x.2.released, x.2.frames with
    | some t, _ :: _ =>
      if x.2.enable ∧ x.2.subport = s then
        (match best with
         | some (_, b) => if t < b then some (x.1, t) else best
         | none => some (x.1, t))
      else best
    | _, _ => best) none).map (·.1)

/-- The frame that a sub-port sends next by the classes of R164. -/
def EgPort.nextFrame (e : EgPort) (ovh s : Nat) : Option (Frame × EgPort) :=
  match e.releasedNext s with
  | some i =>
    (match (e.c0 i).frames with
     | f :: t => some (f, e.setC0 i { e.c0 i with frames := t })
     | [] => none)
  | none =>
    match tabGetD e.ptp s [] with
    | f :: t => some (f, { e with ptp := tabPut e.ptp s t })
    | [] => e.drr ovh s

/-- The fronthaul unit's frames enter their class 0 queues. -/
def EgPort.place (e : EgPort) (s : Nat) (placed : List (Nat × List Byte)) : EgPort :=
  placed.foldl (fun (e : EgPort) x =>
    let q := e.c0 x.1
    if q.enable ∧ q.subport = s then e.setC0 x.1 { q with frames := q.frames ++ [⟨x.2, x.2.length + 4, none, none⟩] } else e) e

/-- FRAME_TRANSMIT (R34, R36, R159, R164 to R167): the frames that the fronthaul unit has packetised enter their class 0 queues,
and the sub-port sends one frame of the first class that has an eligible one. -/
def frameTransmit (port sub : Fin 4) (placed : List (Nat × List Byte)) (c : Chip) : Chip :=
  let p := port.val
  let s := sub.val
  let c := c.updEg p (fun e => e.place s placed)
  if ¬ c.linkIsUp p s then c
  else match (c.eg p).nextFrame (c.fld (R.PORT_CFG p) F.PORT_CFG.SHP_OVH) s with
    | none => c
    | some (f, e) =>
      let stamp := c.txStamp p c.time.chip
      let c := ((c.updEg p (fun _ => e)).portCount p s portTx 1).portCount p s portTxBytes f.length
      let c := c.perf .chip 0x07 f.length
      let c := match f.tsId with
        | some id => c.pushStamp p s id stamp
        | none => c
      match f.ptp with
      | some d => (c.setDomain d (fun x => { x with t3 := stamp / 65536 })).send (.delayReq d p s)
      | none => c.send (.frame p s f.data)

/-- DELAY_REQ_SEND (R29, R164): the slave of an enabled domain enqueues a Delay_Req in class 1 of its sub-port. -/
def delayReqSend (d : Fin 2) (c : Chip) : Chip :=
  let r := c.reg (R.PTP_DOM_CFG d)
  if fget r F.PTP_DOM_CFG.ENABLE = 0 then c
  else
    let s := fget r F.PTP_DOM_CFG.SUBPORT
    c.updEg (fget r F.PTP_DOM_CFG.PORT) (fun e => { e with ptp := tabUpd e.ptp s [] (fun l => l ++ [⟨[], 64, none, some d.val⟩]) })

/-- Released frames of a class 0 queue are dropped and counted in TX_LATE. -/
def Class0Queue.dropReleased (q : Class0Queue) : Class0Queue :=
  match q.released with
  | some _ => { q with frames := [], txLate := min (2 ^ 32 - 1) (q.txLate + q.frames.length), released := none }
  | none => q

/-- CLASS0_DROP_AFTER (R159): frames unsent DROP_AFTER fine ticks after their release are dropped. -/
def class0DropAfter (port : Fin 4) (queue : Fin 1024) (c : Chip) : Chip :=
  let q := (c.eg port.val).c0 queue.val
  match q.released with
  | some t => if t + q.dropAfter ≤ c.tick then c.updEg port.val (fun e => e.setC0 queue.val q.dropReleased) else c
  | none => c

/-- A release event (R38 action 4, R159): the queue may send; one that is disabled or bound elsewhere is counted in BAD_REL. -/
def Chip.releaseQueue (c : Chip) (p s i : Nat) (tick : Int) : Chip :=
  let q := (c.eg p).c0 i
  if ¬ q.enable ∨ q.subport ≠ s then c.bump (R.SHP_STAT p) F.SHP_STAT.BAD_REL 1
  else
    let q := { q with released := some tick }
    c.updEg p (fun e => e.setC0 i (if c.linkIsUp p s then q else q.dropReleased))

/-! ### Messages to host L2 (R161, R162) -/

/-- Open bytes: a message's encoding in the SCF framing is not the spec's (log entry 41). -/
def Chip.openBytes (c : Chip) (n : Nat) : List Byte × Chip :=
  ((List.range n).map (fun i => (Config.freeWord (c.freeCtr + i)).setWidth 8), { c with freeCtr := c.freeCtr + n })

/-- The entry of a message in a ring (R161). -/
def fapiEntry (buf used cell : Nat) (phase : Bool) : List Byte :=
  let head := bytesLE 8 buf ++ bytesLE 4 used ++ bytesLE 2 cell ++ bytesLE 1 (if phase then 128 else 0) ++ bytesLE 13 0
  head ++ bytesLE 4 (crc32c head).toNat

/-- The cell that a message names. -/
def msgCell : FapiMsg → Nat
  | .paramResponse i | .configResponse i _ | .stopInd i | .errorInd i _ | .slotInd i _ _ | .rxData i _ _ _ _ _ | .crcInd i _ _ _ _ _ _
  | .uciInd i _ _ _ _ _ _ _ _ | .srsInd i _ _ _ _ | .rachInd i _ _ _ => i

/-- Write one message into a posted buffer, and its entry. -/
def Chip.fapiWrite (c : Chip) (r : Ring) (m : FapiMsg) : Chip :=
  let entry := r.base + 32 * r.own
  let buf := c.treadNat r.slot entry 8
  let (w, c) := c.free
  let used := w.toNat % (256 * r.bufUnits) + 1
  let (bs, c) := c.openBytes used
  let next := (r.own + 1) % r.size
  let c := (c.twrite r.slot buf bs).twrite r.slot entry (fapiEntry buf used (msgCell m) r.phase)
  let c := c.updRing r.slot 5 0 (fun r => { r with own := next, phase := if next = 0 then !r.phase else r.phase })
  (c.slotVector r.slot r.vector).send (.fapi r.slot m)

/-- Send a message to host L2 of a slot; without a posted buffer it is held, in order (R161, R123). -/
def Chip.fapiSend (c : Chip) (slot : Nat) (m : FapiMsg) : Chip :=
  match c.ring slot 5 0 with
  | none => c
  | some r =>
    if r.own = r.soft ∨ ¬ (tabGetD c.fapiHeld slot []).isEmpty then { c with fapiHeld := tabUpd c.fapiHeld slot [] (fun l => l ++ [m]) }
    else c.fapiWrite r m

/-- Held messages go out while buffers are posted. -/
def Chip.fapiRelease (c : Chip) (slot : Nat) : Nat → Chip
  | 0 => c
  | n + 1 =>
    match c.ring slot 5 0, tabGetD c.fapiHeld slot [] with
    | some r, m :: t =>
      if r.own = r.soft then c
      else (({ c with fapiHeld := if t.isEmpty then tabDel c.fapiHeld slot else tabPut c.fapiHeld slot t }).fapiWrite r m).fapiRelease slot n
    | _, _ => c

/-- FAPI_HEAD_WRITE (R161): host L2 has posted buffers up to the new index. -/
def fapiHeadWrite (slice : Fin 1024) (v : W32) (c : Chip) : Chip :=
  let i := slice.val
  if ¬ c.sliceOn i then c
  else
    let slot := c.sliceSlot i
    let c := c.tailWrite i 5 0 (v.toNat % 65536) (R.FAPI_HEAD i)
    c.fapiRelease slot (tabGetD c.fapiHeld slot []).length

end Sys2Proof.Machine
end

