-- ==== Sys2Proof/Machine/Fronthaul.lean ====
section
/-! DEFINITION. Fronthaul (R149, R152 to R160): the stream table, reception windows, decompression into CBX12, the uplink gain
step, and the frames that a port receives. -/

namespace Sys2Proof.Machine

/-! ### Streams (R153, R158) -/

/-- A window that is closed. -/
def windowReset : RxWindow := ⟨false, 0, 0, 0, 0, none, [], false, [], []⟩

/-- A stream at reset. -/
def streamReset : Stream := ⟨List.replicate 4 windowReset, [], [], []⟩

/-- Stream i. -/
def Chip.stream (c : Chip) (i : Nat) : Stream := tabGetD c.streams i streamReset

/-- Put stream i. -/
def Chip.setStream (c : Chip) (i : Nat) (s : Stream) : Chip := { c with streams := tabPut c.streams i s }

/-- Window w of stream i. -/
def Stream.win (s : Stream) (w : Nat) : RxWindow := nth s.windows w windowReset

/-- Put window w. -/
def Stream.setWin (s : Stream) (w : Nat) (x : RxWindow) : Stream := { s with windows := setNth s.windows w x }

/-- A field of STRM_CFG. -/
def Chip.strm (c : Chip) (i : Nat) (f : Fld) : Nat := c.fld (R.STRM_CFG i) f

/-- The stream is enabled and receives. -/
def Chip.uplink (c : Chip) (i : Nat) : Bool := c.strm i F.STRM_CFG.ENABLE == 1 && c.strm i F.STRM_CFG.DIR == 0

/-- Gain groups of a stream configuration. -/
def gainGroups (v : W64) : Nat := ceilDiv (fget v F.STRM_CFG.NUM_PRB) (2 ^ fget v F.STRM_CFG.GRP_LOG2)

/-- FIXED_GAIN. -/
def Chip.fixedGain (c : Chip) (i : Nat) : Int := signed 5 (c.fld (R.STRM_AGC i) F.STRM_AGC.FIXED_GAIN)

/-- The four values by which a frame finds its stream. -/
def strmKey (v : W64) : List Nat :=
  [fget v F.STRM_CFG.PORT, fget v F.STRM_CFG.SUBPORT, fget v F.STRM_CFG.VID, fget v F.STRM_CFG.EAXC_ID]

/-- Another enabled stream has the same four values. -/
def Chip.strmTaken (c : Chip) (i : Nat) (v : W64) : Bool :=
  fget v F.STRM_CFG.ENABLE == 1 &&
  (List.range 4096).any (fun j => j != i && c.strm j F.STRM_CFG.ENABLE == 1 && strmKey (c.reg (R.STRM_CFG j)) == strmKey v)

/-- Apply a STRM_CFG write (R153, R158, R427): modulation compression is for the downlink. An enabled stream starts each group at
FIXED_GAIN. -/
def applyStrmCfg (origin i : Nat) (v : W64) (c : Chip) : Chip :=
  let old := c.reg (R.STRM_CFG i)
  if ¬ regFits .STRM_CFG v ∨ (fget v F.STRM_CFG.COMP = 2 ∧ fget v F.STRM_CFG.DIR = 0) then c.refuse427
  else if 64 < gainGroups v then c.setFld R.FH_STAT F.FH_STAT.CFG_ERR 1
  else if c.strmTaken i v then c.integrity atChip
  else
    let new := regWrite .STRM_CFG old v
    let c := c.setLogged origin (R.STRM_CFG i) new
    let n := gainGroups new
    if fget new F.STRM_CFG.ENABLE = 1 ∧ (fget old F.STRM_CFG.ENABLE = 0 ∨ n ≠ (c.stream i).gains.length) then
      c.setStream i { streamReset with gains := List.replicate n (c.fixedGain i), runs := List.replicate n 0 }
    else c

/-- STRM_CFG_WRITE (R153). -/
def strmCfgWrite (r : Requester) (stream : Fin 4096) (v k : W64) (c : Chip) : Chip :=
  pairWrite r atChip (R.STRM_CFG stream.val).addr false (k == ~~~ v) (applyStrmCfg (c.origin r) stream.val v) c

/-! ### The grid buffer (R156) -/

/-- Write into the radio region of a ream: in HBM, or in its quire 0 pool. -/
def Chip.radioWrite (c : Chip) (ream target off : Nat) (bs : List Byte) : Chip :=
  if target = 1 then c.updQuire (c.radioHome ream) (fun q => { q with pool := memWrite q.pool (poolKey 0xFFFF off) bs })
  else { c with radioMem := memWrite c.radioMem (ream * 2 ^ 40 + off) bs }

/-- The stride of a stream's windows: the smallest multiple of 256 bytes that holds its PRBs and the bitmap. -/
def gridStride (prbs : Nat) : Nat := roundUp (prbs * 40 + 64) 256

/-- Write into window w of a stream. -/
def Chip.gridWrite (c : Chip) (i w off : Nat) (bs : List Byte) : Chip :=
  let g := c.reg (R.STRM_GRID i)
  c.radioWrite (fget g F.STRM_GRID.REAM) (fget g F.STRM_GRID.TARGET)
    (fget g F.STRM_GRID.OFFSET * 256 + w * gridStride (c.strm i F.STRM_CFG.NUM_PRB) + off) bs

/-- The 64-byte bitmap of the PRBs received. -/
def prbBitmap (prbs : List Nat) : List Byte :=
  bytesLE 64 (prbs.foldl (fun (a : Nat) k => a ||| 2 ^ k) 0)

/-! ### Reception windows (R38, R154, R156) -/

/-- Finish a window that has closed: zeros in every PRB not received, the bitmap behind the last, the radio token complete. What
its symbol brought waits to be measured. -/
def Chip.windowEnd (c : Chip) (i w : Nat) : Chip :=
  let s := c.stream i
  let x := s.win w
  if ¬ x.closing then c
  else
    let n := c.strm i F.STRM_CFG.NUM_PRB
    let c := ((List.range n).filter (fun k => !x.prbs.contains k)).foldl (fun c k => c.gridWrite i w (40 * k) (List.replicate 40 0)) c
    let c := c.gridWrite i w (40 * n) (prbBitmap x.prbs)
    let tok := (c.fld (R.STRM_GRID i) F.STRM_GRID.TOKEN_BASE + w) % 2 ^ 32
    let c : Chip := { c with tokens := tabPut c.tokens (tokenKey radioTokens tok) (tok, true) }
    let s := { s with measured := s.measured ++ [(x.gains, x.sums)] }
    c.setStream i (s.setWin w windowReset)

/-- WINDOW_FINALISE (R156). -/
def windowFinalise (stream : Fin 4096) (w : Fin 4) (c : Chip) : Chip := c.windowEnd stream.val w.val

/-- An open event (R154): the window binds to the symbol that contains the instant less T4MIN, its bitmap cleared. One that is
open rebinds, its PRBs not received counted in LATE. -/
def Chip.openWindow (c : Chip) (i w : Nat) (tick : Int) : Chip :=
  if ¬ c.uplink i then c
  else
    let c := c.windowEnd i w
    let s := c.stream i
    let x := s.win w
    let c := if x.open_ then c.bump (R.STRM_CNT1 i) F.STRM_CNT1.LATE (c.strm i F.STRM_CFG.NUM_PRB - x.prbs.length) else c
    let mu := c.strm i F.STRM_CFG.MU
    let t := tick - c.fld (R.STRM_AGC i) F.STRM_AGC.T4MIN
    let (slot, sym, off) := rtView mu (tickInFrame t)
    let gains := if c.flag (R.STRM_AGC i) F.STRM_AGC.AGC_EN then s.gains else s.gains.map (fun _ => c.fixedGain i)
    c.setStream i (s.setWin w
      { open_ := true, start := t - off, frame := frameOf t, slot := slot, symbol := sym, closeAt := none, prbs := [], closing := false,
        gains := gains, sums := gains.map (fun _ => ⟨0, 0, false⟩) })

/-- A close event (R156). -/
def Chip.closeWindow (c : Chip) (i w : Nat) (tick : Int) : Chip :=
  let s := c.stream i
  let x := s.win w
  if x.open_ then c.setStream i (s.setWin w { x with open_ := false, closing := true, closeAt := some tick }) else c

/-- The windows of a stream close with no data (R33, R160). -/
def Chip.closeEmpty (c : Chip) (i : Nat) (keep : Bool) : Chip :=
  let now := c.tick
  let s := c.stream i
  c.setStream i { s with windows := s.windows.map (fun x =>
    if x.open_ then { x with open_ := false, closing := true, closeAt := some now, prbs := if keep then x.prbs else [] } else x) }

/-! ### Decompression (R157) -/

/-- A part of an uplink sample on the 16-bit scale: the part itself, or the mantissa times 2 to the exponent (log entry 42). -/
def uplinkPart (method width exp : Nat) (v : Int) : Int :=
  if method = 0 then signed 16 (unsign 16 v) else signed width (unsign width v) * 2 ^ exp

/-- A gained part, clamped, as a number of CBX12 packing; with it, that it was clamped. -/
def gainPart (g : Int) (v : Int) : Fval × Bool :=
  let n := v * 2 ^ (g + 8).toNat
  if n < -32768 * 256 then (.fin true 32768 0, true)
  else if 32767 * 256 < n then (.fin false 32767 0, true)
  else (.fin (decide (n < 0)) n.natAbs (-8), false)

/-- One PRB: its 40 bytes, its power before gain, and its clipped samples. -/
def prbConvert (method width : Nat) (g : Int) (p : UPrb) : List Byte × Nat × Nat :=
  let raw := (List.range 12).map (fun k =>
    let v := nth p.vals k (0, 0)
    (uplinkPart method width p.exp v.1, uplinkPart method width p.exp v.2))
  let out := raw.map (fun v => (gainPart g v.1, gainPart g v.2))
  let rne : Nat → Bool → Rnd := fun _ _ => ⟨0, true, 0⟩
  let (prb, _) := cbxPack true rne g (out.map (fun v => (v.1.1, v.2.1)))
  (bytesLE 40 (cbxEncode prb), raw.foldl (fun a v => a + v.1.natAbs ^ 2 + v.2.natAbs ^ 2) 0,
   (out.filter (fun v => v.1.2 || v.2.2)).length)

/-! ### U-plane frames (R152, R155, R156) -/

/-- The compression of a section: none where it is unsupported (R152). -/
def sectionComp (v : W64) (x : USection) : Option (Nat × Nat) :=
  let fix := fun (w : Nat) => if w = 0 then 16 else w
  if fget v F.STRM_CFG.DYN_HDR = 1 then
    match x.comp with
    | some (0, _) => some (0, 16)
    | some (1, w) => if 8 ≤ fix w ∧ fix w ≤ 16 then some (1, fix w) else none
    | _ => none
  else if fget v F.STRM_CFG.COMP = 0 then some (0, 16)
  else some (1, fix (fget v F.STRM_CFG.IQ_WIDTH))

/-- Write one PRB of an on-time section into window w. -/
def Chip.putPrb (c : Chip) (i w method width k : Nat) (p : UPrb) : Chip :=
  let s := c.stream i
  let x := s.win w
  if c.strm i F.STRM_CFG.NUM_PRB ≤ k then c.bump (R.STRM_CNT1 i) F.STRM_CNT1.BAD 1
  else
    let grp := k / 2 ^ c.strm i F.STRM_CFG.GRP_LOG2
    let (bs, power, clips) := prbConvert method width (nth x.gains grp 0) p
    let c := if x.prbs.contains k then c.bump (R.STRM_CNT1 i) F.STRM_CNT1.DUP 1 else c
    let c := c.bump (R.STRM_CNT2 i) F.STRM_CNT2.CLIPS clips
    let x := { x with prbs := if x.prbs.contains k then x.prbs else x.prbs ++ [k],
                      sums := updNth x.sums grp (fun (g : GainSum) => ⟨g.power + power, g.samples + 12, g.clip || clips != 0⟩) }
    (c.gridWrite i w (40 * k) bs).setStream i (s.setWin w x)

/-- Write an on-time section. -/
def Chip.putSection (c : Chip) (i w : Nat) (v : W64) (x : USection) : Chip :=
  match sectionComp v x with
  | none => c
  | some (m, width) => x.prbs.zipIdx.foldl (fun c p => c.putPrb i w m width (x.start + p.2) p.1) c

/-- The symbol of a header after that of a window, in fine ticks: the frame numbers agree modulo 256. -/
def headerAhead (mu : Nat) (e : Ecpri) (x : RxWindow) : Int :=
  let d := (e.frameId.toNat + 256 - x.frame % 256) % 256
  let frames : Int := if d < 128 then d else (d : Int) - 256
  let base := x.start - symStart mu x.slot x.symbol
  base + frames * ticksPerFrame + symStart mu (e.subframe * 2 ^ mu + e.slotId) e.symbol - x.start

/-- The window of a stream that a frame is on time for (R155). -/
def Chip.onTime (c : Chip) (i : Nat) (e : Ecpri) (rx : Int) : Option Nat :=
  let s := c.stream i
  (List.range 4).find? (fun w =>
    let x := s.win w
    (x.open_ || (x.closing && (match x.closeAt with
      | some t => decide (rx < t)
      | none => false))) && headerAhead (c.strm i F.STRM_CFG.MU) e x == 0)

/-- A U-plane frame of stream i: written, early, or late. -/
def Chip.uplane (c : Chip) (i : Nat) (e : Ecpri) (stamp : Nat) : Chip :=
  let v := c.reg (R.STRM_CFG i)
  let mu := fget v F.STRM_CFG.MU
  if e.sections.any (fun x => (sectionComp v x).isNone) then c.bump R.FH_STAT F.FH_STAT.UNSUPPORTED 1
  else if 10 ≤ e.subframe ∨ 2 ^ mu ≤ e.slotId ∨ 14 ≤ e.symbol then c.bump (R.STRM_CNT1 i) F.STRM_CNT1.BAD 1
  else match c.onTime i e (ticksAt stamp c.rtOffset) with
    | some w => e.sections.foldl (fun c x => c.putSection i w v x) (c.bump (R.STRM_CNT0 i) F.STRM_CNT0.ON_TIME 1)
    | none =>
      let opens := (c.stream i).windows.filter (fun x => x.open_)
      let early := !opens.isEmpty && opens.all (fun x => decide (0 < headerAhead mu e x) && decide (headerAhead mu e x < ticksPerFrame))
      if early then c.bump (R.STRM_CNT0 i) F.STRM_CNT0.EARLY 1 else c.bump (R.STRM_CNT1 i) F.STRM_CNT1.LATE 1

/-- The stream of a received eCPRI frame. -/
def Chip.streamFor (c : Chip) (p s : Nat) (vid : BitVec 12) (e : Ecpri) : Option Nat :=
  (List.range 4096).find? (fun i => c.uplink i && strmKey (c.reg (R.STRM_CFG i)) == [p, s, vid.toNat, e.eaxc.toNat])

/-- An eCPRI frame (R149, R152). -/
def Chip.ecpri (c : Chip) (p s stamp : Nat) (vid : BitVec 12) (e : Ecpri) : Chip :=
  if e.revision ≠ 1 ∨ e.concat then c.bump R.FH_STAT F.FH_STAT.UNSUPPORTED 1
  else match c.streamFor p s vid e with
    | none => c.bump R.FH_STAT F.FH_STAT.NO_STREAM 1
    | some i => if e.type ≠ 0 then c.bump R.FH_STAT F.FH_STAT.UNSUPPORTED 1 else c.uplane i e stamp

/-! ### Received frames (R146, R148, R149) -/

/-- FRAME_RECEIVE (R146, R148, R149): the FEC is counted; pause frames, frames with a bad check sequence, two tags or a length
outside its range are dropped and counted; the others go where R149 sends them. -/
def frameReceive (port sub : Fin 4) (f : RxFrame) (c : Chip) : Chip :=
  let p := port.val
  let s := sub.val
  if ¬ c.linkIsUp p s then c
  else
    let c := (c.portCount p s portFecOk f.corrected).portCount p s portFecBad f.uncorrectable
    let c := if f.uncorrectable = 0 then c else c.softError atChip 0x08 .fecOrReplay f.uncorrectable
    if ¬ f.fcsOk then c.portCount p s portFcs 1
    else if 1 < f.tags ∨ f.length < 64 ∨ 9600 < f.length then c.portCount p s portLen 1
    else if f.pause then c.portCount p s portPause 1
    else
      let c := (c.portCount p s portRx 1).portCount p s portRxBytes f.length
      let c := c.perf .chip 0x08 f.length
      let stamp := c.rxStamp p f.boundary
      match f.body with
      | .ptp n m =>
        (match c.ptpDomain p s n with
         | some d => c.ptpReceive d stamp m
         | none => c)
      | .ecpri e => c.ecpri p s stamp f.vid e
      | .other data =>
        match c.steer p f.dmac f.vid with
        | some (slot, q) => c.rxDeliver slot q p s stamp data
        | none => c.rxDeliver 0 0 p s stamp data

/-! ### The gain step (R158) -/

/-- The applied level lies above a bound of 0.01 dB units: mean power over 2³¹, times 10 to the gain, exactly. -/
def levelAbove (s : GainSum) (x : Int) : Bool :=
  let a := s.power ^ 1000
  let b := (s.samples * 2 ^ 31) ^ 1000
  if 0 ≤ x then decide (b * 10 ^ x.toNat < a) else decide (b < a * 10 ^ (-x).toNat)

/-- The applied level lies below a bound. -/
def levelBelow (s : GainSum) (x : Int) : Bool :=
  let a := s.power ^ 1000
  let b := (s.samples * 2 ^ 31) ^ 1000
  if 0 ≤ x then decide (a < b * 10 ^ x.toNat) else decide (a * 10 ^ (-x).toNat < b)

/-- What one symbol makes of a group: its step and run, and the move (1 up, -1 down). `g` is the step in force for the symbol. -/
def gainMove (target band ups : Nat) (g step : Int) (run : Nat) (s : GainSum) : Int × Nat × Int :=
  let hi : Int := 25 * ((band : Int) - target) - 602 * g
  let lo : Int := 25 * (-(band : Int) - target) - 602 * g
  if s.samples = 0 then (step, run, 0)
  else if s.clip ∨ levelAbove s hi then if -8 < step then (step - 1, 0, -1) else (step, 0, 0)
  else if levelBelow s lo then
    if run + 1 < ups then (step, run + 1, 0)
    else if step < 8 then (step + 1, 0, 1) else (step, 0, 0)
  else (step, 0, 0)

/-- GAIN_STEP_UPDATE (R158): the oldest symbol that waits to be measured moves the steps of its groups. -/
def gainStepUpdate (stream : Fin 4096) (c : Chip) : Chip :=
  let i := stream.val
  let s := c.stream i
  match s.measured with
  | [] => c
  | (gs, sums) :: rest =>
    let a := c.reg (R.STRM_AGC i)
    if fget a F.STRM_AGC.AGC_EN = 0 then c.setStream i { s with measured := rest }
    else
      let moves := (List.range s.gains.length).map (fun k =>
        gainMove (fget a F.STRM_AGC.TARGET) (fget a F.STRM_AGC.BAND) (fget a F.STRM_AGC.UP_SYMS) (nth gs k 0) (nth s.gains k 0)
          (nth s.runs k 0) (nth sums k ⟨0, 0, false⟩))
      let c := c.setStream i { s with gains := moves.map (·.1), runs := moves.map (·.2.1), measured := rest }
      let c := c.bump (R.STRM_CNT2 i) F.STRM_CNT2.STEP_UP (moves.filter (fun m => m.2.2 == 1)).length
      c.bump (R.STRM_CNT2 i) F.STRM_CNT2.STEP_DOWN (moves.filter (fun m => m.2.2 == -1)).length

/-! ### Link loss (R160) -/

/-- A cell is served through a sub-port: one of its streams names it. -/
def Chip.cellUses (c : Chip) (x : Cell) (p s : Nat) : Bool :=
  x.cfg.streams.any (fun i => c.strm i.val F.STRM_CFG.PORT == p && c.strm i.val F.STRM_CFG.SUBPORT == s)

/-- ERROR.indication for each cell that satisfies a test. -/
def Chip.tellCells (c : Chip) (p : Nat → Cell → Bool) (err : Option FapiError) : Chip :=
  (c.cells.filter (fun x => p x.1 x.2)).foldl (fun c x => c.fapiSend x.2.slot (.errorInd x.1 err)) c

/-- LINK_DOWN (R160): released class 0 frames of the sub-port are dropped, its uplink windows close with no data, and host L2
hears of it on each affected cell. -/
def linkDown (port sub : Fin 4) (c : Chip) : Chip :=
  let p := port.val
  let s := sub.val
  if ¬ c.linkIsUp p s then c
  else
    let c := c.dropLink p s
    let c := c.updEg p (fun e => { e with class0 := e.class0.map (fun x => (x.1, if x.2.subport = s then x.2.dropReleased else x.2)) })
    let ss := (c.streams.map (·.1)).filter (fun i => c.uplink i && c.strm i F.STRM_CFG.PORT == p && c.strm i F.STRM_CFG.SUBPORT == s)
    let c := ss.foldl (fun c i => c.closeEmpty i false) c
    c.tellCells (fun i x => c.cellUp i && c.cellUses x p s) none

end Sys2Proof.Machine
end

