-- ==== Sys2Proof/Machine/Slot.lean ====
section
/-! DEFINITION. The slot guarantee (R170, R171, R199 to R212): weights, the radio capacity of a ream, admission, the radio floor,
sheets for class 0 tasks, the loss of capacity and the shed order. -/

namespace Sys2Proof.Machine

/-! ### Weights (R170, R171) -/

/-- A row of the table of cell-unit weights: TDD, numerology, MHz, antennas, category B, weight in eighths. -/
structure WeightRow where
  tdd : Bool
  mu : Nat
  mhz : Nat
  ants : Nat
  catB : Bool
  weight : Nat
deriving DecidableEq, Repr

/-- Cell-unit weights (R170), by rising bandwidth within a group. -/
def weightRows : List WeightRow :=
  [⟨false, 0, 10, 2, false, 1⟩, ⟨false, 0, 20, 2, false, 2⟩, ⟨false, 0, 20, 4, false, 3⟩, ⟨false, 0, 50, 4, false, 7⟩,
   ⟨true, 1, 40, 4, false, 4⟩, ⟨true, 1, 100, 2, false, 6⟩, ⟨true, 1, 100, 4, false, 8⟩, ⟨true, 1, 100, 8, false, 14⟩,
   ⟨true, 1, 100, 32, true, 32⟩, ⟨true, 1, 100, 64, true, 48⟩, ⟨true, 2, 100, 4, false, 8⟩, ⟨true, 3, 200, 2, false, 8⟩,
   ⟨true, 3, 400, 2, false, 16⟩]

/-- Twice the uplink share's numerator: two for an uplink slot, one for a special slot (R171). -/
def uplinkShare (p : List SlotKind) : Nat :=
  p.foldl (fun (n : Nat) s => match s with
    | .downlink => n
    | .special => n + 1
    | .uplink => n + 2) 0

/-- The row of a carrier: the smallest bandwidth not below its own (R171). -/
def weightRow (x : CellConfig) : Option WeightRow :=
  weightRows.find? (fun r => r.tdd == !x.pattern.isEmpty && r.mu == x.mu && r.ants == x.tx && r.ants == x.rx && r.catB == x.categoryB &&
    decide (x.mhz ≤ r.mhz))

/-- A carrier's bandwidth is one of R169: from 5 MHz, in FR2 from 50 MHz, and up to the numerology's most. -/
def bandwidthOk (x : CellConfig) : Bool :=
  match x.mu with
  | 0 => decide (5 ≤ x.mhz) && decide (x.mhz ≤ 50)
  | 1 => decide (5 ≤ x.mhz) && decide (x.mhz ≤ 100)
  | 2 => decide (5 ≤ x.mhz) && decide (x.mhz ≤ 200)
  | 3 => decide (50 ≤ x.mhz) && decide (x.mhz ≤ 400)
  | _ => false

/-- The weight of a carrier in eighths of a CU, none where it is not supported or no row qualifies (R169 to R171). -/
def cellWeight (x : CellConfig) : Option Nat :=
  match (if bandwidthOk x then weightRow x else none) with
  | none => none
  | some r =>
    let s := uplinkShare x.pattern
    let p := x.pattern.length
    if 10 * s ≤ 6 * p then some r.weight
    else if s ≤ p then some (ceilDiv (5 * r.weight) 4)
    else none

/-! ### Cells (R213) -/

/-- The states of a cell (CELL_STAT.STATE). -/
def cellDown : Nat := 0
/-- Active. -/
def cellActive : Nat := 1
/-- Standby. -/
def cellStandby : Nat := 2
/-- Taking over. -/
def cellTaking : Nat := 3
/-- Handing over. -/
def cellHanding : Nat := 4
/-- Shed. -/
def cellShed : Nat := 5

/-- The state of a cell. -/
def Chip.cellState (c : Chip) (i : Nat) : Nat := c.fld (R.CELL_STAT i) F.CELL_STAT.STATE

/-- Put the state of a cell. -/
def Chip.setCellState (c : Chip) (i s : Nat) : Chip := c.setFld (R.CELL_STAT i) F.CELL_STAT.STATE s

/-- The states that the load counts: active, standby, taking over, handing over (R201). -/
def counted (s : Nat) : Bool := decide (1 ≤ s) && decide (s ≤ 4)

/-- A cell counts in the load. -/
def Chip.cellCounts (c : Chip) (i : Nat) : Bool := counted (c.cellState i)

/-- Any cell is admitted (R27). -/
def cellsAdmitted (c : Chip) : Bool := c.cells.any (fun x => c.cellCounts x.1)

/-- The weight of an admitted cell. -/
def Chip.cuOf (c : Chip) (i : Nat) : Nat := c.fld (R.CELL_STAT i) F.CELL_STAT.WEIGHT

/-- The home ream of an admitted cell. -/
def Chip.cellHome (c : Chip) (i : Nat) : Nat := c.fld (R.CELL_STAT i) F.CELL_STAT.HOME_REAM

/-- Change a cell. -/
def Chip.updCell (c : Chip) (i : Nat) (f : Cell → Cell) : Chip :=
  match tabGet c.cells i with
  | some x => { c with cells := tabPut c.cells i (f x) }
  | none => c

/-- Cells that the load counts and a test keeps. -/
def Chip.loadCells (c : Chip) (p : Nat → Bool) : List Nat := (c.cells.map (·.1)).filter (fun i => c.cellCounts i && p i)

/-- The weight of a list of cells. -/
def Chip.weigh (c : Chip) (l : List Nat) : Nat := l.foldl (fun n i => n + c.cuOf i) 0

/-- The load of a ream in eighths of a CU. -/
def Chip.reamLoad (c : Chip) (ream : Nat) : Nat := c.weigh (c.loadCells (fun i => c.cellHome i == ream))

/-! ### Capacity (R200, R201) -/

/-- The engines of a strip in service by an enable field. -/
def Chip.inService (c : Chip) (ream : Nat) (f : Fld) : Nat :=
  ((List.range f.w).filter (fun k => (c.fld (R.STRIP_CFG ream) f).testBit k)).length

/-- Active sheets of a ream in quires that are not isolated. -/
def Chip.reamSheets (c : Chip) (ream : Nat) : Nat :=
  (List.range 8).foldl (fun n i => if c.quireIn (ream * 8 + i) then n + c.activeSheets (ream * 8 + i) else n) 0

/-- Bytes that contexts on chip hold in the pool of a quire. -/
def Chip.poolHeld (c : Chip) (q : Nat) : Nat :=
  (c.present []).foldl (fun a y => if (y.posIn q).isEmpty then a else a + y.poolBytes) 0

/-- The radio region that stands free of inference state, in MiB (R204). -/
def Chip.radioFree (c : Chip) (ream : Nat) : Nat :=
  min (c.radioMib ream) ((8 * 2 ^ 20 - c.poolHeld (c.radioHome ream)) / 2 ^ 20)

/-- Pool capacity of a region of M MiB in eighths. -/
def poolCap (m : Nat) : Nat := (m - 1) * 1024 / 6

/-- HBM bandwidth of a ream in GB/s (R200). -/
def reamBandwidth : Part → Nat
  | .fdn8h2d => 4096
  | _ => 6144

/-- The figures of R200 in eighths of a CU, in the order of REAM_CAP.BIND; `em` takes the emergency forms. -/
def Chip.capRows (c : Chip) (ream : Nat) (em : Bool) : List Nat :=
  let s := c.reamSheets ream
  [if em then 3 * s / 2 else s,
   32 * c.inService ream F.STRIP_CFG.DEC_EN,
   48 * c.inService ream F.STRIP_CFG.ENC_EN,
   160 * c.inService ream F.STRIP_CFG.POLAR_EN,
   160 * c.inService ream F.STRIP_CFG.SEQ_EN,
   if c.poolReload.contains ream then 0 else poolCap (if em then 6 else c.radioFree ream),
   256 * (c.fld R.TIER_CFG F.TIER_CFG.RADIO_T2_GIB / 4),
   c.fld (R.FLOOR_CFG ream) F.FLOOR_CFG.HBM_RES * reamBandwidth c.ident.part / 30]

/-- The smallest of a list, and the place of its first occurrence. -/
def smallest (l : List Nat) : Nat × Nat :=
  let m := l.foldl min (l.headD 0)
  (m, (l.findIdx? (· == m)).getD 0)

/-- The capacity of a ream as it stands, and the resource that sets it (R200). -/
def Chip.capNow (c : Chip) (ream : Nat) : Nat × Nat := smallest (c.capRows ream (c.emergency ream))

/-- The assembly capacity in eighths of a CU (R1). -/
def assemblyCap : Part → Nat
  | .fdn12h1d => 1280
  | _ => 2048

/-- The reams of every assembly (R1, R9). -/
def reamCount : Nat := 4

/-- The reams of the part in a list. -/
def Chip.reamList (_ : Chip) : List Nat := List.range reamCount

/-- The chip capacity of R201: the sum of the reams, within the assembly's. -/
def Chip.chipCap (c : Chip) : Nat := min (assemblyCap c.ident.part) (c.reamList.foldl (fun n r => n + (c.capNow r).1) 0)

/-! ### Fronthaul (R201) -/

/-- The uplink streams of a configuration, and those on a sub-port. -/
def Chip.uplinkOn (c : Chip) (x : CellConfig) (p s : Nat) : Nat × Nat :=
  let ul := x.streams.filter (fun i => c.strm i.val F.STRM_CFG.DIR == 0)
  (ul.length, (ul.filter (fun i => c.strm i.val F.STRM_CFG.PORT == p && c.strm i.val F.STRM_CFG.SUBPORT == s)).length)

/-- The fronthaul charged to a sub-port, as a fraction of sixteenths of Gbit/s: a cell of w eighths charges 15 w, its part
by its streams there. -/
def Chip.portCharge (c : Chip) (p s : Nat) : Nat × Nat :=
  c.cells.foldl (fun (a : Nat × Nat) (x : Nat × Cell) =>
    let (n, k) := c.uplinkOn x.2.cfg p s
    if ¬ c.cellCounts x.1 ∨ k = 0 then a else (a.1 * n + 15 * c.cuOf x.1 * k * a.2, a.2 * n)) (0, 1)

/-- 75% of a sub-port's rate bounds what it carries. -/
def Chip.portFits (c : Chip) (p s : Nat) : Bool :=
  let (n, d) := c.portCharge p s
  decide (n * 2 ^ c.portMode p ≤ 16 * 600 * d)

/-! ### Admission (R201 to R203) -/

/-- The load as it stands meets R201 on a ream that a cell has been placed on. -/
def Chip.loadFits (c : Chip) (ream : Nat) : Bool :=
  let cells := c.loadCells (fun _ => true)
  decide (c.reamLoad ream ≤ (c.capNow ream).1) && decide (c.weigh cells ≤ c.chipCap) &&
  decide (cells.length ≤ 1024) && decide ((cells.filter (fun i => c.cellHome i == ream)).length ≤ 256) &&
  (List.range 4).all (fun p => (List.range 4).all (fun s => c.portFits p s))

/-- The cell as it would stand admitted on a ream. -/
def Chip.placeCell (c : Chip) (i w state ream : Nat) : Chip :=
  ((c.setCellState i state).setFld (R.CELL_STAT i) F.CELL_STAT.HOME_REAM ream).setFld (R.CELL_STAT i) F.CELL_STAT.WEIGHT w

/-- A ream is isolated: none of its quires is in. -/
def Chip.reamIn (c : Chip) (ream : Nat) : Bool := (List.range 8).any (fun i => c.quireIn (ream * 8 + i))

/-- Reams in order of most remaining capacity, the lowest index on a tie. -/
def Chip.byRoom (c : Chip) (l : List Nat) : List Nat :=
  sortBy (fun a b =>
    let ra := (c.capNow a).1 - c.reamLoad a
    let rb := (c.capNow b).1 - c.reamLoad b
    decide (rb < ra) || (ra == rb && decide (a ≤ b))) l

/-- The candidate home reams of a cell (R203). -/
def Chip.candidates (c : Chip) (i : Nat) : List Nat :=
  if c.flag (R.CELL_CTL i) F.CELL_CTL.PIN_EN then [c.fld (R.CELL_CTL i) F.CELL_CTL.PIN_REAM]
  else c.byRoom (c.reamList.filter c.reamIn)

/-- The cell is admitted in a state on the first ream of a list on which R201 holds, which is written into its streams. -/
def Chip.admitOn (c : Chip) (i w state : Nat) (reams : List Nat) : Option Chip :=
  match reams.find? (fun r => (c.placeCell i w state r).loadFits r) with
  | none => none
  | some r =>
    let c := c.placeCell i w state r
    let ss := ((tabGet c.cells i).map (fun x => x.cfg.streams)).getD []
    some (ss.foldl (fun c s => c.setLogged 0xF0 (R.STRM_GRID s.val) (fput (c.reg (R.STRM_GRID s.val)) F.STRM_GRID.REAM r)) c)

/-- The admission test and its effect (R202, R203) for a cell whose configuration is stored; none where it is refused. -/
def Chip.admitCell (c : Chip) (i w state : Nat) : Option Chip := c.admitOn i w state (c.candidates i)

/-- A cell that has no state yet. -/
def cellNew (slot : Nat) (cfg : CellConfig) : Cell :=
  { slot := slot, cfg := cfg, running := false, peer := none, mirrored := none, mirrorUsed := (0, 0), retryAt := 0, boundary := none,
    stop := none, decUsed := [], encUsed := [], harq := [], procs := [], nextOrder := 0, work := [], dlWork := [], nextWork := 0,
    ifSeq := 0, toMirror := [] }

/-! ### A cell stops (R212, R218) -/

/-- The class 0 commands of a cell end with SHED (R212). -/
def Chip.endCellCommands (c : Chip) (i : Nat) : Chip :=
  ((c.commands.filter (fun k => k.cell == some i)).map (·.uid)).foldl (fun c u => c.endCommand u ⟨0x70, 0, 0⟩) c

/-- The slot that a cell belongs to. -/
def Chip.slotOfCell (c : Chip) (i : Nat) : Nat := ((tabGet c.cells i).map (fun x => x.slot)).getD 0

/-- A cell leaves service for a state: its uplink state is released (R191), and its bits of protection fall. -/
def Chip.cellLeaves (c : Chip) (i state : Nat) : Chip :=
  let c := c.updCell i (fun x => { cellNew x.slot x.cfg with ifSeq := x.ifSeq })
  let r := R.CELL_STAT i
  ((c.setCellState i state).setFlag r F.CELL_STAT.PROTECTED false).setFlag r F.CELL_STAT.SHADOW_LOST false

/-- Why a cell stops: RELEASE, a shed, or a higher epoch on its shadow. -/
def stopRelease : Nat := 0
/-- A shed (R212). -/
def stopShed : Nat := 1
/-- A higher epoch (R218). -/
def stopEpoch : Nat := 2

/-- A cell is to stop at an instant for a reason; an earlier stop stands. -/
def Chip.stopAt (c : Chip) (i : Nat) (t : Int) (why : Nat) : Chip :=
  c.updCell i (fun x => match x.stop with
    | some (u, _) => if u ≤ t then x else { x with stop := some (t, why) }
    | none => { x with stop := some (t, why) })

/-- CELL_BOUNDARY_STOP (R212, R218): at its boundary a cell under RELEASE, shed, or held at a higher epoch elsewhere stops. A shed cell's
class 0 commands complete with SHED. -/
def cellBoundaryStop (cell : Fin 1024) (c : Chip) : Chip :=
  let i := cell.val
  match (tabGet c.cells i).bind (fun x => x.stop) with
  | none => c
  | some (t, why) =>
    if c.tick < t then c
    else
      let slot := c.slotOfCell i
      let c := c.setFlag (R.CELL_CTL i) F.CELL_CTL.RELEASE false
      let c := if why = stopShed then c.endCellCommands i else c
      let c := if why = stopRelease then c else c.fapiSend slot (.stopInd i)
      c.cellLeaves i (if why = stopShed then cellShed else cellDown)

/-! ### Handover (R216) -/

/-- The first frame boundary at least 8 ms after an instant. -/
def boundaryAfter (t : Int) : Int :=
  let u := t + (usTicks 8000 : Nat)
  (u + (ticksPerFrame : Nat) - 1) / (ticksPerFrame : Nat) * (ticksPerFrame : Nat)

/-- CELL_CTL of the cell, or RADIO_CFG, has lost its complement: no handover, release or shadow change is acted on (R334). -/
def Chip.cellCtlBad (c : Chip) (i : Nat) : Bool := c.damaged.contains (.cellCtl (Fin.ofNat 1024 i)) || c.damaged.contains .radioCfg

/-- A live standby shadow holds the cell. -/
def Chip.protected_ (c : Chip) (i : Nat) : Bool := c.flag (R.CELL_STAT i) F.CELL_STAT.PROTECTED

/-- A message to a peer chip by the port that routes to it. -/
def Chip.toPeer (c : Chip) (dest : Nat) (m : PeerMsg) : Chip := c.send (.peer ((c.routePort dest).getD 6) dest m)

/-- The shadow of a protected cell is told that the cell is released (R213, R218). -/
def Chip.tellReleased (c : Chip) (i : Nat) : Chip :=
  if c.protected_ i then c.toPeer (c.fld (R.CELL_CTL i) F.CELL_CTL.SHADOW_CHIP) (.released (Fin.ofNat 1024 i)) else c

/-- Begin a handover: the shadow is told of T (R216). -/
def Chip.beginHandover (c : Chip) (i : Nat) : Chip :=
  if c.cellState i ≠ cellActive ∨ ¬ c.protected_ i then c
  else
    let t := boundaryAfter c.tick
    let c := (c.setCellState i cellHanding).updCell i (fun x => { x with boundary := some t })
    c.send (.handoverMsg (c.fld (R.CELL_CTL i) F.CELL_CTL.SHADOW_CHIP) i t)

/-- Cell shadowing is present: not on A1 (R213). -/
def Chip.shadowing (c : Chip) : Bool := c.ident.stepping == .b0

/-- The home asks SHADOW_CHIP to hold an active cell in standby, and again every 10 s until it does (R213). -/
def Chip.sendStandby (c : Chip) (i : Nat) : Chip :=
  match tabGet c.cells i with
  | none => c
  | some x =>
    let r := R.CELL_CTL i
    if ¬ c.shadowing ∨ ¬ c.flag r F.CELL_CTL.SHADOW_EN ∨ c.cellState i ≠ cellActive ∨ c.protected_ i then c
    else
      (c.updCell i (fun x => { x with retryAt := c.time.uptime + 10 * nsPerSec })).send
        (.standbyRequest (c.fld r F.CELL_CTL.SHADOW_CHIP) i (c.fld r F.CELL_CTL.SHADOW_SLOT) x.cfg)

/-- STANDBY_RETRY (R213): 10 s after the last request of a cell whose shadow refused, is lost or has not answered. -/
def standbyRetry (cell : Fin 1024) (c : Chip) : Chip :=
  match tabGet c.cells cell.val with
  | none => c
  | some x => if x.retryAt ≤ c.time.uptime then c.sendStandby cell.val else c

/-! ### Shedding (R211, R212) -/

/-- The shed order: standby before active, then rising rank, falling weight, falling index. -/
def Chip.shedBefore (c : Chip) (a b : Nat) : Bool :=
  let key := fun (i : Nat) =>
    [if c.cellState i = cellStandby then 0 else 1, c.fld (R.CELL_CTL i) F.CELL_CTL.SHED_RANK, 255 - c.cuOf i, 1023 - i]
  listLt (key a) (key b)

/-- The cells of a ream that R212 may shed: standby ones, and active ones that are not stopping already. -/
def Chip.sheddable (c : Chip) (ream : Nat) : List Nat :=
  c.loadCells (fun i => c.cellHome i == ream && (c.cellState i == cellStandby || c.cellState i == cellActive) &&
    ((tabGet c.cells i).map (fun x => x.stop.isNone)).getD true)

/-- The cell that is shed next on a ream. -/
def Chip.shedNext (c : Chip) (ream : Nat) : Option Nat :=
  (c.sheddable ream).foldl (fun (best : Option Nat) i => match best with
    | none => some i
    | some b => if c.shedBefore i b then some i else some b) none

/-- Shed one cell (R212): a standby cell goes down; an active one with a live shadow is handed over; another is to stop at its next
slot boundary. Logged with origin firmware, and told to the slices of its slot (R304). -/
def Chip.shedCell (c : Chip) (i : Nat) : Chip :=
  let c := (c.logOp 0xF0 7 i 0 0).mbxTell (c.slotOfCell i) 2 (i % 1024 * 2 ^ 18)
  if c.cellState i = cellStandby then
    let c := c.cellLeaves i cellDown
    { c with cells := tabDel c.cells i }
  else if c.protected_ i then c.beginHandover i
  else c.stopAt i (nextSlot (c.cellMu i) c.tick) stopShed

/-- A cell stays: it is not stopping and not handing over. -/
def Chip.stays (c : Chip) (i : Nat) : Bool :=
  c.cellState i != cellHanding && ((tabGet c.cells i).map (fun x => x.stop.isNone)).getD true

/-- The load of a ream that stays: cells that are stopping or handing over are on their way off it. -/
def Chip.stayingLoad (c : Chip) (ream : Nat) : Nat := c.weigh (c.loadCells (fun i => c.cellHome i == ream && c.stays i))

/-- Firmware re-admits a cell on another ream than one whose quire or that is isolated itself (R18, R202); cells on their way off do
not count against it. -/
def Chip.readmit (c : Chip) (ream i : Nat) : Option Chip :=
  let off := (i :: c.loadCells (fun j => !c.stays j)).map (fun j => (j, c.cellState j))
  let d := off.foldl (fun (c : Chip) (x : Nat × Nat) => c.setCellState x.1 cellDown) c
  (d.admitOn i (c.cuOf i) (c.cellState i) ((d.candidates i).filter (fun r => r != ream && c.reamIn r))).map (fun d =>
    off.foldl (fun (c : Chip) (x : Nat × Nat) => c.setCellState x.1 x.2) d)

/-- Cells of a ream leave in shed order until its load fits a capacity: to another ream where an isolation lets them, else shed. -/
def Chip.shedTo (c : Chip) (ream cap : Nat) (move : Bool) : Nat → Chip
  | 0 => c
  | n + 1 =>
    if c.stayingLoad ream ≤ cap then c
    else match c.shedNext ream with
      | none => c
      | some i => (((if move then c.readmit ream i else none).getD (c.shedCell i))).shedTo ream cap move n

/-- Every inference context with state on a ream is couched out. -/
def Chip.clearReam (c : Chip) (ream : Nat) : Chip :=
  (c.contexts.filter (fun x => x.2.onReam ream && x.2.place == .onChip && !c.pinned x.1)).foldl (fun (c : Chip) (x : Nat × Context) => c.evict x.1) c

/-- The load of a ream that stays fits its normal capacity. -/
def Chip.fitsNormal (c : Chip) (ream : Nat) : Bool := decide (c.stayingLoad ream ≤ (smallest (c.capRows ream false)).1)

/-- A ream leaves emergency, and inference returns to it (R211). -/
def Chip.calmReam (c : Chip) (ream : Nat) : Chip :=
  if c.emergency ream then (c.setFlag (R.REAM_CAP ream) F.REAM_CAP.EMERG false).assignReam ream else c

/-- A ream after a loss of capacity (R211): into emergency, out of it, or giving up cells until its load fits. -/
def Chip.recompute (c : Chip) (ream : Nat) : Chip :=
  if c.fitsNormal ream then c.calmReam ream
  else
    let c := if c.emergency ream then c else (c.setFlag (R.REAM_CAP ream) F.REAM_CAP.EMERG true).clearReam ream
    let c := c.shedTo ream (smallest (c.capRows ream true)).1 (!(List.range 8).all (fun q => c.quireIn (ream * 8 + q))) 256
    if c.fitsNormal ream then c.calmReam ream else c

/-- CAPACITY_RECOMPUTE (R211): firmware recomputes every ream's capacity. -/
def capacityRecompute (c : Chip) : Chip := c.reamList.foldl (fun c r => c.recompute r) c

/-- QUIRE_ISOLATE (R340, R18): error code 0x05 at a quire; firmware re-admits or sheds the cells that it leaves without room. -/
def quireIsolate (q : QuireAt) (c : Chip) : Chip := (c.isolateQuire (quireIx q.ream q.quire)).recompute q.ream.val

/-- The radio-home pool of a ream holds radio programs and state again (R200). -/
def radioPoolReloadComplete (ream : Fin 4) (c : Chip) : Chip := { c with poolReload := c.poolReload.filter (· != ream.val) }

/-- COOLING_SHED (R208): under a cooling fault one cell is shed every THERM_STEP; below 100 °C the fault is over. -/
def coolingShed (c : Chip) : Chip :=
  if ¬ c.power.cooling then c
  else if c.power.junction < 100 then { c with power := { c.power with cooling := false } }
  else if c.time.uptime < c.power.lastShed + c.fld R.RADIO_CFG F.RADIO_CFG.THERM_STEP * 10 ^ 7 then c
  else
    let c : Chip := { c with power := { c.power with lastShed := c.time.uptime } }
    let next := c.reamList.foldl (fun (best : Option Nat) r => match best, c.shedNext r with
      | none, x => x
      | some b, none => some b
      | some b, some i => if c.shedBefore i b then some i else some b) none
    match next with
    | some i => c.shedCell i
    | none => c

/-! ### FLOOR_CFG and TIER_CFG (R204, R209, R267) -/

/-- Contexts give up pool space of the radio-home quire until the radio region is free, in order (R204). -/
def Chip.clearPool (c : Chip) (ream : Nat) : Nat → Chip
  | 0 => c
  | n + 1 =>
    let q := c.radioHome ream
    let on := c.contexts.filter (fun x => x.2.place == .onChip && !(x.2.posIn q).isEmpty && x.2.poolBytes != 0 && !c.pinned x.1)
    let staying := on.foldl (fun a x => a + x.2.poolBytes) 0
    match on.head? with
    | some x => if c.poolRoom q < staying then (c.evict x.1).clearPool ream n else c
    | none => c

/-- A FLOOR_CFG value that R204 accepts for a ream. -/
def Chip.floorOk (c : Chip) (ream : Nat) (v : W64) : Bool :=
  let f := fget v F.FLOOR_CFG.FLOOR_SHEETS
  let m := fget v F.FLOOR_CFG.RADIO_POOL_MIB
  regFits .FLOOR_CFG v && f % 8 == 0 && decide (f ≤ 256) && (c.emergency ream || decide (c.reamLoad ream ≤ poolCap m))

/-- Apply a FLOOR_CFG write (R204): refused as a whole, or freed sheets are rentable and added pool space is cleared. -/
def applyFloorCfg (origin ream : Nat) (v : W64) (c : Chip) : Chip :=
  if ¬ c.floorOk ream v then c.mark (R.ACQ_STAT ream) F.ACQ_STAT.CFG_REFUSED
  else
    let r := R.FLOOR_CFG ream
    let c := c.setLogged origin r (regWrite .FLOOR_CFG (c.reg r) v)
    (c.clearPool ream c.contexts.length).assignReam ream

/-- FLOOR_CFG_WRITE (R7, R204). -/
def floorCfgWrite (r : Requester) (ream : Fin 4) (v k : W64) (c : Chip) : Chip :=
  pairWrite r (atReam ream.val) (R.FLOOR_CFG ream.val).addr false (k == ~~~ v) (applyFloorCfg (c.origin r) ream.val v) c

/-- The T2 reservation of a value holds what the admitted cells of every ream need (R200, R267). -/
def Chip.radioT2Ok (c : Chip) (gib : Nat) : Bool := c.reamList.all (fun r => decide (c.reamLoad r ≤ 256 * (gib / 4)))

/-- Apply a TIER_CFG write (R267, R427): refused where it lowers the radio reservation below what admitted cells need. -/
def applyTierCfg (origin : Nat) (v : W64) (c : Chip) : Chip :=
  let r := R.TIER_CFG
  let gib := fget v F.TIER_CFG.RADIO_T2_GIB
  if ¬ regFits .TIER_CFG v ∨ (gib < c.fld r F.TIER_CFG.RADIO_T2_GIB ∧ ¬ c.radioT2Ok gib) then c.mark R.TIER_STAT F.TIER_STAT.CFG_REFUSED
  else c.setLogged origin r (regWrite .TIER_CFG (c.reg r) v)

/-- TIER_CFG_WRITE (R267). -/
def tierCfgWrite (r : Requester) (v k : W64) (c : Chip) : Chip :=
  pairWrite r atChip R.TIER_CFG.addr false (k == ~~~ v) (applyTierCfg (c.origin r) v) c

/-! ### Sheets for class 0 tasks (R205, R206) -/

/-- The sheets of a ream that a class 0 task may take, each with its place in the order of R205: an idle floor sheet, another idle
sheet, one that a kill is already freeing, a sheet of class 3, 2 or 1 with the latest start first, a joined group. -/
def Chip.sourceRank (c : Chip) (k : Nat) : Option (List Nat) :=
  let q := keyQuire k
  match c.keyLogical k with
  | none => none
  | some l =>
    let sh := c.sheetK k
    if ¬ c.quireUp q ∨ (c.sheetK (keyPrimary k)).retireAsked then none
    else match sh.task with
      | none =>
        if sh.killing then (if sh.acquired.isNone then some [2, q, k] else none)
        else some [if c.inFloor q l then 0 else 1, q, k]
      | some t =>
        if t.cls = 0 ∨ sh.commitSlot then none
        else
          let joined := match c.command t.cmd with
            | some m => m.desc.mode == 2
            | none => false
          if joined then some [4, q, k] else some [3, 3 - t.cls, c.time.uptime - sh.started, q, k]

/-- The best source of a ream. -/
def Chip.radioSource (c : Chip) (ream : Nat) : Option (Nat × List Nat) :=
  ((List.range 8).flatMap (fun i => quireKeys (ream * 8 + i))).foldl (fun (best : Option (Nat × List Nat)) k =>
    match best, c.sourceRank k with
    | none, some r => some (k, r)
    | some b, some r => if listLt r b.2 then some (k, r) else some b
    | b, none => b) none

/-- CLASS0_TASK_PLACE (R205): the first ready class 0 task of a ream that has no sheet on the way takes one; where it needs a kill,
the request goes out now. -/
def class0TaskPlace (ream : Fin 4) (c : Chip) : Chip :=
  let r := ream.val
  let ready := (c.radioAt r).filter c.runnable
  let coming := (c.sheets.filter (fun x => keyQuire x.1 / 8 == r && x.2.acquired.isSome)).length
  if ready.length ≤ coming then c
  else match c.nextRadio r, c.radioSource r with
    | some t, some (k, rank) =>
      (match rank.headD 0 with
       | 0 => c.startRadio k r t
       | 1 => c.startRadio k r t
       | 2 => c.updKey k (fun sh => { sh with acquired := some c.time.uptime })
       | _ =>
         let n := (c.sheetK k).task.map (fun t => if rank.headD 0 = 4 then (c.groupKeys t.cmd (t.index / 64)).length else 1)
         let c := (c.killTask k true).bump (R.GUST_CNT r) F.GUST_CNT.KILLS (n.getD 1)
         let c := c.perf (.ream ream) 0x02 (n.getD 1)
         c.updKey k (fun sh => { sh with acquired := some c.time.uptime }))
    | _, _ => c

end Sys2Proof.Machine
end

