-- ==== Sys2Proof/Machine/HighPhy.lean ====
section
/-! DEFINITION. High physical layer (R179 to R198): decoder and encoder budgets, the HARQ store, the coding strip's queues and engines, and
what leaves as indications. -/

namespace Sys2Proof.Machine

/-! ### Budgets (R196) -/

/-- The four values of a row of R196 by numerology, in microseconds. -/
structure MuRow where
  a : Nat
  b : Nat
  c : Nat
  d : Nat

/-- The value for a numerology. -/
def MuRow.at_ (r : MuRow) : Nat → Nat
  | 0 => r.a
  | 1 => r.b
  | 2 => r.c
  | _ => r.d

/-- CRC.indication and RX_Data.indication after the last PUSCH symbol. -/
def budgetCrc : MuRow := ⟨500, 300, 180, 120⟩
/-- UCI.indication after the last symbol carrying the UCI. -/
def budgetUci : MuRow := ⟨250, 150, 100, 70⟩
/-- RACH.indication after the last symbol of the occasion. -/
def budgetRach : MuRow := ⟨1000, 500, 300, 250⟩
/-- SRS.indication after the last SRS symbol. -/
def budgetSrs : MuRow := ⟨600, 400, 250, 200⟩
/-- Downlink processing time. -/
def procTime : MuRow := ⟨400, 250, 180, 120⟩
/-- Uplink cutoff before the air start of the slot. -/
def uplinkCutoff : MuRow := ⟨300, 200, 150, 100⟩

/-- The budget of an uplink result by its KIND in the miss ring. -/
def budgetOf : Nat → MuRow
  | 2 => budgetCrc
  | 3 => budgetUci
  | 4 => budgetRach
  | _ => budgetSrs

/-- A vendor TLV of a cell with its default (R195). -/
def Cell.param (x : Cell) (tag dflt : Nat) : Nat := (x.tlv tag).getD dflt

/-- TX_ADV in microseconds. -/
def Cell.txAdv (x : Cell) : Nat := x.param 0xA005 250

/-- Slots in a frame. -/
def slotsPerFrame (mu : Nat) : Nat := 10 * 2 ^ mu

/-- The absolute tick, nearest to now, at which a slot of a cell begins. -/
def Chip.airStart (c : Chip) (x : Cell) (frame sl : Nat) : Int := slotTick c.tick (x.cfg.mu % 4) frame sl

/-- The absolute tick at which a symbol of a slot ends. -/
def Chip.symbolEnd (c : Chip) (x : Cell) (frame sl sym : Nat) : Int :=
  let mu := x.cfg.mu % 4
  c.airStart x frame sl + ((symStart mu sl (sym + 1) - symStart mu sl 0 : Nat) : Int)

/-! ### The HARQ store (R189 to R192) -/

/-- RNE of an integer divided by 8. -/
def rneEighth (x : Int) : Int :=
  let q := x / 8
  let r := x % 8
  if 4 < r ∨ (r = 4 ∧ q % 2 = 1) then q + 1 else q

/-- Limit an integer to ±m. -/
def clampTo (m x : Int) : Int := max (-m) (min m x)

/-- The value written back for a stored value and a new LLR (R190). -/
def combineSoft (s l : Int) : Int := clampTo 15 (rneEighth (clampTo 127 (8 * s + l)))

/-- A buffer's identity. -/
def HarqBuf.is (b : HarqBuf) (ue process block : Nat) : Bool := b.ue == ue && b.process == process && b.block == block

/-- A code block's buffer. -/
def Cell.buf (x : Cell) (ue process block : Nat) : Option HarqBuf := x.harq.find? (fun b => b.is ue process block)

/-- Change a buffer. -/
def Cell.updBuf (x : Cell) (ue process block : Nat) (f : HarqBuf → HarqBuf) : Cell :=
  { x with harq := x.harq.map (fun b => if b.is ue process block then f b else b) }

/-- Buffers of a cell of w eighths: floor(1,536 × W). -/
def harqBuffers (w : Nat) : Nat := 192 * w

/-- The least recently written buffer that is not being decoded. -/
def Cell.oldest (x : Cell) : Option HarqBuf :=
  x.harq.foldl (fun (best : Option HarqBuf) b =>
    if b.decoding then best
    else match best with
      | none => some b
      | some a => if b.order < a.order then some b else some a) none

/-- Items for the shadow are kept while one is live (R214). -/
def Chip.mirror (c : Chip) (i : Nat) (l : List MirrorItem) : Chip :=
  if c.protected_ i then c.updCell i (fun x => { x with toMirror := x.toMirror ++ l }) else c

/-- Release buffers that satisfy a test (R191), with notices for the shadow. -/
def Chip.releaseBufs (c : Chip) (i : Nat) (p : HarqBuf → Bool) : Chip :=
  match tabGet c.cells i with
  | none => c
  | some x =>
    let gone := x.harq.filter p
    (c.updCell i (fun x => { x with harq := x.harq.filter (fun b => !p b) })).mirror i (gone.map (fun b => .release b.ue b.process b.block))

/-- A decode opens its buffer: allocated at the first transmission of its block, the least recently written one reclaimed when none
is free; a new transmission starts from zeros (R190, R191). -/
def Chip.openBuf (c : Chip) (i ream ue process block : Nat) (fresh : Bool) : Chip :=
  match tabGet c.cells i with
  | none => c
  | some x =>
    match x.buf ue process block with
    | some _ => c.updCell i (fun x => x.updBuf ue process block (fun b =>
        if fresh then { b with values := [], high := 0, decoding := true } else { b with decoding := true }))
    | none =>
      let c := if x.harq.length < harqBuffers (c.cuOf i) then c
        else match x.oldest with
          | none => c
          | some b => (c.releaseBufs i (fun a => a.is b.ue b.process b.block)).bump (R.STRIP_CNT2 ream) F.STRIP_CNT2.HARQ_EVICT 1
      c.updCell i (fun x => { x with harq := x.harq ++ [⟨ue, process, block, [], 0, x.nextOrder, true⟩], nextOrder := x.nextOrder + 1 })

/-- Put a soft value at a position; 0 is not listed. -/
def putSoft (t : List (Nat × Int)) (p : Nat) (v : Int) : List (Nat × Int) := if v = 0 then tabDel t p else tabPut t p v

/-- Write back a decode's positions (R190). An uncorrectable error on reading makes the stored values zeros (R191). -/
def HarqBuf.combine (b : HarqBuf) (llrs : List (Nat × Int)) (readOk : Bool) (high order : Nat) : HarqBuf :=
  let old := if readOk then b.values else []
  let new := llrs.foldl (fun (t : List (Nat × Int)) (e : Nat × Int) => putSoft t e.1 (combineSoft (tabGetD old e.1 0) e.2)) old
  { b with values := new, high := max b.high high, order := order, decoding := false }

/-! ### The strip (R184) -/

/-- A strip with nothing to do. -/
def stripReset : Strip := ⟨[], []⟩

/-- The strip of a ream. -/
def Chip.strip (c : Chip) (ream : Nat) : Strip := tabGetD c.strips ream stripReset

/-- Put the strip of a ream. -/
def Chip.setStrip (c : Chip) (ream : Nat) (s : Strip) : Chip := { c with strips := tabPut c.strips ream s }

/-- The engine class of a kind of job: decoders, encoders, polar units, detectors. -/
def JobKind.engines : JobKind → Nat
  | .decode => 0
  | .encode => 1
  | .polarEncode => 2
  | .polarDecode => 2
  | .prach => 3
  | .pucch => 3

/-- The class of an engine, the enable field of that class and the engine's bit. -/
def engineClass (e : Nat) : Nat × Fld × Nat :=
  if e < 16 then (0, F.STRIP_CFG.DEC_EN, e)
  else if e < 28 then (1, F.STRIP_CFG.ENC_EN, e - 16)
  else if e < 32 then (2, F.STRIP_CFG.POLAR_EN, e - 28)
  else (3, F.STRIP_CFG.SEQ_EN, e - 32)

/-- An engine is in service. -/
def Chip.engineOn (c : Chip) (ream e : Nat) : Bool :=
  let (_, f, k) := engineClass e
  (c.fld (R.STRIP_CFG ream) f).testBit k

/-- Jobs enter the queues of a ream. -/
def Chip.queueJobs (c : Chip) (ream : Nat) (l : List CodeJob) : Chip :=
  c.setStrip ream { c.strip ream with queue := (c.strip ream).queue ++ l }

/-- The order of a queue: deadline, cell, code block (R184). -/
def jobBefore (a b : CodeJob) : Bool :=
  decide (a.deadline < b.deadline) || (a.deadline == b.deadline && (decide (a.cell < b.cell) || (a.cell == b.cell && decide (a.block < b.block))))

/-- The uplink work of a job. -/
def Chip.ulWork (c : Chip) (j : CodeJob) : Option (Cell × UlWork) :=
  match tabGet c.cells j.cell with
  | none => none
  | some x => (x.work.find? (fun w => w.id == j.work)).map (fun w => (x, w))

/-- A decode waits while an earlier one holds its buffer (R192). -/
def Chip.jobReady (c : Chip) (j : CodeJob) : Bool :=
  match j.kind with
  | .decode =>
    (match c.ulWork j with
     | some (x, w) => !((x.buf w.ue w.process j.block).map (fun b => b.decoding)).getD false
     | none => true)
  | _ => true

/-- The job that an engine takes next. -/
def Chip.nextJob (c : Chip) (ream e : Nat) : Option CodeJob :=
  ((c.strip ream).queue.filter (fun j => j.kind.engines == (engineClass e).1 && c.jobReady j)).foldl (fun (best : Option CodeJob) j =>
    match best with
    | none => some j
    | some b => if jobBefore j b then some j else some b) none

/-- CODING_JOB_START (R184, R189 to R192): a free engine in service takes the earliest-deadline job of its queue. -/
def codingJobStart (ream : Fin 4) (engine : Fin 36) (c : Chip) : Chip :=
  let r := ream.val
  let e := engine.val
  if ¬ c.engineOn r e ∨ (tabGet (c.strip r).engines e).isSome then c
  else match c.nextJob r e with
    | none => c
    | some j =>
      let s := c.strip r
      let c := c.setStrip r ⟨tabPut s.engines e j, s.queue.erase j⟩
      match j.kind, c.ulWork j with
      | .decode, some (_, w) => c.openBuf j.cell r w.ue w.process j.block j.newData
      | _, _ => c

/-- Count on a field of the strip; one that is full sets STICKY_SAT (R198). -/
def Chip.stripCount (c : Chip) (ream : Nat) (r : RegRef) (f : Fld) : Chip :=
  let c := if c.fld r f = fmax f then c.mark (R.STRIP_ERR ream) F.STRIP_ERR.STICKY_SAT else c
  c.bump r f 1

/-- Note an engine and a cause in STRIP_ERR. -/
def Chip.stripCause (c : Chip) (ream e cause : Nat) : Chip :=
  (c.setFld (R.STRIP_ERR ream) F.STRIP_ERR.LAST_ENGINE e).setFld (R.STRIP_ERR ream) F.STRIP_ERR.LAST_CAUSE cause

/-! ### Results (R180 to R188, R193) -/

/-- An uplink result leaves: one later than its budget after the close of its window is a slot miss (R196, R210). -/
def Chip.checkBudget (c : Chip) (i : Nat) (x : Cell) (w : UlWork) : Chip :=
  match w.close with
  | none => c
  | some t =>
    if t + (usTicks ((budgetOf w.kind).at_ (x.cfg.mu % 4)) : Nat) < c.tick then c.slotMiss i w.kind w.frame w.sl (c.airStart x w.frame w.sl) else c

/-- The work is done. -/
def Chip.dropWork (c : Chip) (i id : Nat) : Chip := c.updCell i (fun x => { x with work := x.work.filter (fun w => w.id != id) })

/-- The end of a transport block (R180, R191, R193): CRC.indication, its data if it passed, and its buffers released. -/
def Chip.blockEnds (c : Chip) (i : Nat) (x : Cell) (w : UlWork) (m : Measures) : Chip :=
  let c := (c.checkBudget i x w).fapiSend x.slot (.crcInd i w.frame w.sl w.ue w.process w.passed m)
  let c := if w.passed then
      let data := ((List.range w.data.length).map (fun b => tabGetD w.data b [])).flatten
      let mine := fun (b : HarqBuf) => b.ue == w.ue && b.process == w.process
      let c := c.updCell i (fun x => { x with toMirror := x.toMirror.filter (fun t => match t with
        | .soft u p _ _ => !(u == w.ue && p == w.process)
        | _ => true) })
      (c.fapiSend x.slot (.rxData i w.frame w.sl w.ue w.process data)).releaseBufs i mine
    else c
  c.dropWork i w.id

/-- A decode ends (R180, R181, R190 to R192). -/
def Chip.decoded (c : Chip) (ream e : Nat) (j : CodeJob) (llrs : List (Nat × Int)) (readOk passed : Bool) (iterations : Nat)
    (data : List Byte) (m : Measures) : Chip :=
  let c := if readOk then c
    else (((c.stripCount ream (R.STRIP_CNT2 ream) F.STRIP_CNT2.HARQ_UE).mark (R.STRIP_ERR ream) F.STRIP_ERR.STICKY_UE).stripCause ream e 2)
  let ok := passed && j.iterations != 0
  let c := if j.iterations = 0 then c
    else
      let c := c.stripCount ream (R.STRIP_CNT0 ream) F.STRIP_CNT0.CB_DECODED
      let c := if ok then c else c.stripCount ream (R.STRIP_CNT0 ream) F.STRIP_CNT0.CB_CRC_FAIL
      if iterations < j.iterations then c.stripCount ream (R.STRIP_CNT1 ream) F.STRIP_CNT1.EARLY_STOP else c
  match c.ulWork j with
  | none => c
  | some (_, w) =>
    let c := c.updCell j.cell (fun x =>
      { x.updBuf w.ue w.process j.block (fun b => b.combine llrs readOk j.high x.nextOrder) with nextOrder := x.nextOrder + 1 })
    let soft := ((tabGet c.cells j.cell).bind (fun x => x.buf w.ue w.process j.block)).map (fun b => b.values)
    let sent := (soft.getD []).filter (fun v => llrs.any (fun l => l.1 == v.1))
    let c := c.mirror j.cell [.soft w.ue w.process j.block sent]
    let w := { w with left := w.left - 1, passed := w.passed && ok, data := tabPut w.data j.block data }
    let c := c.updCell j.cell (fun x => { x with work := x.work.map (fun v => if v.id = w.id then w else v) })
    match tabGet c.cells j.cell with
    | some x => if w.left = 0 then c.blockEnds j.cell x w m else c
    | none => c

/-- An encode ends (R182, R196): with a PDU's last one its frames can enter their class 0 queues; after TX_ADV before the air start
that is a slot miss. -/
def Chip.encoded (c : Chip) (j : CodeJob) : Chip :=
  match tabGet c.cells j.cell with
  | none => c
  | some x =>
    match x.dlWork.find? (fun w => w.id == j.work) with
    | none => c
    | some w =>
      let start := c.airStart x w.frame w.sl
      if 1 < w.left then c.updCell j.cell (fun x => { x with dlWork := x.dlWork.map (fun v => if v.id = w.id then { v with left := v.left - 1 } else v) })
      else
        let c := c.updCell j.cell (fun x => { x with dlWork := x.dlWork.filter (fun v => v.id != w.id) })
        if start - (usTicks x.txAdv : Nat) < c.tick then c.slotMiss j.cell 6 w.frame w.sl start else c

/-- A result that ends its work: the budget, the message. -/
def Chip.resultOut (c : Chip) (j : CodeJob) (f : Cell → UlWork → FapiMsg) : Chip :=
  match c.ulWork j with
  | none => c
  | some (x, w) => ((c.checkBudget j.cell x w).fapiSend x.slot (f x w)).dropWork j.cell w.id

/-- Preambles reported: at most 64, one peak each, highest first (R186). -/
def preambles (found : List (Nat × Measures)) : List (Nat × Measures) :=
  let l := sortBy (fun a b => decide (b.2.power ≤ a.2.power)) found
  (l.foldl (fun (acc : List (Nat × Measures)) (p : Nat × Measures) => if acc.any (fun q => q.1 == p.1) then acc else acc ++ [p]) []).take 64

/-- The engine that a result names, and the kind of its job. -/
def jobFrom : JobResult → Option (Nat × JobKind)
  | .decoded e _ _ _ _ _ _ => some (e.val, .decode)
  | .encoded e => some (16 + e.val, .encode)
  | .polarEncoded e => some (28 + e.val, .polarEncode)
  | .uci e _ _ _ => some (28 + e.val, .polarDecode)
  | .prach e _ => some (32 + e.val, .prach)
  | .pucch e _ _ _ _ => some (32 + e.val, .pucch)
  | .srs _ _ => none
  | .interference _ _ => none

/-- A slot of a cell holds uplink symbols: FDD always, TDD by the pattern. -/
def hasUplink (x : CellConfig) (abs : Nat) : Bool :=
  match x.pattern[abs % x.pattern.length]? with
  | none => true
  | some .downlink => false
  | some _ => true

/-- The latest slot of a cell that has ended and holds uplink symbols: its frame and slot. -/
def Chip.lastUplink (c : Chip) (x : Cell) : Nat × Nat :=
  let mu := x.cfg.mu % 4
  let n := slotsPerFrame mu
  let now := frameOf c.tick * n + slotOf mu c.tick + 1024 * n
  let back := ((List.range (x.cfg.pattern.length + 1)).find? (fun k => hasUplink x.cfg ((now - 1 - k) % (1024 * n)))).getD 0
  let s := (now - 1 - back) % (1024 * n)
  (s / n, s % n)

/-- Bytes of an entry of the interference ring (R194). -/
def ifStride (prbs : Nat) : Nat := roundUp (8 + 2 * prbs) 64

/-- Write the next entry of the interference ring (R194), SEQ last. An entry that the slot's pages do not let it store is lost (log
entry 41). -/
def Chip.interferenceWrite (c : Chip) (i : Nat) (values : List Int) : Chip :=
  match tabGet c.cells i with
  | none => c
  | some x =>
    let base := x.param 0xA007 0
    if base = 0 ∨ ¬ x.running then c
    else
      let seq := if x.ifSeq + 1 = 2 ^ 32 then 1 else x.ifSeq + 1
      let (frame, sl) := c.lastUplink x
      let at_ := base + ifStride x.cfg.prbs * (seq % 16)
      let body := (values.take x.cfg.prbs).flatMap (fun v => bytesLE 2 (unsign 16 v))
      let c := if c.check x.slot at_ (ifStride x.cfg.prbs) true = .ok then
          (c.twrite x.slot (at_ + 4) (bytesLE 2 frame ++ bytesLE 1 sl ++ bytesLE 1 0 ++ body)).twrite x.slot at_ (bytesLE 4 seq)
        else c
      c.updCell i (fun x => { x with ifSeq := seq })

/-- The SRS of a cell that waits longest is reported. -/
def Chip.srsOut (c : Chip) (i : Nat) (snr : List Int) : Chip :=
  match tabGet c.cells i with
  | none => c
  | some x =>
    match x.work.find? (fun w => w.kind == 5) with
    | none => c
    | some w => ((c.checkBudget i x w).fapiSend x.slot (.srsInd i w.frame w.sl w.ue snr)).dropWork i w.id

/-- CODING_JOB_COMPLETE (R180 to R188, R193, R194): a job ends on its engine, which is free again; the sheets' results for SRS and
interference go out alike. A result that the engine's job cannot give, or more iterations than it has, is no such event. -/
def codingJobComplete (ream : Fin 4) (result : JobResult) (c : Chip) : Chip :=
  let r := ream.val
  match jobFrom result with
  | none =>
    (match result with
     | .srs i snr => c.srsOut i.val snr
     | .interference i values => c.interferenceWrite i.val values
     | _ => c)
  | some (e, kind) =>
    match tabGet (c.strip r).engines e with
    | none => c
    | some j =>
      if j.kind ≠ kind then c
      else
        let free := c.setStrip r { c.strip r with engines := tabDel (c.strip r).engines e }
        match result with
        | .decoded _ llrs readOk passed iterations data m =>
          if j.iterations < iterations then c else free.decoded r e j llrs readOk passed iterations data m
        | .encoded _ => (free.stripCount r (R.STRIP_CNT2 r) F.STRIP_CNT2.CB_ENCODED).encoded j
        | .polarEncoded _ => free.encoded j
        | .uci _ passed payload m => free.resultOut j (fun _ w => .uciInd j.cell w.frame w.sl w.ue passed false payload 0 m)
        | .prach _ found => free.resultOut j (fun _ w => .rachInd j.cell w.frame w.sl (preambles found))
        | .pucch _ dtx payload confidence m =>
          if j.high = 4 then free.queueJobs r [{ j with kind := .polarDecode, high := 0 }]
          else free.resultOut j (fun _ w => .uciInd j.cell w.frame w.sl w.ue true dtx payload confidence.val m)
        | _ => c

/-! ### Failing engines (R184, R198) -/

/-- STRIP_ENGINE_ERROR (R184): the job goes back to its queue for another engine, and firmware clears the engine's enable bit. -/
def stripEngineError (ream : Fin 4) (engine : Fin 36) (c : Chip) : Chip :=
  let r := ream.val
  let e := engine.val
  if ¬ c.engineOn r e then c
  else
    let s := c.strip r
    let c := match tabGet s.engines e with
      | none => c
      | some j =>
        let c := c.setStrip r ⟨tabDel s.engines e, s.queue ++ [j]⟩
        (match j.kind, c.ulWork j with
         | .decode, some (_, w) => c.updCell j.cell (fun x => x.updBuf w.ue w.process j.block (fun b => { b with decoding := false }))
         | _, _ => c)
    let c := (c.mark (R.STRIP_ERR r) F.STRIP_ERR.STICKY_UE).stripCause r e 1
    let (_, f, k) := engineClass e
    let cfg := c.reg (R.STRIP_CFG r)
    let c := c.setLogged 0xF0 (R.STRIP_CFG r) (fput cfg f (clearBit (fget cfg f) k))
    (c.softError (atReam r) 0x07 .stripDisabled).loseCapacity

/-- STRIP_ENGINE_WATCHDOG (R198): an engine that holds a job past its watchdog is reported. -/
def stripEngineWatchdog (ream : Fin 4) (engine : Fin 36) (c : Chip) : Chip :=
  match tabGet (c.strip ream.val).engines engine.val with
  | none => c
  | some _ => c.stripCause ream.val engine.val 3

end Sys2Proof.Machine
end

