-- ==== Sys2Proof/Machine/Fapi.lean ====
section
/-! DEFINITION. FAPI (R161 to R163, R177, R181, R182, R186, R195): the L2-to-PHY ring, the requests, and the indications of slots. -/

namespace Sys2Proof.Machine

/-! ### The ring (R161) -/

/-- FAPI_TAIL_WRITE (R161): host L2 has filled entries up to the new index; the part notes when, and refuses messages of other
types, each naming its cell, with ERROR.indication (R162). -/
def fapiTailWrite (slice : Fin 1024) (v : W32) (unsupported : List (Fin 1024)) (c : Chip) : Chip :=
  let i := slice.val
  if ¬ c.sliceOn i then c
  else
    let slot := c.sliceSlot i
    let was := (c.ring slot 4 0).map (fun r => r.soft)
    let c := c.tailWrite i 4 0 (v.toNat % 65536) (R.FAPI_TAIL i)
    let now := (c.ring slot 4 0).map (fun r => r.soft)
    if now = was then c
    else
      let c : Chip := { c with fapiArrived := tabUpd c.fapiArrived slot [] (fun l => l ++ [(now.getD 0, c.tick)]) }
      unsupported.foldl (fun c cell => c.fapiSend slot (.errorInd cell.val (some .invalidConfig))) c

/-- Entries of the message group that starts at an index, up to the first without CONT; none while it is not whole. -/
def Chip.fapiSpan (c : Chip) (r : Ring) (at_ : Nat) : Nat → Option Nat
  | 0 => none
  | n + 1 =>
    if at_ = r.soft then none
    else
      let next := (at_ + 1) % r.size
      if (byteField (c.treadN r.slot (r.base + 32 * at_) 32) 14 1).testBit 0 then c.fapiSpan r next n else some next

/-- The tick at which the entries before an index had all arrived. -/
def arrivedBy (size own next : Nat) (l : List (Nat × Int)) (now : Int) : Int :=
  ((l.find? (fun x => decide ((next + size - own) % size ≤ (x.1 + size - own) % size) || next == x.1)).map (·.2)).getD now

/-- The next message of a slot's L2: the ring, the cell it names, when it was complete, and the index behind it. -/
def Chip.fapiNext (c : Chip) (slot : Nat) : Option (Ring × Nat × Int × Nat) :=
  match c.ring slot 4 0 with
  | none => none
  | some r =>
    match c.fapiSpan r r.own r.size with
    | none => none
    | some next =>
      let cell := byteField (c.treadN slot (r.base + 32 * r.own) 32) 12 2
      some (r, cell, arrivedBy r.size r.own next (tabGetD c.fapiArrived slot []) c.tick, next)

/-- The message is read; with the last of its buffer the ring's index moves on. -/
def Chip.fapiTake (c : Chip) (r : Ring) (next : Nat) (last : Bool) : Chip :=
  if ¬ last then c
  else
    let c := c.updRing r.slot 4 0 (fun r => { r with own := next })
    { c with fapiArrived := tabUpd c.fapiArrived r.slot [] (fun l => l.filter (fun x =>
        next != x.1 && decide ((next + r.size - r.own) % r.size ≤ (x.1 + r.size - r.own) % r.size))) }

/-- Handle the next message of a slot with a function of its cell and of when it was complete; one that names a cell outside the
slot's range is refused (R162, R299). -/
def Chip.fapiDo (c : Chip) (slot : Nat) (last : Bool) (f : Nat → Int → Chip → Chip) : Chip :=
  match c.fapiNext slot with
  | none => c
  | some (r, cell, arrived, next) =>
    let c := c.fapiTake r next last
    if inRange cell (c.cellRange slot) ∧ cell < 1024 then f cell arrived c else c.fapiSend slot (.errorInd cell (some .invalidConfig))

/-- PARAM_REQUEST (R162). -/
def paramRequest (slot : Fin 64) (last : Bool) (c : Chip) : Chip :=
  c.fapiDo slot.val last (fun cell _ c => c.fapiSend slot.val (.paramResponse cell))

/-! ### CONFIG.request (R163, R171, R194, R195) -/

/-- The vendor TLVs (R195): tag, length, and whether a value stands in the range. -/
def tlvOk (t : Tlv) : Bool :=
  let v := natLE t.value
  let n := t.value.length
  match t.tag with
  | 0xA000 => n == 1 && decide (1 ≤ v) && decide (v ≤ 32)
  | 0xA001 => n == 1 && decide (v ≤ 3)
  | 0xA002 => n == 2 && decide (v ≤ 160)
  | 0xA003 => n == 2 && decide (v ≤ 160)
  | 0xA004 => n == 1 && (v == 2 || v == 4 || v == 8 || v == 16)
  | 0xA005 => n == 2 && decide (v ≤ 500)
  | 0xA006 => n == 1 && decide (1 ≤ v) && decide (v ≤ 4)
  | 0xA007 => n == 8 && v % 256 == 0
  | 0xA008 => n == 1 && decide (v ≤ 1)
  | _ => true

/-- The interference ring of a configuration lies in a window of the slot with WRITE access (R194). -/
def Chip.ifRingOk (c : Chip) (slot : Nat) (x : CellConfig) : Bool :=
  match x.tlvs.find? (fun t => t.tag == 0xA007) with
  | none => true
  | some t => natLE t.value == 0 ||
    !c.deckleBad slot && (c.wins slot).any (fun w => w.write && w.holds (natLE t.value) (16 * ifStride x.prbs))

/-- The weight of a configuration that R171, R194 and R195 accept. -/
def Chip.configWeight (c : Chip) (slot : Nat) (x : CellConfig) : Option Nat :=
  if x.tlvs.all tlvOk ∧ c.ifRingOk slot x then cellWeight x else none

/-- A cell is brought up only in LOCKED_A or LOCKED_B (R33); one that is active is up already. -/
def Chip.mayBringUp (c : Chip) (cell : Nat) : Bool :=
  c.cellState cell == cellActive || c.tmState == tmLockedA || c.tmState == tmLockedB

/-- A configuration is accepted: the cell is admitted active on its home ream and the request is logged. -/
def Chip.configured (c : Chip) (slot cell : Nat) (x : CellConfig) : Option Chip :=
  match (if c.mayBringUp cell then c.configWeight slot x else none) with
  | none => none
  | some w =>
    let d : Chip := { c.setCellState cell cellDown with cells := tabPut c.cells cell (cellNew slot x) }
    (d.admitCell cell w cellActive).map (fun d => d.logOp (slot + 2) 6 cell 0 0)

/-- CONFIG_REQUEST (R163, R195, R202): a running cell answers MSG_INVALID_STATE; a value out of range, a carrier without a weight or a
failed admission test MSG_INVALID_CONFIG. A cell that a shadow relation holds counts as running. -/
def configRequest (slot : Fin 64) (last : Bool) (cfg : CellConfig) (c : Chip) : Chip :=
  c.fapiDo slot.val last (fun cell _ c =>
    let st := c.cellState cell
    let run := ((tabGet c.cells cell).map (fun x => x.running)).getD false
    if run ∨ (st ≠ cellDown ∧ st ≠ cellActive ∧ st ≠ cellShed) then c.fapiSend slot.val (.configResponse cell (some .invalidState))
    else match c.configured slot.val cell cfg with
      | none => c.fapiSend slot.val (.configResponse cell (some .invalidConfig))
      | some d => (d.sendStandby cell).fapiSend slot.val (.configResponse cell none))

/-! ### START and STOP (R162, R191) -/

/-- START_REQUEST (R162): a configured cell runs. -/
def startRequest (slot : Fin 64) (last : Bool) (c : Chip) : Chip :=
  c.fapiDo slot.val last (fun cell _ c =>
    match tabGet c.cells cell with
    | none => c.fapiSend slot.val (.errorInd cell (some .invalidState))
    | some x =>
      if c.cellState cell ≠ cellActive ∨ x.running then c.fapiSend slot.val (.errorInd cell (some .invalidState))
      else c.updCell cell (fun x => { x with running := true }))

/-- STOP_REQUEST (R162, R299): an active cell, running or not, is down; its shadow is told, and its L2 hears STOP.indication. -/
def stopRequest (slot : Fin 64) (last : Bool) (c : Chip) : Chip :=
  c.fapiDo slot.val last (fun cell _ c =>
    if c.cellState cell ≠ cellActive ∨ (tabGet c.cells cell).isNone then c.fapiSend slot.val (.errorInd cell (some .invalidState))
    else ((c.tellReleased cell).cellLeaves cell cellDown).fapiSend slot.val (.stopInd cell))

/-! ### P7 requests (R163, R177, R181, R182) -/

/-- Handle a P7 request for a slot of a running cell; one complete later than `us` before the air start is refused (R163). -/
def Chip.p7 (c : Chip) (slot : Nat) (last : Bool) (frame sl : Nat) (cutoff : Cell → Nat) (f : Nat → Cell → Int → Chip → Chip) : Chip :=
  c.fapiDo slot last (fun cell arrived c =>
    match tabGet c.cells cell with
    | none => c.fapiSend slot (.errorInd cell (some .invalidState))
    | some x =>
      let start := c.airStart x frame sl
      if ¬ x.running then c.fapiSend slot (.errorInd cell (some .invalidState))
      else if slotsPerFrame (x.cfg.mu % 4) ≤ sl ∨ start - (usTicks (cutoff x) : Nat) < arrived then c.fapiSend slot (.errorInd cell (some .slotErr))
      else f cell x start c)

/-- The downlink cutoff: T_proc + TX_ADV. -/
def downCutoff (x : Cell) : Nat := procTime.at_ (x.cfg.mu % 4) + x.txAdv

/-- A table by window without the windows before one. -/
def keepFrom (t : Tab Nat) (w : Nat) : Tab Nat := t.filter (fun x => decide (w ≤ x.1))

/-- New downlink work of a cell. -/
def Chip.addDl (c : Chip) (cell : Nat) (w : DlWork) : Chip :=
  c.updCell cell (fun x => { x with dlWork := x.dlWork ++ [{ w with id := x.nextWork }], nextWork := x.nextWork + 1 })

/-- Encoder time of a PDU's code blocks in units of 1/30 ns: 70.4 ns + E/30 ns each (R182). -/
def encodeCost (blocks : List Nat) : Nat := blocks.foldl (fun n e => n + 2112 + e) 0

/-- Jobs of one kind for the parts of a PDU. -/
def jobsOf (kind : JobKind) (cell work n : Nat) (deadline : Int) : List CodeJob :=
  (List.range n).map (fun b => ⟨kind, cell, deadline, work, b, 0, false, 0⟩)

/-- A PDCCH of a slot: its candidates are encoded; more than 64 in the slot are refused (R172, R183). -/
def Chip.pdcch (c : Chip) (slot cell : Nat) (start : Int) (frame sl n before : Nat) : Chip :=
  match tabGet c.cells cell with
  | none => c
  | some x =>
    if 64 < before + n then c.fapiSend slot (.errorInd cell (some .slotErr))
    else if n = 0 then c
    else
      let id := x.nextWork
      (c.addDl cell ⟨0, none, 0, frame, sl, n, none⟩).queueJobs (c.cellHome cell)
        (jobsOf .polarEncode cell id n (start - (usTicks x.txAdv : Nat)))

/-- Candidates of a slot that are accepted and not yet sent. -/
def Cell.candidates (x : Cell) (frame sl : Nat) : Nat :=
  x.dlWork.foldl (fun n w => if w.index.isNone ∧ w.frame = frame ∧ w.sl = sl then n + w.left else n) 0

/-- One downlink PDU (R177, R182): a PDSCH is charged against the window of its slot, or refused. -/
def Chip.dlPdu (c : Chip) (slot cell : Nat) (start : Int) (frame sl : Nat) (p : DlPdu) : Chip :=
  match tabGet c.cells cell with
  | none => c
  | some x =>
    match p with
    | .other => c
    | .pdcch n => c.pdcch slot cell start frame sl n (x.candidates frame sl)
    | .pdsch index blocks pmIdx =>
      let w := (windowOf start).toNat
      let used := tabGetD x.encUsed w 0
      let cost := encodeCost blocks
      if c.cuOf cell * 937500 < used + cost then
        (c.stripCount (c.cellHome cell) (R.STRIP_CNT2 (c.cellHome cell)) F.STRIP_CNT2.ENC_REFUSED).fapiSend slot (.errorInd cell (some .slotErr))
      else
        let c := c.updCell cell (fun x => { x with encUsed := tabPut (keepFrom x.encUsed (windowOf c.tick).toNat) w (used + cost) })
        c.addDl cell ⟨0, some index, pmIdx, frame, sl, blocks.length, none⟩

/-- DL_TTI_REQUEST (R163, R182): its PDUs in order. -/
def dlTtiRequest (slot : Fin 64) (last : Bool) (frame : Fin 1024) (sl : Nat) (pdus : List DlPdu) (c : Chip) : Chip :=
  c.p7 slot.val last frame.val sl downCutoff (fun cell _ start c =>
    pdus.foldl (fun c p => c.dlPdu slot.val cell start frame.val sl p) c)

/-- UL_DCI_REQUEST (R162). -/
def ulDciRequest (slot : Fin 64) (last : Bool) (frame : Fin 1024) (sl : Nat) (candidates : Nat) (c : Chip) : Chip :=
  c.p7 slot.val last frame.val sl downCutoff (fun cell x start c =>
    c.pdcch slot.val cell start frame.val sl candidates (x.candidates frame.val sl))

/-- TX_DATA_REQUEST (R162, R182): the data of accepted PDSCH PDUs of the slot, whose code blocks are then encoded. -/
def txDataRequest (slot : Fin 64) (last : Bool) (frame : Fin 1024) (sl : Nat) (blocks : List (Nat × List Byte)) (c : Chip) : Chip :=
  c.p7 slot.val last frame.val sl downCutoff (fun cell x start c =>
    blocks.foldl (fun (c : Chip) (b : Nat × List Byte) =>
      match x.dlWork.find? (fun w => w.index == some b.1 && w.frame == frame.val && w.sl == sl && w.data.isNone) with
      | none => c
      | some w =>
        let c := c.updCell cell (fun x => { x with dlWork := x.dlWork.map (fun v => if v.id = w.id then { v with data := some b.2 } else v) })
        c.queueJobs (c.cellHome cell) (jobsOf .encode cell w.id w.left (start - (usTicks x.txAdv : Nat)))) c)

/-- Parity check rows in use of a code block (R179). -/
def ldpcRows (bg2 : Bool) (e zc : Nat) : Nat :=
  let kb := if bg2 then 10 else 22
  let top := if bg2 then 42 else 46
  min top (max 4 (ceilDiv (e + 2 * zc) zc - kb))

/-- Decoder time of a PUSCH at I iterations in nanoseconds (R179). -/
def decodeCost (rows : List Nat) (i : Nat) : Nat := rows.foldl (fun n m => n + 128 + i * m * 20) 0

/-- The iterations that a PUSCH gets (R181): the cell's maximum, or the largest of at least 2 that fits. -/
def iterationsFor (rows : List Nat) (most room : Nat) : Option Nat :=
  ((List.range (most + 1)).reverse).find? (fun i => decide (1 ≤ i) && (i == most || decide (2 ≤ i)) && decide (decodeCost rows i ≤ room))

/-- New uplink work of a cell. -/
def Chip.addUl (c : Chip) (cell : Nat) (w : UlWork) : Chip :=
  c.updCell cell (fun x => { x with work := x.work ++ [{ w with id := x.nextWork }], nextWork := x.nextWork + 1 })

/-- The deadline of R196 that a result of a symbol serves. -/
def Chip.resultBy (c : Chip) (x : Cell) (kind frame sl sym : Nat) : Int :=
  c.symbolEnd x frame sl sym + (usTicks ((budgetOf kind).at_ (x.cfg.mu % 4)) : Nat)

/-- Uplink work that one job of the strip ends. -/
def Chip.ulJob (c : Chip) (cell kind ue frame sl sym : Nat) (job : JobKind) (high : Nat) : Chip :=
  match tabGet c.cells cell with
  | none => c
  | some x =>
    let j : CodeJob := ⟨job, cell, c.resultBy x kind frame sl sym, x.nextWork, 0, high, false, 0⟩
    (c.addUl cell ⟨0, kind, ue, 0, frame, sl, sym, 1, true, [], none⟩).queueJobs (c.cellHome cell) [j]

/-- The entry of a HARQ process (R214). -/
def Cell.setProc (x : Cell) (p : HarqProc) : Cell :=
  { x with procs := p :: x.procs.filter (fun q => !(q.ue == p.ue && q.process == p.process)) }

/-- A PUSCH (R179, R181, R189 to R191): charged against the window of its slot; new data releases the process's buffers. -/
def Chip.pusch (c : Chip) (cell : Nat) (x : Cell) (start : Int) (frame sl : Nat) (p : Pusch) : Chip :=
  let c := if p.newData then c.releaseBufs cell (fun b => b.ue == p.ue && b.process == p.process && !b.decoding) else c
  let highs := p.blocks.zipIdx.map (fun e =>
    let old := if p.newData then 0 else ((x.buf p.ue p.process e.2).map (fun b => b.high)).getD 0
    min p.ncb (max old e.1))
  let rows := highs.map (fun e => ldpcRows p.bg2 e p.zc)
  let w := (windowOf start).toNat
  let used := tabGetD x.decUsed w 0
  let most := x.param 0xA000 8
  let ream := c.cellHome cell
  let got := iterationsFor rows most (c.cuOf cell * 18750 - used)
  let c := match got with
    | none => c.stripCount ream (R.STRIP_CNT1 ream) F.STRIP_CNT1.TB_UNDECODED
    | some i =>
      let c := if i < most then c.stripCount ream (R.STRIP_CNT1 ream) F.STRIP_CNT1.ITER_CAP else c
      c.updCell cell (fun x => { x with decUsed := tabPut (keepFrom x.decUsed (windowOf c.tick).toNat) w (used + decodeCost rows i) })
  let by_ := c.resultBy x 2 frame sl p.last.val
  let jobs := highs.zipIdx.map (fun e => (⟨.decode, cell, by_, x.nextWork, e.2, e.1, p.newData, got.getD 0⟩ : CodeJob))
  let c := c.addUl cell ⟨0, 2, p.ue, p.process, frame, sl, p.last.val, p.blocks.length, true, [], none⟩
  let c := c.updCell cell (fun x => x.setProc ⟨p.ue, p.process, p.newData, p.rv, p.tbBytes, p.blocks.length⟩)
  let c := (c.queueJobs ream jobs).mirror cell [.process p.ue p.process p.newData p.rv p.tbBytes p.blocks.length]
  if p.uciBits = 0 then c else c.ulJob cell 3 p.ue frame sl p.last.val .polarDecode 0

/-- The occasions that R186 limits per slot: PRACH, and PUCCH formats 0, 1 and 4, that a list of PDUs holds. -/
def occasions (l : List UlPdu) : Nat × Nat :=
  l.foldl (fun (n : Nat × Nat) p => match p with
    | .prach _ => (n.1 + 1, n.2)
    | .pucch _ f _ _ => if f = 2 ∨ f = 3 then n else (n.1, n.2 + 1)
    | _ => n) (0, 0)

/-- One uplink PDU; `before` are those of the request ahead of it (R186). -/
def Chip.ulPdu (c : Chip) (slot cell : Nat) (start : Int) (frame sl : Nat) (before : List UlPdu) (p : UlPdu) : Chip :=
  match tabGet c.cells cell with
  | none => c
  | some x =>
    let n := occasions (before ++ [p])
    match p with
    | .pusch p => c.pusch cell x start frame sl p
    | .prach last =>
      if 4 < n.1 then c.fapiSend slot (.errorInd cell (some .slotErr)) else c.ulJob cell 4 0 frame sl last.val .prach 0
    | .pucch ue format _ last =>
      if format = 2 ∨ format = 3 then c.ulJob cell 3 ue frame sl last.val .polarDecode 0
      else if 128 < n.2 then c.fapiSend slot (.errorInd cell (some .slotErr))
      else c.ulJob cell 3 ue frame sl last.val .pucch format
    | .srs ue last => c.addUl cell ⟨0, 5, ue, 0, frame, sl, last.val, 1, true, [], none⟩

/-- UL_TTI_REQUEST (R163, R181, R186): its PDUs in order. -/
def ulTtiRequest (slot : Fin 64) (last : Bool) (frame : Fin 1024) (sl : Nat) (pdus : List UlPdu) (c : Chip) : Chip :=
  c.p7 slot.val last frame.val sl (fun x => uplinkCutoff.at_ (x.cfg.mu % 4)) (fun cell _ start c =>
    pdus.zipIdx.foldl (fun (c : Chip) (p : UlPdu × Nat) => c.ulPdu slot.val cell start frame.val sl (pdus.take p.2) p.1) c)

/-! ### Slots and windows of a cell (R163, R196) -/

/-- SLOT.indication for the slot that lies SLOT_ADV ahead of one that starts at a tick. -/
def Chip.slotIndication (c : Chip) (cell : Nat) (t : Int) : Chip :=
  match tabGet c.cells cell with
  | none => c
  | some x =>
    if ¬ x.running then c
    else
      let mu := x.cfg.mu % 4
      let n := slotsPerFrame mu
      let s := frameOf t * n + slotOf mu t + x.param 0xA006 2
      c.fapiSend x.slot (.slotInd cell (s / n % 1024) (s % n))

/-- The close of a window of a stream: uplink work whose last symbol it carries counts its budget from the latest close. -/
def Chip.noteClose (c : Chip) (i : Nat) (w : RxWindow) (t : Int) : Chip :=
  let upd := fun (x : Cell) =>
    if x.cfg.streams.any (fun s => s.val == i) then
      { x with work := x.work.map (fun u =>
          if u.frame = w.frame ∧ u.sl = w.slot ∧ u.last = w.symbol then { u with close := some (max t (u.close.getD t)) } else u) }
    else x
  { c with cells := c.cells.map (fun (x : Nat × Cell) => (x.1, upd x.2)) }

end Sys2Proof.Machine
end

