-- ==== Sys2Proof/Machine/Time.lean ====
section
/-! DEFINITION. Radio time and network timing (R24 to R44): chip time, the timing states, the sources,
the time-stamp queue reads and the radio-timed event table up to the firing itself (Events.lean). -/

namespace Sys2Proof.Machine

/-! ### The event table: judging (R40, R41) -/

/-- An unwritten entry: both words 0 with their complements. -/
def EvEntry.empty : EvEntry := ⟨0, 0, ~~~ 0, ~~~ 0, none, 0⟩

/-- Word 0 fields of an event entry (R38). -/
def evState : Fld := ⟨62, 2⟩
/-- ACTION of an event entry. -/
def evAction : Fld := ⟨58, 4⟩
/-- MU of an event entry. -/
def evMu : Fld := ⟨56, 2⟩
/-- FRAME of an event entry. -/
def evFrame : Fld := ⟨46, 10⟩
/-- TICK of an event entry. -/
def evTick : Fld := ⟨25, 21⟩
/-- REPEAT of an event entry. -/
def evRepeat : Fld := ⟨12, 13⟩
/-- COUNT of an event entry. -/
def evCount : Fld := ⟨0, 12⟩

/-- Put word 0 of an entry with its complement. -/
def EvEntry.put0 (e : EvEntry) (w : W64) : EvEntry := { e with w0 := w, c0 := ~~~ w }

/-- Entry i of the event table. -/
def Chip.event (c : Chip) (i : Nat) : EvEntry := tabGetD c.events i .empty

/-- Put entry i. -/
def Chip.setEvent (c : Chip) (i : Nat) (e : EvEntry) : Chip := { c with events := tabPut c.events i e }

/-- The period of the frame number in fine ticks. -/
def tickPeriod : Int := (1024 * ticksPerFrame : Nat)

/-- Judge an armed instant against radio time (R40): the absolute tick at which it is due, or none when it
lies in the 512 frames behind, the current fine tick excluded. -/
def judgeInstant (now : Int) (frame tick : Nat) : Option Int :=
  let inst : Int := (frame * ticksPerFrame + tick : Nat)
  let behind := (now - inst) % tickPeriod
  if behind = 0 then some now
  else if behind ≤ (512 * ticksPerFrame : Nat) then none
  else some (now + (tickPeriod - behind))

/-- Judge entry i, which is armed: it is due at a tick, or goes late and is counted. -/
def Chip.judge (c : Chip) (i : Nat) : Chip :=
  let e := c.event i
  match judgeInstant c.tick (fget e.w0 evFrame) (fget e.w0 evTick) with
  | some t => c.setEvent i { e with due := some t, notBefore := t }
  | none =>
    ((c.setEvent i { e.put0 (fput e.w0 evState 3) with due := none }).bump R.EVT_STAT F.EVT_STAT.LATE_CNT 1).mark
      R.EVT_STAT F.EVT_STAT.STICKY_LATE

/-- EVENT_REJUDGE (R41): every armed entry is judged against the radio time. -/
def Chip.rejudge (c : Chip) : Chip :=
  (c.events.filter (fun x => fget x.2.w0 evState == 1)).foldl (fun c x => c.judge x.1) c

/-! ### Timing states (R31 to R33, R429) -/

/-- FREERUN with cells admitted (R33): every reception window closes and timing loss is reported for each admitted cell; the release
of class 0 packets stops with the event table (R41). -/
def freerunEntry (c : Chip) : Chip :=
  if ¬ cellsAdmitted c then c
  else
    let c := (c.streams.map (·.1)).foldl (fun c i => c.closeEmpty i true) c
    c.tellCells (fun i _ => c.cellCounts i) none

/-- Move to a timing state: RT_VALID follows, entry 1 is signalled, and radio time that becomes valid
rejudges the event table; FREERUN is entered under R33. -/
def Chip.tmEnter (c : Chip) (s : Nat) : Chip :=
  let was := c.rtValid
  let old := c.tmState
  let c := (c.setFld R.TM_STATE F.TM_STATE.STATE s).setFlag R.TM_STATE F.TM_STATE.RT_VALID (tmValid s)
  let c := if s = old then c else c.irq 1
  let c := if s = tmFreerun ∧ old ≠ tmFreerun then freerunEntry c else c
  if tmValid s && !was then c.rejudge else if was && !tmValid s then c.voidRtwaits else c

/-- Chip time takes its phase from domain d; another domain than the last one is a domain switch
(R429). -/
def Chip.takePhase (c : Chip) (d : Nat) : Chip :=
  let sw := match c.time.lastPhase with
    | none => false
    | some l => l != d
  let c := { c with time := { c.time with lastPhase := some d } }
  if sw then ((c.bump R.TM_STATE F.TM_STATE.SWITCH_CNT 1).mark R.TM_STATE F.TM_STATE.SWITCHED).irq 1 else c

/-- Enter ACQUIRING on domain d: chip time steps to its phase (R28), and the 64 s count starts. -/
def Chip.acquire (c : Chip) (d : Nat) : Chip :=
  let chip := ((c.time.chip : Int) + (c.domain d).offset * 65536).toNat
  let c := (c.takePhase d).setPhase d 0
  ({ c with time := { c.time with chip := chip, acquiring := d, lockSince := c.time.uptime } }).tmEnter tmAcquiring

/-- Enter LOCKED_A or LOCKED_B, hitlessly. -/
def Chip.lockTo (c : Chip) (d : Nat) : Chip :=
  let c := { c with time := { c.time with holdover := none } }
  (c.takePhase d).tmEnter (if d = 0 then tmLockedA else tmLockedB)

/-- Enter HOLDOVER: the frequency is frozen, or assisted when the selected source is valid (R32). -/
def Chip.enterHoldover (c : Chip) : Chip :=
  ({ c with time := { c.time with holdover := some ⟨c.time.uptime, c.freqValid, none⟩ } }).tmEnter tmHoldover

/-- PPS when it is the phase source and present, otherwise HOLDOVER. -/
def Chip.ppsOrHoldover (c : Chip) : Chip :=
  if c.flag R.PPS_CFG F.PPS_CFG.PHASE_SRC && c.time.ppsPresent then c.tmEnter tmPps else c.enterHoldover

/-- DOMAIN_GOOD (R30, R31): the domain is enabled, its conditions have held for 16 Sync intervals, and the
timing state moves. -/
def domainGood (d : Fin 2) (c : Chip) : Chip :=
  let cfg := R.PTP_DOM_CFG d
  let st := R.PTP_DOM_STAT d
  if c.flag cfg F.PTP_DOM_CFG.ENABLE ∧ ¬ c.domGood d ∧ 16 ≤ (c.domain d).goodRun ∧
      c.fld st F.PTP_DOM_STAT.GM_CLASS ≤ c.fld cfg F.PTP_DOM_CFG.CLASS_MAX then
    let c := (c.mark st F.PTP_DOM_STAT.GOOD).setDomain d (fun x => { x with goodSince := c.time.uptime })
    let best := if c.domGood 0 then 0 else 1
    match c.tmState with
    | 0 => c.acquire best
    | 1 => if d.val = 0 ∧ c.time.acquiring = 1 then c.acquire 0 else c
    | 4 => c.lockTo best
    | 5 => c.lockTo best
    | _ => c
  else c

/-- The transitions of a domain that is no longer good (R31). -/
def Chip.domainDown (c : Chip) (d : Nat) : Chip :=
  let c := (c.setFlag (R.PTP_DOM_STAT d) F.PTP_DOM_STAT.GOOD false).setDomain d (fun x => { x with goodRun := 0 })
  let other := 1 - d
  if c.tmState = tmAcquiring ∧ c.time.acquiring = d then
    if c.domGood other then c.acquire other else c.tmEnter tmFreerun
  else if c.tmState = (if d = 0 then tmLockedA else tmLockedB) then
    if c.domGood other then c.lockTo other else c.ppsOrHoldover
  else c

/-- DOMAIN_LOST (R30, R31). A loss by clock class needs the announced class to exceed CLASS_MAX. -/
def domainLost (d : Fin 2) (why : DomainLoss) (c : Chip) : Chip :=
  let st := R.PTP_DOM_STAT d
  let cfg := R.PTP_DOM_CFG d
  match why with
  | .missedSyncs =>
    let n := max (c.fld st F.PTP_DOM_STAT.LOSS_RUN) (c.fld cfg F.PTP_DOM_CFG.LOSS_INTERVALS)
    (c.setFld st F.PTP_DOM_STAT.LOSS_RUN n).domainDown d
  | .announceTimeout => (c.setDomain d (fun x => { x with announceOk := false })).domainDown d
  | .clockClass =>
    if c.fld cfg F.PTP_DOM_CFG.CLASS_MAX < c.fld st F.PTP_DOM_STAT.GM_CLASS then c.domainDown d else c

/-- ACQUIRE_LOCK (R31): the acquired domain's phase error has stayed within 100 ns for 64 s. -/
def acquireLock (c : Chip) : Chip :=
  let d := c.time.acquiring
  if c.tmState = tmAcquiring ∧ c.domGood d ∧ (c.domain d).offset.natAbs ≤ 100 ∧
      c.time.lockSince + 64 * nsPerSec ≤ c.time.uptime then c.lockTo d else c

/-- WTR_EXPIRY (R31): A has been good for WTR seconds with REVERT set. -/
def wtrExpiry (c : Chip) : Chip :=
  let cfg := R.PTP_DOM_CFG 0
  if c.tmState = tmLockedB ∧ c.domGood 0 ∧ c.flag cfg F.PTP_DOM_CFG.REVERT ∧
      (c.domain 0).goodSince + c.fld cfg F.PTP_DOM_CFG.WTR * nsPerSec ≤ c.time.uptime then c.lockTo 0 else c

/-- PPS_IN_EDGE (R29, R43): the rising edge is stamped. -/
def ppsInEdge (c : Chip) : Chip :=
  let stamp := (c.taiNs % nsPerSec) * 2 ^ 32 + (c.taiNs / nsPerSec) % 2 ^ 32
  let c := c.setReg R.PPS_IN_STAMP (BitVec.ofNat 64 stamp)
  { c with time := { c.time with ppsPresent := true, ppsLast := c.time.uptime } }

/-- PPS_IN_MISSING (R31): no edge for 3 s; the PPS state moves to HOLDOVER. -/
def ppsInMissing (c : Chip) : Chip :=
  if c.time.ppsLast + 3 * nsPerSec ≤ c.time.uptime then
    let c := { c with time := { c.time with ppsPresent := false } }
    if c.tmState = tmPps then c.enterHoldover else c
  else c

/-- The uptime at which holdover ends (R32). -/
def Chip.holdoverEnd (c : Chip) (h : Holdover) : Nat :=
  let free := c.fld R.HOLD_CFG F.HOLD_CFG.LIMIT_FREE * nsPerSec
  let sync := c.fld R.HOLD_CFG F.HOLD_CFG.LIMIT_SYNCE * nsPerSec
  if h.assisted then
    match h.sourceLost with
    | none => h.entered + sync
    | some t => min (h.entered + sync) (t + free)
  else h.entered + free

/-- HOLDOVER_LIMIT_EXPIRY (R32): the applicable limit has passed. -/
def holdoverLimitExpiry (c : Chip) : Chip :=
  match c.time.holdover with
  | none => c
  | some h =>
    if c.tmState = tmHoldover ∧ c.holdoverEnd h ≤ c.time.uptime then
      ({ c with time := { c.time with holdover := none } }).tmEnter tmFreerun
    else c

/-- FREQUENCY_SOURCE_CHANGE (R32). -/
def frequencySourceChange (src : FreqSource) (valid : Bool) (c : Chip) : Chip := c.setFreqSource src valid

/-- PPS_OUT_PULSE (R29): at a chip-time second, a pulse of the configured width. -/
def ppsOutPulse (c : Chip) : Chip :=
  if c.flag R.PPS_CFG F.PPS_CFG.OUT_EN then c.send (.ppsPulse (c.fld R.PPS_CFG F.PPS_CFG.WIDTH)) else c

/-- The domain whose servo chip time follows: in ACQUIRING and the LOCKED states. -/
def Chip.servoDomain (c : Chip) : Option Nat :=
  match c.tmState with
  | 1 => some c.time.acquiring
  | 2 => some 0
  | 3 => some 1
  | _ => none

/-- Radio time has moved on from a tick: each running cell whose slot has begun since sends its SLOT.indication (R163). -/
def Chip.slotsBegun (c : Chip) (before : Int) : Chip :=
  let now := c.tick
  if ¬ c.rtValid ∨ now ≤ before then c
  else c.cells.foldl (fun (c : Chip) (x : Nat × Cell) =>
    let mu := x.2.cfg.mu % 4
    if before < slotStart mu now (slotOf mu now) then c.slotIndication x.1 now else c) c

/-- CHIP_TIME_SLEW (R28): one control-clock cycle of the phase accumulator, which advances chip time by
1 ns and slews it by `corr` (2⁻¹⁶ ns, at most 1 ns) toward the servo's estimate, at most 20 ns in one
second. A slew that points away from the estimate or passes that rate does not occur. -/
def chipTimeSlew (corr : Int) (c : Chip) : Chip :=
  match c.servoDomain with
  | none => c
  | some d =>
    let off := (c.domain d).offset
    let sec := c.time.chip / (65536 * nsPerSec)
    let used := if sec = c.time.slewSecond then c.time.slewUsed else 0
    if (0 < off ∧ 0 ≤ corr ∨ off < 0 ∧ corr ≤ 0) ∧ used + corr.natAbs ≤ 20 * 65536 then
      ({ c with time := { c.time with chip := ((c.time.chip : Int) + 65536 + corr).toNat,
                                      uptime := c.time.uptime + 1, slewSecond := sec,
                                      slewUsed := used + corr.natAbs } }).slotsBegun c.tick
    else c

/-! ### RT_OFFSET (R27) -/

/-- The range of RT_OFFSET (R26). -/
def rtOffsetOk (v : W32) : Bool := decide ((signed 32 v.toNat).natAbs ≤ 1258291200)

/-- Apply a matching complemented write to RT_OFFSET (R27). -/
def applyRtOffset (c : Chip) (origin : Nat) (v : W32) : Chip :=
  if cellsAdmitted c ∨ ¬ rtOffsetOk v then c.mark R.TM_STATE F.TM_STATE.OFFSET_REFUSED
  else
    let c := c.setLogged origin R.RT_OFFSET (v.setWidth 64)
    if c.rtValid then c.rejudge else c

/-- RT_OFFSET_WRITE (R7, R27). -/
def rtOffsetWrite (r : Requester) (v k : W32) (c : Chip) : Chip :=
  pairWrite r atChip R.RT_OFFSET.addr false (k == ~~~ v) (fun c => applyRtOffset c (c.origin r) v) c

/-! ### Reads of the time stamps (R43, R44) -/

/-- RT_VIEW[mu] (R43). -/
def Chip.rtViewWord (c : Chip) (mu : Nat) : W64 :=
  let (slot, sym, t) := rtView mu (tickInFrame c.tick)
  BitVec.ofNat 64 (frameOf c.tick * 2 ^ 32 + slot * 2 ^ 24 + sym * 2 ^ 16 + t)

/-- CT_NS, RT_NOW and RT_VIEW[0..3] as they stand. -/
def Chip.ctWords (c : Chip) : List W64 :=
  [BitVec.ofNat 64 ((c.taiNs % nsPerSec) * 2 ^ 32 + (c.time.chip % 65536) * 2 ^ 16),
   BitVec.ofNat 64 (frameOf c.tick * 2 ^ 32 + tickInFrame c.tick),
   c.rtViewWord 0, c.rtViewWord 1, c.rtViewWord 2, c.rtViewWord 3]

/-- CT_SEC as it stands. -/
def Chip.ctSec (c : Chip) : W64 := BitVec.ofNat 64 (c.taiNs / nsPerSec % 2 ^ 48)

/-- CT_SEC_READ (R43): latches the other words for the requester. -/
def ctSecRead (r : Requester) (c : Chip) : Chip :=
  if mayReachBar0 r then
    (c.setReq r (fun q => { q with ctLatch := some c.ctWords })).send (.readData r c.ctSec)
  else c

/-- The words of a time-stamp entry: TSQ_HI and TSQ_LO (R44). -/
def TxStamp.words (s : TxStamp) : W64 × W64 :=
  (BitVec.ofNat 64 (s.id.toNat * 2 ^ 48 + s.sec % 2 ^ 48),
   BitVec.ofNat 64 (2 ^ 63 + (s.sub % 4) * 2 ^ 58 + s.ns % 2 ^ 32))

/-- The head entry of port p's queue, as its words; both 0 when it is empty. -/
def Chip.tsqHead (c : Chip) (p : Nat) : W64 × W64 :=
  match nth c.tsq p [] with
  | [] => (0, 0)
  | s :: _ => s.words

/-- TSQ_HI_READ (R44): latches the head entry. -/
def tsqHiRead (r : Requester) (p : Fin 4) (c : Chip) : Chip :=
  if mayReachBar0 r then (c.latchPop r (R.TSQ_HI p).addr (c.tsqHead p).2).send (.readData r (c.tsqHead p).1) else c

/-- TSQ_LO_READ (R44): returns the rest of the latched entry and pops it. -/
def tsqLoRead (r : Requester) (p : Fin 4) (c : Chip) : Chip :=
  if mayReachBar0 r then
    let (w, c) := c.takePop r (R.TSQ_HI p).addr (c.tsqHead p).2
    let q := (nth c.tsq p []).drop 1
    (({ c with tsq := setNth c.tsq p q }).setFld (R.TSQ_STAT p) F.TSQ_STAT.COUNT q.length).send (.readData r w)
  else c

/-! ### Writing and reading event entries (R37, R38, R44) -/

/-- A writer may write entry i: firmware 0 to 3,839, others 3,840 to 4,095. -/
def evtRangeOk (r : Requester) (i : Nat) : Bool :=
  match r with
  | .firmware => decide (i < 3840)
  | _ => decide (3840 ≤ i)

/-- The action and argument of staged words are allowed to a writer (R37); a TICK past the frame is
refused alike (log entry 14). -/
def evtActionOk (r : Requester) (w0 w1 : W64) : Bool :=
  let a := fget w0 evAction
  a ≤ 6 && decide (fget w0 evTick < ticksPerFrame) && !(a == 6 && fget w1 ⟨0, 2⟩ == 3) &&
    (r == .firmware || a == 0 || a == 6)

/-- Copy checked words into entry i: ACTION 0 leaves it idle, otherwise it is armed and judged while radio
time is valid (R40, R41). -/
def Chip.writeEvent (c : Chip) (origin i : Nat) (w0 w1 : W64) : Chip :=
  let old := c.event i
  let arm := fget w0 evAction != 0
  let n0 := fput w0 evState (if arm then 1 else 0)
  let c := c.logTable origin 0 i old.w0 old.w1 n0 w1
  let c := (c.setEvent i ⟨n0, w1, ~~~ n0, ~~~ w1, none, 0⟩).mend (.event (Fin.ofNat 4096 i))
  if arm && c.rtValid then c.judge i else c

/-- EVT_CMD write (R37). -/
def evtWriteEntry (r : Requester) (i : Fin 4096) (c : Chip) : Chip :=
  let v0 := c.reg (R.EVT_STAGE 0)
  let v1 := c.reg (R.EVT_STAGE 1)
  if ¬ mayReachBar0 r then c
  else if c.early r then c.noteEarly
  else if c.reg (R.EVT_STAGE 2) ≠ ~~~ v0 ∨ c.reg (R.EVT_STAGE 3) ≠ ~~~ v1 then
    (c.integrity atChip).setFld R.EVT_STAT F.EVT_STAT.ERR 1
  else if ¬ evtRangeOk r i then c.setFld R.EVT_STAT F.EVT_STAT.ERR 2
  else if ¬ evtActionOk r v0 v1 then c.setFld R.EVT_STAT F.EVT_STAT.ERR 3
  else (c.writeEvent (c.origin r) i v0 v1).setFld R.EVT_STAT F.EVT_STAT.ERR 0

/-- EVT_CMD read-back (R44): the entry and its complements go to the staging registers. -/
def evtReadEntry (r : Requester) (i : Fin 4096) (c : Chip) : Chip :=
  if ¬ mayReachBar0 r then c
  else if c.early r then c.noteEarly
  else
    let e := c.event i
    ((((c.setReg (R.EVT_STAGE 0) e.w0).setReg (R.EVT_STAGE 1) e.w1).setReg (R.EVT_STAGE 2) e.c0).setReg
      (R.EVT_STAGE 3) e.c1).setFld R.EVT_STAT F.EVT_STAT.ERR 0

/-- EVT_CMD disarm (R44): the entry goes idle; the writer's range applies (log entry 14). -/
def evtDisarm (r : Requester) (i : Fin 4096) (c : Chip) : Chip :=
  if ¬ mayReachBar0 r then c
  else if c.early r then c.noteEarly
  else if ¬ evtRangeOk r i then c.setFld R.EVT_STAT F.EVT_STAT.ERR 2
  else
    let e := c.event i
    let n0 := fput e.w0 evState 0
    let c := c.logTable (c.origin r) 0 i e.w0 e.w1 n0 e.w1
    (c.setEvent i { e.put0 n0 with due := none }).setFld R.EVT_STAT F.EVT_STAT.ERR 0

/-! ### Choosing and advancing the entry that fires (R39, R40) -/

/-- The armed entry whose instant comes first among those due, the lowest index on a tie. -/
def Chip.nextDue (c : Chip) : Option (Nat × EvEntry) :=
  let now := c.tick
  c.events.foldl (fun best x =>
    if fget x.2.w0 evState = 1 ∧ x.2.notBefore ≤ now then
      match x.2.due with
      | none => best
      | some t =>
        if t ≤ now then
          match best with
          | none => some x
          | some b => if t < (b.2.due).getD t then some x else best
        else best
    else best) none

/-- The instant that comes REPEAT symbols of numerology mu after the one at `t`, at the same offset in its
symbol, or that symbol's last tick (R40). -/
def nextInstant (mu rep : Nat) (t : Int) : Int :=
  let (slot, sym, off) := rtView mu (tickInFrame t)
  let n := slot * 14 + sym + rep
  let perFrame := 140 * 2 ^ mu
  let m := n % perFrame
  let off := min off (symLen mu (m / 14) (m % 14) - 1)
  (t / (ticksPerFrame : Nat) + (n / perFrame : Nat)) * (ticksPerFrame : Nat) +
    (symStart mu (m / 14) (m % 14) + off : Nat)

/-- The first instant of a repeating entry after `t` that is not behind `now`. -/
def skipTo (mu rep : Nat) (now : Int) : Nat → Int → Int
  | 0, t => t
  | n + 1, t => if now ≤ t then t else skipTo mu rep now n (nextInstant mu rep t)

/-- What an entry holds after it fires at `now`: fired, or armed again at its next instant. An instant that fell behind fires once at
once, and the entry then resumes its period ahead (R40). -/
def EvEntry.afterFire (e : EvEntry) (now : Int) : EvEntry :=
  let rep := fget e.w0 evRepeat
  let cnt := fget e.w0 evCount
  let mu := fget e.w0 evMu
  match e.due with
  | none => e
  | some t =>
    if rep = 0 ∨ cnt = 0 then { e.put0 (fput e.w0 evState 2) with due := none }
    else
      let n := nextInstant mu rep t
      let n := if e.notBefore < t then skipTo mu rep now (now - t).toNat n else n
      let w := fput (fput e.w0 evFrame (frameOf n)) evTick (tickInFrame n)
      let w := if cnt = 0xFFF then w else fput w evCount (cnt - 1)
      { e.put0 w with due := some n, notBefore := if n < now then t else n }

end Sys2Proof.Machine
end

