-- ==== Sys2Proof/Machine/Shadow.lean ====
section
/-! DEFINITION. Cell shadowing (R213 to R218): standby, mirror records, heartbeats, takeover, handover and release. -/

namespace Sys2Proof.Machine

/-! ### Standby (R213) -/

/-- Admit a cell in standby for a home chip, none where it is refused. -/
def Chip.standby (c : Chip) (src i slot : Nat) (cfg : CellConfig) : Option Chip :=
  if ¬ c.shadowing ∨ ¬ c.rtValid ∨ c.slotKind slot ≠ 1 ∨ c.slotState slot ≠ 1 ∨ ¬ inRange i (c.cellRange slot) then none
  else match c.configWeight slot cfg with
    | none => none
    | some w =>
      let d : Chip := { c with cells := tabPut c.cells i { cellNew slot cfg with peer := some src } }
      d.admitCell i w cellStandby

/-- STANDBY_REQUEST (R202, R213): a home asks this chip to hold a cell in standby; a request for a cell that it holds for that home
already is accepted again. -/
def standbyRequest (src : W16) (cell : Fin 1024) (slot : Fin 64) (cfg : CellConfig) (c : Chip) : Chip :=
  let i := cell.val
  let s := src.toNat
  let mine := ((tabGet c.cells i).bind (fun x => x.peer)) == some s && c.cellState i == cellStandby
  if mine then c.toPeer s (.standbyAnswer cell true)
  else if c.cellCounts i then c.toPeer s (.standbyAnswer cell false)
  else match c.standby s i slot.val cfg with
    | none => c.toPeer s (.standbyAnswer cell false)
    | some d =>
      let d : Chip := { d with peers := tabPut d.peers s ⟨d.time.uptime, false⟩ }
      d.toPeer s (.standbyAnswer cell true)

/-! ### Mirror records (R214) -/

/-- Bytes of a mirror item: its soft values, five bits each (log entry 45). -/
def mirrorBytes : MirrorItem → Nat
  | .soft _ _ _ vs => ceilDiv (5 * vs.length) 8
  | _ => 0

/-- The items of a set within what is left of the window's budget: code blocks beyond it go as lost markers. -/
def mirrorFit : List MirrorItem → Nat → Nat → List MirrorItem × Nat × Nat
  | [], used, _ => ([], used, 0)
  | .soft u p b vs :: t, used, limit =>
    let n := mirrorBytes (.soft u p b vs)
    if used + n ≤ limit then
      let (l, x, k) := mirrorFit t (used + n) limit
      (.soft u p b vs :: l, x, k)
    else
      let (l, x, k) := mirrorFit t limit limit
      (.lost u p b :: l, x, k + 1)
  | m :: t, used, limit =>
    let (l, x, k) := mirrorFit t used limit
    (m :: l, x, k)

/-- The slot of a cell that ended last: its frame and slot. -/
def Chip.slotBefore (c : Chip) (x : Cell) : Nat × Nat :=
  let n := slotsPerFrame (x.cfg.mu % 4)
  let s := (frameOf c.tick * n + slotOf (x.cfg.mu % 4) c.tick + 1024 * n - 1) % (1024 * n)
  (s / n, s % n)

/-- MIRROR_RECORD_SEND (R214): the set of a protected cell's last slot, within MIRROR_KIB per CU of weight per window. -/
def mirrorRecordSend (cell : Fin 1024) (c : Chip) : Chip :=
  let i := cell.val
  match tabGet c.cells i with
  | none => c
  | some x =>
    if ¬ c.protected_ i ∨ (c.cellState i ≠ cellActive ∧ c.cellState i ≠ cellHanding) then c
    else
      let w := (windowOf c.tick).toNat
      let used := if x.mirrorUsed.1 = w then x.mirrorUsed.2 else 0
      let limit := c.fld R.RADIO_CFG F.RADIO_CFG.MIRROR_KIB * 1024 * c.cuOf i / 8
      let (items, used, lost) := mirrorFit x.toMirror used limit
      let c := c.updCell i (fun x => { x with toMirror := [], mirrorUsed := (w, used) })
      let c := c.bump R.SHADOW_STAT F.SHADOW_STAT.MIRROR_TRUNC lost
      let (frame, sl) := c.slotBefore x
      c.send (.mirrorSet (c.fld (R.CELL_CTL i) F.CELL_CTL.SHADOW_CHIP) i frame sl items)

/-- Apply a mirror item to a standby cell. -/
def Cell.applyMirror (x : Cell) : MirrorItem → Cell
  | .config cfg => { x with cfg := cfg }
  | .process u p nd rv tb n => x.setProc ⟨u, p, nd, rv, tb, n⟩
  | .lost u p b => { x with harq := x.harq.filter (fun h => !h.is u p b) }
  | .release u p b => { x with harq := x.harq.filter (fun h => !h.is u p b) }
  | .soft u p b vs =>
    let x := if (x.buf u p b).isSome then x
      else { x with harq := x.harq ++ [⟨u, p, b, [], 0, x.nextOrder, false⟩] }
    { x.updBuf u p b (fun h =>
        { h with values := vs.foldl (fun (t : List (Nat × Int)) (v : Nat × Int) => putSoft t v.1 v.2) h.values
                 high := vs.foldl (fun (n : Nat) (v : Nat × Int) => max n (v.1 + 1)) h.high
                 order := x.nextOrder }) with nextOrder := x.nextOrder + 1 }

/-- MIRROR_RECORD_RECEIVE (R214): the shadow applies a whole set and acknowledges it. -/
def mirrorRecordReceive (src : W16) (cell : Fin 1024) (frame : Fin 1024) (sl : Nat) (items : List MirrorItem) (c : Chip) : Chip :=
  let i := cell.val
  match tabGet c.cells i with
  | none => c
  | some x =>
    if x.peer ≠ some src.toNat ∨ (c.cellState i ≠ cellStandby ∧ c.cellState i ≠ cellTaking) then c
    else
      let c := c.updCell i (fun x => { items.foldl Cell.applyMirror x with mirrored := some (frame.val, sl) })
      c.toPeer src.toNat (.mirrored cell frame sl)

/-! ### Heartbeats (R215, R218) -/

/-- The cells that this chip serves and names a shadow for. -/
def Chip.shadowed (c : Chip) (dest : Nat) : List (Fin 1024 × W32) :=
  ((List.finRange 1024).filter (fun i =>
    (c.cellState i.val == cellActive || c.cellState i.val == cellHanding) && c.flag (R.CELL_CTL i.val) F.CELL_CTL.SHADOW_EN &&
    c.fld (R.CELL_CTL i.val) F.CELL_CTL.SHADOW_CHIP == dest)).map (fun i => (i, BitVec.ofNat 32 (c.fld (R.CELL_STAT i.val) F.CELL_STAT.EPOCH)))

/-- The shadow chips that this chip's cells name. -/
def Chip.shadowChips (c : Chip) : List Nat :=
  (((c.cells.map (·.1)).filter (fun i => (c.cellState i == cellActive || c.cellState i == cellHanding) &&
    c.flag (R.CELL_CTL i) F.CELL_CTL.SHADOW_EN)).map (fun i => c.fld (R.CELL_CTL i) F.CELL_CTL.SHADOW_CHIP)).eraseDups

/-- HEARTBEAT_SEND (R215): every HB_PERIOD, on each port of HB_PATHS that is up, to each shadow chip. -/
def heartbeatSend (c : Chip) : Chip :=
  if ¬ c.shadowing ∨ c.time.uptime < c.lastHeartbeat + c.fld R.RADIO_CFG F.RADIO_CFG.HB_PERIOD * 1000 then c
  else
    let ports := (List.range 6).filter (fun p => (c.fld R.RADIO_CFG F.RADIO_CFG.HB_PATHS).testBit p && c.fabUp p)
    let inc := BitVec.ofNat 32 (c.fld R.FAB_STAT F.FAB_STAT.CHIP_INC)
    let dests := c.shadowChips
    let c : Chip := { c with lastHeartbeat := c.time.uptime }
    dests.foldl (fun c d => ports.foldl (fun c p => c.send (.peer p d (.heartbeat inc (c.shadowed d)))) c) c

/-- A peer has been heard. -/
def Chip.heard (c : Chip) (src : Nat) : Chip := { c with peers := tabPut c.peers src ⟨c.time.uptime, false⟩ }

/-- The epoch of a cell. -/
def Chip.epoch (c : Chip) (i : Nat) : Nat := c.fld (R.CELL_STAT i) F.CELL_STAT.EPOCH

/-- A cell that this chip serves is held at a higher epoch elsewhere: it stops at its next frame boundary (R218). -/
def Chip.compareEpochs (c : Chip) (l : List (Fin 1024 × W32)) : Chip :=
  l.foldl (fun (c : Chip) (x : Fin 1024 × W32) =>
    let i := x.1.val
    if (c.cellState i = cellActive ∨ c.cellState i = cellHanding) ∧ c.epoch i < x.2.toNat then c.stopAt i (nextFrame c.tick) stopEpoch else c) c

/-- The home of a cell is told that its shadow is lost (R213, R215): an active cell stays, one that was handing over is kept (R218). -/
def Chip.shadowLost (c : Chip) (i : Nat) : Chip :=
  let r := R.CELL_STAT i
  let c := if c.cellState i = cellHanding then
      ((c.setCellState i cellActive).updCell i (fun x => { x with boundary := none })).setFlag (R.CELL_CTL i) F.CELL_CTL.HANDOVER false
    else c
  let c := (c.setFlag r F.CELL_STAT.PROTECTED false).setFlag r F.CELL_STAT.SHADOW_LOST true
  (c.updCell i (fun x => { x with toMirror := [], retryAt := c.time.uptime + 10 * nsPerSec })).irq 13

/-- The answer to a standby request (R213). -/
def Chip.standbyAnswered (c : Chip) (src i : Nat) (ok : Bool) : Chip :=
  if c.cellState i ≠ cellActive ∨ ¬ c.flag (R.CELL_CTL i) F.CELL_CTL.SHADOW_EN ∨ c.fld (R.CELL_CTL i) F.CELL_CTL.SHADOW_CHIP ≠ src then c
  else if ok then (c.setFlag (R.CELL_STAT i) F.CELL_STAT.PROTECTED true).setFlag (R.CELL_STAT i) F.CELL_STAT.SHADOW_LOST false
  else c.shadowLost i

/-- A standby cell goes down. -/
def Chip.dropStandby (c : Chip) (i : Nat) : Chip :=
  let c := c.cellLeaves i cellDown
  { c with cells := tabDel c.cells i }

/-- HEARTBEAT_RECEIVE (R213 to R215, R218): a heartbeat is answered with this chip's epochs of the cells it names; other messages of a
peer take their effect. -/
def heartbeatReceive (port : Fin 6) (src : W16) (msg : PeerMsg) (c : Chip) : Chip :=
  let s := src.toNat
  let held := fun (i : Nat) => c.cellState i == cellStandby && ((tabGet c.cells i).bind (fun x => x.peer)) == some s
  if ¬ c.shadowing then c
  else match msg with
    | .heartbeat _ epochs =>
      let c := (c.heard s).compareEpochs epochs
      let c := epochs.foldl (fun (c : Chip) (x : Fin 1024 × W32) =>
        if held x.1.val then c.setFld (R.CELL_STAT x.1.val) F.CELL_STAT.EPOCH x.2.toNat else c) c
      c.send (.peer port.val s (.heartbeatAck (epochs.map (fun x => (x.1, BitVec.ofNat 32 (c.epoch x.1.val))))))
    | .heartbeatAck epochs => (c.heard s).compareEpochs epochs
    | .standbyAnswer cell ok => (c.heard s).standbyAnswered s cell.val ok
    | .mirrored cell frame sl =>
      if c.protected_ cell.val ∧ c.fld (R.CELL_CTL cell.val) F.CELL_CTL.SHADOW_CHIP = s then
        c.updCell cell.val (fun x => { x with mirrored := some (frame.val, sl) })
      else c
    | .released cell => if held cell.val then c.dropStandby cell.val else c

/-! ### Takeover and handover (R216) -/

/-- The sub-ports and VLANs of a cell. -/
def Chip.cellPaths (c : Chip) (x : Cell) : List (Nat × Nat × Nat) :=
  (x.cfg.streams.map (fun s => (c.strm s.val F.STRM_CFG.PORT, c.strm s.val F.STRM_CFG.SUBPORT, c.strm s.val F.STRM_CFG.VID))).eraseDups

/-- The announcement frame of a path: 60 bytes, its addresses open (log entry 46). -/
def Chip.announce (c : Chip) (p s vid : Nat) : Chip :=
  let (addr, c) := c.openBytes 12
  let tag : List Byte := if vid = 0 then [] else [0x81, 0x00, BitVec.ofNat 8 (vid / 256), BitVec.ofNat 8 vid]
  let head := addr ++ tag ++ [0x88, 0xB5]
  c.send (.frame p s (head ++ List.replicate (60 - head.length) 0))

/-- The TAKEOVER word to the slices of a slot (R216, R304); the last mirrored slot is open where none was. -/
def Chip.takeoverWord (c : Chip) (i : Nat) (x : Cell) : Chip :=
  let (w, c) := c.free
  let (frame, sl) := x.mirrored.getD (w.toNat % 1024, w.toNat / 1024 % 256)
  c.mbxTell x.slot 1 (i % 1024 * 2 ^ 18 + frame % 1024 * 2 ^ 8 + sl % 256)

/-- A shadow prepares to take a cell at boundary T: streams, events, announcements, the mailbox word (R216). -/
def Chip.prepare (c : Chip) (i : Nat) (t : Int) (events : List ArmedEvent) : Chip :=
  match tabGet c.cells i with
  | none => c
  | some x =>
    let c := (c.setCellState i cellTaking).updCell i (fun x => { x with boundary := some t })
    let c := x.cfg.streams.foldl (fun c s => applyStrmCfg 0xF0 s.val (fput (c.reg (R.STRM_CFG s.val)) F.STRM_CFG.ENABLE 1) c) c
    let c := (events.filter (fun e => evtRangeOk .firmware e.index.val && evtActionOk .firmware e.w0 e.w1)).foldl (fun (c : Chip) (e : ArmedEvent) =>
      c.writeEvent 0xF0 e.index.val e.w0 e.w1) c
    let c := (c.cellPaths x).foldl (fun (c : Chip) (p : Nat × Nat × Nat) => c.announce p.1 p.2.1 p.2.2) c
    c.takeoverWord i x

/-- Cells that a test keeps. -/
def Chip.cellsWhere (c : Chip) (p : Nat → Bool) : List Nat := (c.cells.map (·.1)).filter p

/-- HOME_LOSS_DETECT (R215, R216, R218): nothing was heard of a peer for HB_MISS periods. Its cells held here are taken over; cells
served here whose shadow it was are no longer protected. `events` are those that firmware arms for the cells it takes. -/
def homeLossDetect (peer : W16) (events : List ArmedEvent) (c : Chip) : Chip :=
  let s := peer.toNat
  match tabGet c.peers s with
  | none => c
  | some x =>
    let limit := c.fld R.RADIO_CFG F.RADIO_CFG.HB_PERIOD * c.fld R.RADIO_CFG F.RADIO_CFG.HB_MISS * 1000
    if x.lost ∨ c.time.uptime < x.heard + limit then c
    else
      let c : Chip := ({ c with peers := tabPut c.peers s { x with lost := true } }).bump R.SHADOW_STAT F.SHADOW_STAT.HB_LOSS 1
      let served := c.cellsWhere (fun i => (c.cellState i == cellActive || c.cellState i == cellHanding) && c.protected_ i &&
        c.fld (R.CELL_CTL i) F.CELL_CTL.SHADOW_CHIP == s)
      let c := served.foldl (fun c i => c.shadowLost i) c
      let held := c.cellsWhere (fun i => c.cellState i == cellStandby && ((tabGet c.cells i).bind (fun x => x.peer)) == some s)
      let t := boundaryAfter c.tick
      held.zipIdx.foldl (fun (c : Chip) (h : Nat × Nat) => c.prepare h.1 t (if h.2 = 0 then events else [])) c

/-- HANDOVER (R216): CELL_CTL.HANDOVER is set; the bit stands while the handover runs. -/
def handover (cell : Fin 1024) (c : Chip) : Chip :=
  let i := cell.val
  if c.cellState i ≠ cellActive ∨ ¬ c.protected_ i ∨ c.cellCtlBad i then c
  else (c.setLogged 0x01 (R.CELL_CTL i) (fput (c.reg (R.CELL_CTL i)) F.CELL_CTL.HANDOVER 1)).beginHandover i

/-- HANDOVER_MESSAGE (R216): the home hands a standby cell over at boundary T. -/
def handoverMessage (src : W16) (cell : Fin 1024) (boundary : Int) (events : List ArmedEvent) (c : Chip) : Chip :=
  let i := cell.val
  if c.cellState i = cellStandby ∧ ((tabGet c.cells i).bind (fun x => x.peer)) = some src.toNat then c.prepare i boundary events else c

/-- RELEASE of a cell (R213, R218): it stops at its next frame boundary, and its shadow is told. -/
def Chip.release (c : Chip) (i : Nat) : Chip :=
  if ¬ c.cellCounts i then c
  else
    (c.stopAt i (nextFrame c.tick) stopRelease).tellReleased i

/-- CELL_RELEASE (R218): CELL_CTL.RELEASE is set. -/
def cellRelease (cell : Fin 1024) (c : Chip) : Chip :=
  let i := cell.val
  if ¬ c.cellCounts i ∨ c.cellCtlBad i then c
  else (c.setLogged 0x01 (R.CELL_CTL i) (fput (c.reg (R.CELL_CTL i)) F.CELL_CTL.RELEASE 1)).release i

/-- LINK_HO_EXPIRY (R216): a sub-port that carries the cell has been down for LINK_HO ms. -/
def linkHoExpiry (cell : Fin 1024) (c : Chip) : Chip :=
  let i := cell.val
  match tabGet c.cells i with
  | none => c
  | some x =>
    let ms := c.fld (R.CELL_CTL i) F.CELL_CTL.LINK_HO
    let long := (c.cellPaths x).any (fun p => match tabGet c.linkDownAt (p.1 * 4 + p.2.1) with
      | some t => decide (t + ms * 1000000 ≤ c.time.uptime)
      | none => false)
    if ms ≠ 0 ∧ long then c.beginHandover i else c

/-- TAKEOVER_BOUNDARY (R216): at T the shadow's cell becomes active at the next epoch, or down without valid radio time; the home's
cell goes down and its L2 hears of it. -/
def takeoverBoundary (cell : Fin 1024) (c : Chip) : Chip :=
  let i := cell.val
  match tabGet c.cells i with
  | none => c
  | some x =>
    match x.boundary with
    | none => c
    | some t =>
      if c.tick < t then c
      else if c.cellState i = cellTaking then
        if c.rtValid then
          let c := (c.setCellState i cellActive).setFld (R.CELL_STAT i) F.CELL_STAT.EPOCH ((c.epoch i + 1) % 2 ^ 32)
          let c := c.updCell i (fun x => { x with running := true, boundary := none, peer := none })
          (c.bump R.SHADOW_STAT F.SHADOW_STAT.TAKEOVERS 1).irq 13
        else c.dropStandby i
      else if c.cellState i = cellHanding then
        let c := (c.fapiSend x.slot (.stopInd i)).cellLeaves i cellDown
        ((c.setFlag (R.CELL_CTL i) F.CELL_CTL.HANDOVER false).bump R.SHADOW_STAT F.SHADOW_STAT.TAKEOVERS 1).irq 13
      else c

end Sys2Proof.Machine
end

