-- ==== Sys2Proof/Machine/Faults.lean ====
section
/-! DEFINITION. Integrity, faults and health (R334 to R346): values that have lost their complement, hard evidence, the loss of a ream,
the health window, the error ring and the memory patrol. -/

namespace Sys2Proof.Machine

/-! ### Values carried with their complement (R334, R335) -/

/-- Ten minutes in control-clock cycles. -/
def tenMinutes : Nat := 600 * 10 ^ 9

/-- The level that owns a complement-carried value (R334). -/
def CompObject.errAt : CompObject → ErrAt
  | .floorCfg r => atReam r.val
  | .register a => ((regHit a).map RegHit.errAt).getD atChip
  | _ => atChip

/-- The register that holds a complement-carried value, where one does. -/
def CompObject.hit : CompObject → Option RegHit
  | .deckle s off => regHit (0x400000 + s.val * 0x1000 + off)
  | .sliceEntry i => regHit (R.SLICE i.val).addr
  | .floorCfg r => regHit (R.FLOOR_CFG r.val).addr
  | .cellCtl i => regHit (R.CELL_CTL i.val).addr
  | .radioCfg => regHit R.RADIO_CFG.addr
  | .fabricKey s k => regHit (R.DCK_FAB s.val (k.val / 2)).addr
  | .register a => regHit a
  | _ => none

/-- The value is one that the part carries with its complement: of the registers, the complemented pairs. -/
def CompObject.carried (o : CompObject) : Bool :=
  let pair : Bool := match CompObject.hit o with
    | some h => h.desc.kind.isPair
    | none => false
  match o with
  | .deckle _ _ => pair
  | .register _ => pair
  | _ => true

/-- The words of an entry of a staged table as they are logged (SPACE 1). -/
def tableWords (table entry : Nat) (ws : List W64) : List (Nat × Nat × W32) :=
  (ws.flatMap words32).zipIdx.map (fun x => (1, (table % 16) * 2 ^ 21 + (entry % 2 ^ 18) * 2 ^ 3 + x.2, x.1))

/-- The 32-bit words of a complement-carried value, each with its SPACE and INDEX in the change log (R335, R374). -/
def Chip.objectWords (c : Chip) (o : CompObject) : List (Nat × Nat × W32) :=
  match o with
  | .event i => tableWords 0 i.val [(c.event i.val).w0, (c.event i.val).w1]
  | .route i => tableWords 3 i [tabGetD c.routes i 0]
  | .window i => tableWords 4 i (((tabGet c.windows i).map (fun w => [w.v0, w.v1])).getD [0, 0])
  | .rxq i => tableWords 5 i (((tabGet c.rxqs i).map (fun w => [w.v0, w.v1])).getD [0, 0])
  | .job i => tableWords 6 i [((tabGet c.jobs i).map (fun j => j.v0)).getD 0]
  | .mirror i => tableWords 7 i.val (((tabGet c.mirrors i.val).map (fun m => [m.v0, m.v1])).getD [0, 0])
  | _ => match CompObject.hit o with
    | some h => (c.pairWords h).map (fun x => (0, x.1, x.2))
    | none => []

/-- Every active cell with a live shadow is handed over (R13, R341). -/
def Chip.handAllOver (c : Chip) : Chip :=
  (c.loadCells (fun i => c.cellState i == cellActive && c.protected_ i)).foldl (fun c i => c.beginHandover i) c

/-- Hard evidence (R341): the failed state, and a handover of every active cell that has a live shadow. -/
def Chip.hardFail (c : Chip) (a : ErrAt) (code : Nat) : Chip := (c.failPart a code).handAllOver

/-- What the owning level does beside failing the use (R42, R303, R348). -/
def Chip.failUse (c : Chip) (o : CompObject) : Chip :=
  match o with
  | .event i =>
    let e := c.event i.val
    c.setEvent i.val { e.put0 (fput e.w0 evState 0) with due := none }
  | .lock n => c.setLock n.val ⟨((tabGet c.locks n.val).map (fun l => l.owner)).getD 0, true⟩
  | .mirror i =>
    match tabGet c.mirrors i.val with
    | some e => { c with mirrors := tabPut c.mirrors i.val { e with failed := true, copying := none, stamps := [], v0 := fput e.v0 ⟨34, 1⟩ 0 } }
    | none => c
  | _ => c

/-- STORED_COMPLEMENT_MISMATCH (R334, R335): a use finds the two words of a value apart. The owning level raises INTEGRITY and fails the
use; a second mismatch on the same value within 10 minutes is hard evidence. -/
def storedComplementMismatch (obj : CompObject) (c : Chip) : Chip :=
  if ¬ CompObject.carried obj then c
  else
    let now := c.time.uptime
    let again := c.mismatches.any (fun x => x.1 == obj && decide (now ≤ x.2 + tenMinutes))
    let kept := c.mismatches.filter (fun x => x.1 != obj && decide (now ≤ x.2 + tenMinutes))
    let c : Chip := { c with mismatches := (obj, now) :: kept, damaged := obj :: c.damaged.filter (· != obj) }
    let c := c.failUse obj
    if again then c.hardFail (CompObject.errAt obj) 0x11 else c.integrity (CompObject.errAt obj)

/-- Log the words of a rewrite: OLD is the word as found, which nothing constrains (log entry 4). -/
def Chip.logRewrite (c : Chip) : List (Nat × Nat × W32) → Chip
  | [] => c
  | (space, ix, new) :: t =>
    let (w, c) := c.free
    (c.logEntry 0xF0 space ix (w.setWidth 32) new (!t.isEmpty)).logRewrite t

/-- COMPLEMENT_REWRITE (R335): firmware rewrites the pair from its source and logs one entry for each word. Key RAM entries are never
rewritten (R294), and a broken lock waits for LOCK_FORCE (R303). -/
def complementRewrite (obj : CompObject) (c : Chip) : Chip :=
  let barred : Bool := match obj with
    | .keyRam _ => true
    | .lock _ => true
    | _ => false
  if barred ∨ ¬ c.damaged.contains obj then c
  else ({ c with damaged := c.damaged.filter (· != obj) }).logRewrite (c.objectWords obj)

/-! ### Hard evidence and the loss of a ream (R13, R341) -/

/-- HARD_EVIDENCE (R341). -/
def hardEvidence (cause : HardCause) (c : Chip) : Chip :=
  match cause with
  | .controlStructure => c.hardFail atChip 0x10
  | .secondMismatch => c.hardFail atChip 0x11
  | .reamLoss => c.hardFail atChip 0x12

/-- LOSS_OF_REAM (R13, R338): the ream is isolated for good, its cells go to their shadows, to other reams or are shed, and the part
declares itself failed. Commands that need the ream end in UNCORRECTABLE (R341). -/
def lossOfReam (ream : Fin 4) (c : Chip) : Chip :=
  let r := ream.val
  let c := c.failPart (atReam r) 0x12
  let c := (List.range 8).foldl (fun (c : Chip) (q : Nat) =>
    let i := r * 8 + q
    (if c.fld (R.QUIRE_HEALTH i) F.QUIRE_HEALTH.STATE = 1 then c else c.withdrawQuire i).updQuire i (fun x => { x with isolatedForGood := true })) c
  let c := c.handAllOver.loseCapacity.recompute r
  ((c.commands.filter (fun k => c.needsLost k.desc)).map (·.uid)).foldl (fun c u => c.endCommand u ⟨0x21, 0, 0⟩) c

/-! ### The health window (R345, R346) -/

/-- The next window of the health engine: 10 points up where the last one earned none and left no debt, then the debt under the new
window's floor. -/
def Health.nextWindow (h : Health) : Health :=
  let score := if h.score = 0 ∨ h.points ≠ 0 ∨ h.debt ≠ 0 then h.score else min 1000 (h.score + 10)
  let h' : Health := { h with score := score, debt := 0, points := 0, floor := windowFloor score, counts := [],
                              windowStart := h.windowStart + tenMinutes }
  h'.take h.debt

/-- HEALTH_WINDOW_END (R346): 600 s of uptime after the window began. -/
def healthWindowEnd (c : Chip) : Chip :=
  if c.time.uptime < c.health.windowStart + tenMinutes then c
  else
    let before := healthState c.health.score
    let c : Chip := { c with health := c.health.nextWindow, sheets := c.sheets.map (fun x => (x.1, { x.2 with feltCeWindow := 0 })) }
    c.healthChanged before

/-! ### The error ring (R358) -/

/-- The words of the head of the error ring, 0 when it is empty. -/
def Chip.errHead (c : Chip) : W64 × W64 :=
  match c.errRing with
  | [] => (0, 0)
  | e :: _ => (e.hi, e.lo)

/-- ERR_HI_READ (R358, R44): latches the head entry. -/
def errHiRead (r : Requester) (c : Chip) : Chip :=
  if mayReachBar0 r then (c.latchPop r R.ERR_HI.addr c.errHead.2).send (.readData r c.errHead.1) else c

/-- ERR_LO_READ (R358, R44): returns the rest of the entry and pops it. -/
def errLoRead (r : Requester) (c : Chip) : Chip :=
  if mayReachBar0 r then
    let (w, c) := c.takePop r R.ERR_HI.addr c.errHead.2
    let q := c.errRing.drop 1
    let c : Chip := { c with errRing := q }
    (c.setFld R.ERR_STAT F.ERR_STAT.COUNT q.length).send (.readData r w)
  else c

/-! ### The memory patrol (R336, R337) -/

/-- Lines that a pass found bad join those that are poisoned already. -/
def addLines (l : List Nat) (new : List Nat) : List Nat := new.foldl (fun l x => if l.contains x then l else l ++ [x]) l

/-- MEMORY_PATROL_PASS (R336): corrected errors are written back and each is counted; lines with errors past correction are
poisoned, which the next reader of each reports (R337). -/
def memoryPatrolPass (target : PatrolTarget) (corrected : Nat) (poisoned : List Nat) (c : Chip) : Chip :=
  let at_ := match target with
    | .pool q => atQuire q.ream.val q.quire.val
    | .hbm => atChip
  let c := (List.range corrected).foldl (fun (c : Chip) (_ : Nat) => c.softError at_ 0x01 .correctedMemory) c
  let lines := poisoned.map (fun a => a / 64 * 64)
  match target with
  | .pool q => c.updQuire (quireIx q.ream q.quire) (fun x => { x with poison := addLines x.poison lines })
  | .hbm => { c with poison := addLines c.poison lines }

end Sys2Proof.Machine
end

