-- ==== Sys2Proof/Machine/Events.lean ====
section
/-! DEFINITION. The firing of the radio-timed event table (R38 to R42): its order, its limit of 32 per fine tick, and its actions. -/

namespace Sys2Proof.Machine

/-- Firings per fine tick (R39). -/
def firesPerTick : Nat := 32

/-- The only cell of a radio slot that a ream is home to; none where several could be meant (log entry 43). -/
def Chip.cellOn (c : Chip) (ream slot : Nat) : Option Nat :=
  match c.loadCells (fun i => c.cellHome i == ream && c.slotOfCell i == slot) with
  | [i] => some i
  | _ => none

/-- Action 1: dispatch a prepared class 0 descriptor of the ream's radio region. One that fails a check is not accepted. -/
def Chip.dispatchRadio (c : Chip) (ream slot index : Nat) : Chip :=
  let bs := memRead c.radioMem (ream * 2 ^ 40 + 128 * index) 128
  let d := parseDesc bs
  let (status, ts) := c.intake slot radioTokens (c.slotKind slot == 1) true d
  if slot < 64 ∧ crcOk bs 124 ∧ d.cls = 0 ∧ status = 0 ∧ ¬ c.reamLost ream then c.accept slot (.event ream) d ts (c.cellOn ream slot) else c

/-- Action 5: the token is not complete, so a slot miss of kind 1 is logged. The cell is that of the command with this token; where no
command tells, it is open (log entry 43). -/
def Chip.deadlineCheck (c : Chip) (token : Nat) (t : Int) : Chip :=
  if c.tokenDone radioTokens token then c
  else
    let owner := (c.commands.find? (fun k => k.tokenTable == radioTokens && k.desc.token == token)).bind (fun k => k.cell)
    match owner with
    | some i => c.missAt i 1 t
    | none =>
      let (w, c) := c.free
      c.missAt (w.toNat % 1024) 1 t

/-- Action 6: an event drives, or toggles, a pin that GPIO_DIR and GPIO_EVT give it (R404). -/
def Chip.gpioEvent (c : Chip) (pin how : Nat) : Chip :=
  if (c.fld R.GLB_CTL F.GLB_CTL.GPIO_DIR).testBit pin ∧ (c.fld R.GLB_CTL F.GLB_CTL.GPIO_EVT).testBit pin then
    let old := c.fld R.GPIO_OUT ⟨pin, 1⟩
    c.setFld R.GPIO_OUT ⟨pin, 1⟩ (if how = 2 then 1 - old else how)
  else c.bump R.GLB_STAT F.GLB_STAT.GPIO_IGN 1

/-- The action of an entry with instant `t` (R38). -/
def Chip.eventAction (c : Chip) (action : Nat) (w1 : W64) (t : Int) : Chip :=
  match action with
  | 1 => c.dispatchRadio (fget w1 ⟨40, 2⟩) (fget w1 ⟨32, 8⟩) (fget w1 ⟨0, 32⟩)
  | 2 => c.openWindow (fget w1 ⟨16, 12⟩) (fget w1 ⟨0, 2⟩) t
  | 3 =>
    let i := fget w1 ⟨16, 12⟩
    let w := (c.stream i).win (fget w1 ⟨0, 2⟩)
    if w.open_ then (c.closeWindow i (fget w1 ⟨0, 2⟩) t).noteClose i w t else c
  | 4 => c.releaseQueue (fget w1 ⟨22, 2⟩) (fget w1 ⟨20, 2⟩) (fget w1 ⟨0, 10⟩) t
  | 5 => c.deadlineCheck (fget w1 ⟨0, 32⟩) t
  | 6 => c.gpioEvent (fget w1 ⟨4, 4⟩) (fget w1 ⟨0, 2⟩)
  | _ => c

/-- EVENT_FIRE (R39 to R42): the next entry that is due fires, at most 32 in one fine tick; one beyond that waits for the next tick and
is counted once. An entry that has lost its complement does not fire. -/
def eventFire (c : Chip) : Chip :=
  if ¬ c.rtValid then c
  else
    let now := c.tick
    let fired := if c.firedAt.1 = now then c.firedAt.2 else 0
    match c.nextDue with
    | none => c
    | some (i, e) =>
      if e.c0 ≠ ~~~ e.w0 ∨ e.c1 ≠ ~~~ e.w1 then storedComplementMismatch (.event (Fin.ofNat 4096 i)) c
      else if firesPerTick ≤ fired then
        let c := if e.due = some e.notBefore then c.bump R.EVT_STAT F.EVT_STAT.SLIP_CNT 1 else c
        c.setEvent i { e with notBefore := now + 1 }
      else
        let c : Chip := { c.setEvent i (e.afterFire now) with firedAt := (now, fired + 1) }
        c.eventAction (fget e.w0 evAction) e.w1 (e.due.getD now)

end Sys2Proof.Machine
end

