-- ==== Sys2Proof/Machine/Recovery.lean ====
section
/-! DEFINITION. Recovery commands (R351 to R355): the recovery descriptor, the record of each job, and the steps BEGIN, PULL, PULL_SEALED,
LOAD_CHECKPOINT, ENABLE and END. -/

namespace Sys2Proof.Machine

/-- JOB_STEP that takes the live step. -/
def anyStep : Nat := 0xFFFFFFFF

/-- A recovery descriptor from its 128 bytes (R351). -/
def parseRcv (bs : List Byte) : RcvDesc :=
  let f := byteField bs
  { job := f 0 4, epoch := f 4 4, step := f 8 1, op := f 9 1, jobStep := f 12 4, dst := f 16 8, length := f 24 8, srcChip := f 32 2,
    srcWindow := f 34 2, srcKey := f 36 4, localSrc := f 40 8, digest := (bs.drop 64).take 32, crc := f 124 4, fromLocal := false }

/-- Its reserved fields are 0, its operation is one of R352, its epoch is in range, and the length of a step that moves data is a
multiple of 2 MiB. -/
def rcvFieldsOk (bs : List Byte) (d : RcvDesc) : Bool :=
  byteField bs 10 2 == 0 && byteField bs 48 16 == 0 && byteField bs 96 28 == 0 && decide (1 ≤ d.op) && decide (d.op ≤ 6) && d.epoch != 0 &&
    (d.op != 2 && d.op != 3 && d.op != 4 || d.length % 2097152 == 0)

/-- The result of a step: RESULT, STATUS (0 unless RESULT is 5) and the step's index; interrupt 12 (R403). -/
def Chip.rcvResult (c : Chip) (result status step : Nat) : Chip :=
  (((c.setFld R.RCV_STAT F.RCV_STAT.RESULT result).setFld R.RCV_STAT F.RCV_STAT.STATUS status).setFld R.RCV_STAT F.RCV_STAT.STEP_INDEX step).irq 12

/-- The record of a job. -/
def Chip.rcvRecord (c : Chip) (job : Nat) : Option RcvRecord := c.rcvRecords.find? (fun r => r.job == job)

/-- Change the record of a job. -/
def Chip.updRcv (c : Chip) (job : Nat) (f : RcvRecord → RcvRecord) : Chip :=
  { c with rcvRecords := c.rcvRecords.map (fun r => if r.job = job then f r else r) }

/-- A list without its first closed record. -/
def dropClosed : List RcvRecord → Option (List RcvRecord)
  | [] => none
  | r :: t => if r.closed then some t else (dropClosed t).map (r :: ·)

/-- Open an epoch for a job: its own record takes it, or a new one, for which the oldest closed one goes when 64 are held (R353). -/
def Chip.openEpoch (c : Chip) (d : RcvDesc) : Option Chip :=
  let r : RcvRecord := ⟨d.job, d.epoch, false, []⟩
  match c.rcvRecord d.job with
  | some _ => some (c.updRcv d.job (fun _ => r))
  | none =>
    if c.rcvRecords.length < 64 then some { c with rcvRecords := c.rcvRecords ++ [r] }
    else (dropClosed c.rcvRecords).map (fun l => { c with rcvRecords := l ++ [r] })

/-- A step is done. -/
def Chip.rcvDone (c : Chip) (d : RcvDesc) : Chip :=
  (c.updRcv d.job (fun r => if r.epoch = d.epoch then { r with done := tabPut r.done d.step d.crc } else r)).rcvResult 0 0 d.step

/-- The slot of a job. -/
def Chip.jobSlot (c : Chip) (job : Nat) : Nat := ((c.jobAt job).map (fun x => fget x.2.v0 ⟨26, 6⟩)).getD 0

/-- The destination of a step is mapped, writable and unsealed device memory of the job's slot. -/
def Chip.rcvDest (c : Chip) (d : RcvDesc) : Bool :=
  let s := c.jobSlot d.job
  (c.wins s).any (fun w => w.type == 1 && w.holds d.dst d.length) && c.check s d.dst d.length true == .ok

/-- The digest of LOCAL_SRC: a registered weight object's load-time digest, else SHA-256 of the bytes; none where they cannot be
read. -/
def Chip.localDigest (c : Chip) (d : RcvDesc) : Option (List Byte) :=
  let s := c.jobSlot d.job
  match (tabGetD c.weights s []).find? (fun w => w.base == d.localSrc && w.length == d.length) with
  | some w => some w.digest
  | none =>
    if c.permitted s d.localSrc d.length false && !c.poisoned s d.localSrc d.length then some (sha256 (c.treadN s d.localSrc d.length)) else none

/-- LOCAL_SRC is given and holds what the step wants. -/
def Chip.localHolds (c : Chip) (d : RcvDesc) : Bool := d.localSrc != 0 && c.localDigest d == some d.digest

/-- Write bytes that a fill brings at an offset of DST. -/
def Chip.fillAt (c : Chip) (d : RcvDesc) (off : Nat) (bs : List Byte) : Chip :=
  c.twrite (c.jobSlot d.job) (d.dst + off) (bs.take (d.length - off))

/-- Fill DST from LOCAL_SRC. -/
def Chip.fillLocal (c : Chip) (d : RcvDesc) : Chip := c.fillAt d 0 (c.treadN (c.jobSlot d.job) d.localSrc d.length)

/-- Fill DST with a buddy's bytes by offset; those not given are 0. -/
def Chip.fillBuddy (c : Chip) (d : RcvDesc) (data : List (Nat × List Byte)) : Chip :=
  data.foldl (fun (c : Chip) (x : Nat × List Byte) => if x.1 < d.length then c.fillAt d x.1 x.2 else c)
    (c.fillAt d 0 (List.replicate d.length 0))

/-- ENABLE: what the job's teardown disabled is in use again (R329, R352). -/
def Chip.rcvEnable (c : Chip) (job : Nat) : Chip :=
  match c.jobAt job with
  | none => c
  | some (_, j) =>
    { c with
      windows := c.windows.map (fun (x : Nat × FabWindow) =>
        if j.windows.contains x.1 ∧ fget x.2.v1 tabJob = job then (x.1, { x.2 with v1 := fput x.2.v1 ⟨20, 1⟩ 1 }) else x)
      rxqs := c.rxqs.map (fun (x : Nat × RxQueue) =>
        if j.queues.contains x.1 ∧ fget x.2.v1 tabJob = job then (x.1, { x.2 with v1 := fput x.2.v1 ⟨0, 1⟩ 1 }) else x)
      mirrors := c.mirrors.map (fun (x : Nat × MirrorEntry) =>
        if j.entries.contains x.1 ∧ c.entryJob x.2 = job then (x.1, { x.2 with v0 := fput x.2.v0 ⟨34, 1⟩ 1 }) else x) }

/-- A step that moves data is running. -/
def Chip.rcvStart (c : Chip) (d : RcvDesc) : Chip := ({ c with rcvRunning := some d }).setFlag R.RCV_STAT F.RCV_STAT.BUSY true

/-- A local range that is poisoned where it is read is counted (R337). -/
def Chip.noteLocal (c : Chip) (d : RcvDesc) : Chip :=
  if d.localSrc ≠ 0 ∧ c.poisoned (c.jobSlot d.job) d.localSrc d.length then
    (c.notePoison (c.jobSlot d.job) d.localSrc d.length).softError atChip 0x06 .dataUncorrectable
  else c

/-- A step runs (rule 6 of R353), logged with the job and the epoch. -/
def Chip.rcvRunStep (c : Chip) (d : RcvDesc) : Chip :=
  let c := c.logOp 0x01 5 d.step (BitVec.ofNat 32 d.job) (BitVec.ofNat 32 d.epoch)
  match d.op with
  | 1 => c.rcvDone d
  | 2 =>
    let holds := c.localHolds d
    if holds ∧ d.localSrc = d.dst then c.rcvDone d
    else if ¬ c.rcvDest d then c.rcvResult 5 0x10 d.step
    else if holds then c.rcvStart { d with fromLocal := true }
    else (c.noteLocal d).rcvStart d
  | 3 => if c.rcvDest d then c.rcvStart d else c.rcvResult 5 0x10 d.step
  | 4 =>
    if ¬ c.rcvDest d ∨ ¬ c.permitted (c.jobSlot d.job) d.localSrc d.length false then c.rcvResult 5 0x10 d.step
    else if c.poisoned (c.jobSlot d.job) d.localSrc d.length then (c.noteLocal d).rcvResult 5 0x21 d.step
    else c.rcvStart d
  | 5 => (c.rcvEnable d.job).rcvDone d
  | _ => (c.rcvDone d).updRcv d.job (fun r => { r with closed := true })

/-- The rules of R353, in order. -/
def Chip.rcvCheck (c : Chip) (d : RcvDesc) : Chip :=
  let held := (c.rcvRecord d.job).getD ⟨d.job, 0, true, []⟩
  if d.op = 1 ∧ c.failed then c.rcvResult 5 0x21 d.step
  else if d.epoch < held.epoch then c.rcvResult 2 0 d.step
  else if held.epoch < d.epoch then
    if d.op ≠ 1 then c.rcvResult 5 0x14 d.step
    else match c.openEpoch d with
      | some c => c.rcvRunStep d
      | none => c.rcvResult 5 0x50 d.step
  else match tabGet held.done d.step with
    | some crc => if crc = d.crc then c.rcvResult 1 0 d.step else c.rcvResult 3 0 d.step
    | none => if held.closed then c.rcvResult 2 0 d.step else c.rcvRunStep d

/-- A write to RCV_CMD that asks for a step (R353): the descriptor at RCV_DESC, and its checks. A row of one operation acts where the
descriptor names that operation; `want` is none where the write itself decides. -/
def rcvRun (want : Option Nat) (c : Chip) : Chip :=
  let addr := fget (c.reg R.RCV_DESC) F.RCV_DESC.ADDR * 128
  let bs := c.treadN 0 addr 128
  let d := parseRcv bs
  if c.early .host then c.noteEarly
  else if c.flag R.RCV_STAT F.RCV_STAT.BUSY then
    ((c.setFld R.RCV_STAT F.RCV_STAT.RESULT 4).setFld R.RCV_STAT F.RCV_STAT.STATUS 0).irq 12
  else if want.any (fun op => d.op != op) then c
  else if c.damaged.contains (.register R.RCV_DESC.addr) then c.rcvResult 5 0x20 d.step
  else if ¬ c.permitted 0 addr 128 false then c.rcvResult 5 0x10 d.step
  else if ¬ crcOk bs 124 then c.rcvResult 5 0x20 d.step
  else if ¬ rcvFieldsOk bs d ∨ (c.jobAt d.job).isNone then c.rcvResult 5 0x14 d.step
  else c.rcvCheck d

/-- BEGIN (R352, R353): opens an epoch and holds the job's commands. -/
def recoveryBegin (c : Chip) : Chip := rcvRun (some 1) c

/-- PULL (R352): fills a range from a spare-side copy or the buddy's live half. -/
def pull (c : Chip) : Chip := rcvRun (some 2) c

/-- PULL_SEALED (R352): copies stamped pages from the buddy and seals them. -/
def pullSealed (c : Chip) : Chip := rcvRun (some 3) c

/-- LOAD_CHECKPOINT (R352): fills a range from a checkpoint and checks its digest. -/
def loadCheckpoint (c : Chip) : Chip := rcvRun (some 4) c

/-- ENABLE (R352). -/
def recoveryEnable (c : Chip) : Chip := rcvRun (some 5) c

/-- END (R352): closes the epoch. -/
def recoveryEnd (c : Chip) : Chip := rcvRun (some 6) c

/-- No step runs any more. -/
def Chip.rcvStop (c : Chip) : Chip := ({ c with rcvRunning := none }).setFlag R.RCV_STAT F.RCV_STAT.BUSY false

/-- Copy a stamped page to its offset in DST and seal the translation page there. -/
def Chip.pullPage (c : Chip) (d : RcvDesc) (p : Nat × W32 × List Byte) : Chip :=
  let (off, step, bs) := p
  if d.length ≤ off ∨ (d.jobStep ≠ anyStep ∧ d.jobStep < step.toNat) then c
  else
    let c := c.fillAt d (off / 4096 * 4096) (bs.take 4096)
    match c.pageAt (c.jobSlot d.job) (d.dst + off) with
    | some (k, _) => c.sealPage (c.jobSlot d.job) (keyVa k) step.toNat
    | none => c

/-- RECOVERY_STEP_COMPLETE (R352): the running step's data has come, or its source cannot be reached. -/
def recoveryStepComplete (outcome : RcvOutcome) (c : Chip) : Chip :=
  match c.rcvRunning with
  | none => c
  | some d =>
    match outcome with
    | .filled =>
      if d.op = 2 ∧ d.fromLocal then (c.rcvStop.fillLocal d).rcvDone d
      else if d.op = 4 then
        let bs := c.treadN (c.jobSlot d.job) d.localSrc d.length
        let c := c.rcvStop.fillLocal d
        if sha256 bs = d.digest then c.rcvDone d else c.rcvResult 5 0x20 d.step
      else c
    | .buddy live data =>
      if d.op ≠ 2 ∨ d.fromLocal then c
      else if d.jobStep ≠ anyStep ∧ d.jobStep ≠ live.toNat then c.rcvStop.rcvResult 5 0x32 d.step
      else ((c.rcvStop.setFld R.RCV_STAT F.RCV_STAT.LIVE_STEP live.toNat).fillBuddy d data).rcvDone d
    | .stamped pages =>
      if d.op ≠ 3 then c
      else (pages.foldl (fun (c : Chip) (p : Nat × W32 × List Byte) => c.pullPage d p) c.rcvStop).rcvDone d
    | .unreachable => if d.op = 4 ∨ d.fromLocal then c else c.rcvStop.rcvResult 5 0x32 d.step

/-- RECOVERY_ABORT (R358): RCV_CMD OP 2 ends the running step with RESULT 6. -/
def recoveryAbort (r : Requester) (c : Chip) : Chip :=
  if ¬ mayReachBar0 r then c
  else if c.early r then c.noteEarly
  else match c.rcvRunning with
    | some d => c.rcvStop.rcvResult 6 0 d.step
    | none => c

end Sys2Proof.Machine
end

