-- ==== Sys2Proof/Machine/Views.lean ====
section
/-! DEFINITION. What the read-only registers report of the rest of the state (R97, R145, R198, R219, R220, R253, R254, R284, R307,
R308, R358, R381, R400, R402, R405): each value is computed where it is read. -/

namespace Sys2Proof.Machine

/-- A word from fields. -/
def wordOf (l : List (Fld × Nat)) : W64 := l.foldl (fun (w : W64) (x : Fld × Nat) => fput w x.1 x.2) 0

/-- A mask with a bit for each index of a list. -/
def maskOf (l : List Nat) : Nat := l.foldl setBit 0

/-! ### Identity and global control (R400, R402) -/

/-- ID_CARD: the pins at the last rise of PWROK. -/
def Chip.cardWord (c : Chip) : W64 := c.ident.cardId.setWidth 64

/-- GPIO_IN: the pin levels; an output pin reads what GPIO_OUT drives (R404). -/
def Chip.gpioInWord (c : Chip) : W64 :=
  let dir := c.fld R.GLB_CTL F.GLB_CTL.GPIO_DIR
  wordOf [(F.GPIO_IN.LEVEL, (List.range 16).foldl (fun n k =>
    if (if dir.testBit k then (c.fld R.GPIO_OUT F.GPIO_OUT.LEVEL).testBit k else c.pins.gpioIn.getLsbD k) then setBit n k else n) 0)]

/-! ### Mailboxes and locks (R307, R308) -/

/-- FULL of four mailboxes as a mask. -/
def Chip.fullMask (c : Chip) (box : Nat → RegRef) : Nat := maskOf ((List.range 4).filter (fun n => c.flag (box n) F.MBX_OUT.FULL))

/-- MBX_STAT of a side. -/
def Chip.mbxStatWord (c : Chip) (side : MbxSide) : W64 :=
  fput (fput (c.reg (mbxStat side)) F.MBX_STAT.IN_FULL (c.fullMask (mbxIn side))) F.MBX_STAT.OUT_FULL (c.fullMask (mbxOut side))

/-- LOCK as a read by a path that does not take it shows it: 0 while it is free, 0xFE while its complement is broken. -/
def Chip.lockWord (c : Chip) (n : Nat) : W64 := if (c.lock n).broken then 0xFE else BitVec.ofNat 64 (c.lock n).owner

/-- LOCK_STAT. -/
def Chip.lockStatWord (c : Chip) : W64 :=
  let held := (List.range 16).filter (fun n => (c.lock n).owner != 0)
  let broken := (List.range 16).filter (fun n => (c.lock n).broken)
  fput (fput (c.reg R.LOCK_STAT) F.LOCK_STAT.HELD (maskOf held)) F.LOCK_STAT.BROKEN (maskOf broken)

/-! ### Radio (R219, R220) -/

/-- The load of counted cells that are, or are not, standby. -/
def Chip.standbyLoad (c : Chip) (standby : Bool) (p : Nat → Bool) : Nat :=
  c.weigh (c.loadCells (fun i => (c.cellState i == cellStandby) == standby && p i))

/-- ADM_CHIP. -/
def Chip.admChipWord (c : Chip) : W64 :=
  wordOf [(F.ADM_CHIP.CAP, c.chipCap), (F.ADM_CHIP.ACTIVE_LOAD, c.standbyLoad false (fun _ => true)),
    (F.ADM_CHIP.STANDBY_LOAD, c.standbyLoad true (fun _ => true)), (F.ADM_CHIP.CELLS, (c.loadCells (fun _ => true)).length)]

/-- SHADOW_STAT. -/
def Chip.shadowStatWord (c : Chip) : W64 :=
  fput (fput (c.reg R.SHADOW_STAT) F.SHADOW_STAT.STANDBY_CELLS (c.loadCells (fun i => c.cellState i == cellStandby)).length)
    F.SHADOW_STAT.PROTECTED (c.loadCells (fun i => c.cellState i == cellActive && c.protected_ i)).length

/-- REAM_CAP. -/
def Chip.reamCapWord (c : Chip) (ream : Nat) : W64 :=
  let x := c.capNow ream
  fput (fput (c.reg (R.REAM_CAP ream)) F.REAM_CAP.CAP x.1) F.REAM_CAP.BIND x.2

/-- REAM_LOAD. -/
def Chip.reamLoadWord (c : Chip) (ream : Nat) : W64 :=
  let here := fun (i : Nat) => c.cellHome i == ream
  wordOf [(F.REAM_LOAD.ACTIVE_LOAD, c.standbyLoad false here), (F.REAM_LOAD.STANDBY_LOAD, c.standbyLoad true here),
    (F.REAM_LOAD.CELLS, (c.loadCells here).length)]

/-- STRIP_STAT (R198). -/
def Chip.stripStatWord (c : Chip) (ream : Nat) : W64 :=
  let s := c.strip ream
  let busy := fun (lo n : Nat) => maskOf ((List.range n).filter (fun k => (tabGet s.engines (lo + k)).isSome))
  wordOf [(F.STRIP_STAT.DEC_BUSY, busy 0 16), (F.STRIP_STAT.ENC_BUSY, busy 16 12), (F.STRIP_STAT.POLAR_BUSY, busy 28 4),
    (F.STRIP_STAT.SEQ_BUSY, busy 32 4), (F.STRIP_STAT.QUEUED, min 0xFFFF s.queue.length)]

/-! ### Generation engines (R253, R254) -/

/-- PFX_STAT. -/
def Chip.pfxStatWord (c : Chip) : W64 :=
  wordOf [(F.PFX_STAT.ENTRIES, c.pfxPool.length), (F.PFX_STAT.UNREFERENCED, (c.pfxPool.filter (fun e => e.refs == 0)).length)]

/-- WALK_STAT of a quire. -/
def Chip.walkStatWord (c : Chip) (q : Nat) : W64 :=
  wordOf [(F.WALK_STAT.SLOTS_BUSY, maskOf ((List.range 16).filter (fun i => (c.walkSlot q i).isSome))),
    (F.WALK_STAT.QUEUED, (c.walkWait.filter (fun x => keyQuire x.1 == q)).length)]

/-- Input slots of watermarked commands that a ream still has to digest. -/
def Chip.digestsLeft (c : Chip) (ream : Nat) : Nat :=
  (c.commands.filter (fun k => k.desc.flags.testBit 0 && k.ending.isNone && c.homeOf k == ream)).foldl
    (fun n k => n + ((c.digestSlots k).filter (fun i => !k.digests.any (fun x => x.1 == i))).length) 0

/-- GEN_STAT of a ream: its engines take the inputs left in order, from engine 0 (log entry 48). -/
def Chip.genStatWord (c : Chip) (ream : Nat) : W64 :=
  wordOf [(F.GEN_STAT.SMP_QUEUED, (c.samplerQueue ream).length), (F.GEN_STAT.DIG_BUSY, 2 ^ min 4 (c.digestsLeft ream) - 1)]

/-! ### Tiers and tenants (R284, R308) -/

/-- Free bytes of a list of places. -/
def Chip.freeAt (c : Chip) (l : List PagePlace) : Nat := l.foldl (fun n p => n + (c.placeCap p - c.placeUse p)) 0

/-- TIER_STAT. -/
def Chip.tierStatWord (c : Chip) : W64 :=
  let w := fput (c.reg R.TIER_STAT) F.TIER_STAT.T2_FREE (c.t2Free / 2 ^ 30)
  let w := fput w F.TIER_STAT.T3_FREE (c.freeAt t3Places / 2 ^ 30)
  let w := fput w F.TIER_STAT.T4_FREE (c.freeAt t4Places / 2 ^ 30)
  fput w F.TIER_STAT.MIG_BUSY (if c.migrations.isEmpty then 0 else 1)

/-- Milliseconds left to a deadline, rounded up. -/
def Chip.msLeft (c : Chip) (d : Option Nat) : Nat := (d.map (fun t => min 255 (ceilDiv (t - c.taiNs) 1000000))).getD 0

/-- LEND_STAT. -/
def Chip.lendStatWord (c : Chip) (w : Nat) : W64 :=
  let x := fput (c.reg (R.LEND_STAT w)) F.LEND_STAT.USED_MIB (c.lendWin w).mib.length
  fput x F.LEND_STAT.DEADLINE_MS (if c.lendState w = 3 then c.msLeft (c.lendWin w).deadline else 0)

/-- BORROW_STAT. -/
def Chip.borrowStatWord (c : Chip) (w : Nat) : W64 :=
  let x := fput (c.reg (R.BORROW_STAT w)) F.BORROW_STAT.USED_MIB (ceilDiv (c.placeUse (.t4 w)) (2 ^ 20))
  fput x F.BORROW_STAT.DEADLINE_MS (if c.borrowState w = 3 then c.msLeft (c.borrowDeadline w) else 0)

/-- TENANT_USE of a slot, in 2 MiB units. -/
def Chip.tenantUseWord (c : Chip) (slot : Nat) : W64 :=
  let u := fun (t : Nat) => ceilDiv (c.tierUse slot t) 2097152
  wordOf [(F.TENANT_USE.T2, u 0), (F.TENANT_USE.T3, u 1), (F.TENANT_USE.T4, u 2)]

/-! ### Health and recovery (R344, R358) -/

/-- Free spare sheets of the part. -/
def Chip.spareSheets (c : Chip) : Nat := (List.range 32).foldl (fun n q => n + c.fld (R.QUIRE_HEALTH q) F.QUIRE_HEALTH.SPARES_FREE) 0

/-- Quires that are isolated or under test. -/
def Chip.isolatedQuires (c : Chip) : Nat := ((List.range 32).filter (fun q => !c.quireIn q)).length

/-- SPARE_READY (R344): the part is healthy or on watch and no quire is isolated. -/
def Chip.spareReady (c : Chip) : Bool := decide (healthState c.health.score ≤ 1) && c.isolatedQuires == 0

/-- HEALTH_STAT. -/
def Chip.healthWord (c : Chip) : W64 :=
  let h := c.health
  wordOf [(F.HEALTH_STAT.STATE, healthState h.score), (F.HEALTH_STAT.SPARE_READY, if c.spareReady then 1 else 0),
    (F.HEALTH_STAT.SCORE, h.score), (F.HEALTH_STAT.DEBT, h.debt), (F.HEALTH_STAT.WINDOW_POINTS, h.points),
    (F.HEALTH_STAT.ISOLATED_QUIRES, c.isolatedQuires), (F.HEALTH_STAT.SPARE_SHEETS, c.spareSheets),
    (F.HEALTH_STAT.HARD_CAUSE, h.hardCause)]

/-- MIR_STAT. -/
def Chip.mirStatWord (c : Chip) : W64 :=
  let es := (List.range 64).filterMap c.mirrorAt
  fput (fput (c.reg R.MIR_STAT) F.MIR_STAT.FAILED (es.filter (fun e => e.failed)).length) F.MIR_STAT.ENABLED
    (es.filter (fun e => fget e.v0 ⟨34, 1⟩ != 0)).length

/-- MIR_INFO of an entry. -/
def Chip.mirInfoWord (c : Chip) (i : Nat) : W64 :=
  match c.mirrorAt i with
  | none => 0
  | some e =>
    wordOf [(F.MIR_INFO.LIVE_STEP, e.mirrored.getD 0), (F.MIR_INFO.VALID, if e.mirrored.isSome then 1 else 0),
      (F.MIR_INFO.COPYING, if e.copying.isSome then 1 else 0), (F.MIR_INFO.FAILED, if e.failed then 1 else 0)]

/-! ### Sheets and schedulers (R97, R145, R405) -/

/-- A byte of the sheet map: the position that carries a logical sheet of a quire, and that it is shared (R405). -/
def Chip.mapByte (c : Chip) (q l : Nat) : Nat :=
  match c.sheetOf q l with
  | none => 0
  | some k => keyAtPos k + (if 2 ≤ (c.sheetK (keyPrimary k)).logical.length then 128 else 0)

/-- QUIRE_MAP word w of a quire. -/
def Chip.quireMapWord (c : Chip) (q w : Nat) : W64 :=
  BitVec.ofNat 64 ((List.range 8).foldl (fun n b => n + c.mapByte q (8 * w + b) * 256 ^ b) 0)

/-- The ROLE code of a sheet. -/
def roleCode : SheetRole → Nat
  | .active => 0
  | .spare => 1
  | .retired => 2
  | .scrubbing => 3

/-- SHEET_ID of a position. -/
def Chip.sheetIdWord (c : Chip) (k : Nat) : W64 :=
  let sh := c.sheetK k
  let q := keyQuire k
  wordOf [(F.SHEET_ID.INCARNATION, sh.incarnation), (F.SHEET_ID.REAM, q / 8), (F.SHEET_ID.QUIRE, q % 8),
    (F.SHEET_ID.PHYS, keyAtPos k), (F.SHEET_ID.ROLE, roleCode sh.role),
    (F.SHEET_ID.LOGICAL, if sh.role = .active then sh.logical.headD 0x7F else 0x7F)]

/-- A wait for an instant of radio time. -/
def WaitFor.isRadio : WaitFor → Bool
  | .radio _ _ _ _ => true
  | _ => false

/-- SHEET_STAT of a position: of its first logical sheet, or of the second while that alone holds a task. -/
def Chip.sheetStatWord (c : Chip) (k : Nat) : W64 :=
  let first := c.sheetK k
  let sh := if first.task.isNone then c.sheetK (k + 1) else first
  let bit := fun (b : Bool) => if b then 1 else 0
  wordOf [(F.SHEET_STAT.BUSY, bit sh.task.isSome), (F.SHEET_STAT.COMMITTING, bit sh.commitSlot), (F.SHEET_STAT.KILLING, bit sh.killing),
    (F.SHEET_STAT.RADIO, bit (sh.task.any (fun t => t.cls == 0))), (F.SHEET_STAT.WAIT_RT, bit (sh.wait.any WaitFor.isRadio)),
    (F.SHEET_STAT.WAIT_EV, bit (sh.wait.any (fun w => !w.isRadio))),
    (F.SHEET_STAT.CLK_GATED, bit (sh.task.isNone && c.flag (sheetCtl k) F.SHEET_CTL.CLKGATE_EN)),
    (F.SHEET_STAT.CTX, (sh.task.map (fun t => t.ctx)).getD 0xFFFF)]

/-- FELT_TAG of a region: its context and that it is valid. -/
def Chip.feltTagWord (c : Chip) (k region : Nat) : W64 :=
  match tabGet (c.sheetK k).tags region with
  | some x => BitVec.ofNat 64 (x % 65536 + 65536)
  | none => 0

/-- SCHED_STAT of a ream. -/
def Chip.schedStatWord (c : Chip) (ream : Nat) : W64 :=
  let xs := (c.contexts.filter (fun x => x.2.onReam ream)).map (·.2)
  wordOf [(F.SCHED_STAT.COUCHED, (xs.filter (fun x => x.place == .couched)).length),
    (F.SCHED_STAT.ON_CHIP, (xs.filter (fun x => x.place != .couched)).length),
    (F.SCHED_STAT.SWAP_BUSY, if xs.any (fun x => x.place == .couchingOut || x.place == .couchingIn) then 1 else 0),
    (F.SCHED_STAT.WAITING, (c.waitingAt ream).length)]

/-! ### What a register reads as -/

/-- LOG_FIRST (R375). -/
def Chip.logFirst (c : Chip) : Nat := c.log.next - 65536

/-- The value word of a register as a read that changes nothing shows it (R7, R8, R380). -/
def Chip.regNow (c : Chip) (h : RegHit) : W64 :=
  let i := h.i 0
  let q := h.i 0 * 8 + h.i 1
  let k := posKey q (h.i 2)
  match h.desc.id with
  | .ID_PART => BitVec.ofNat 64 c.ident.partWord
  | .ID_STEP => BitVec.ofNat 64 c.ident.stepWord
  | .ID_AIC => BitVec.ofNat 64 c.ident.aicWord
  | .ID_SERIAL => c.ident.serial
  | .ID_CARD => c.cardWord
  | .UPTIME => BitVec.ofNat 64 c.time.uptime
  | .GPIO_IN => c.gpioInWord
  | .HMBX_STAT => c.mbxStatWord .host
  | .MBX_STAT => c.mbxStatWord (.slice (Fin.ofNat 1024 i))
  | .LOCK => c.lockWord i
  | .LOCK_A => c.lockWord (h.i 1)
  | .SHMBX_A => c.reg (R.SHMBX (h.i 1))
  | .LOCK_STAT => c.lockStatWord
  | .ADM_CHIP => c.admChipWord
  | .SHADOW_STAT => c.shadowStatWord
  | .MISS_HI => c.missHead.1
  | .MISS_LO => c.missHead.2
  | .PFX_STAT => c.pfxStatWord
  | .CT_SEC => c.ctSec
  | .CT_NS => nth c.ctWords 0 0
  | .RT_NOW => nth c.ctWords 1 0
  | .RT_VIEW => nth c.ctWords (2 + i) 0
  | .TSQ_HI => (c.tsqHead i).1
  | .TSQ_LO => (c.tsqHead i).2
  | .KEY_V => 0
  | .KEY_C => 0
  | .TIER_STAT => c.tierStatWord
  | .HOST_POOL_STAT => fput (c.reg h.ref) F.HOST_POOL_STAT.USED_GIB (gibUp (c.placeUse (.hostPool i)))
  | .CXL_STAT => fput (c.reg h.ref) F.CXL_STAT.USED_GIB (gibUp (c.placeUse (.cxl i)))
  | .LEND_STAT => c.lendStatWord i
  | .BORROW_STAT => c.borrowStatWord i
  | .TENANT_USE => c.tenantUseWord i
  | .CNT_IRQ => BitVec.ofNat 64 c.cntIrqWord
  | .LOG_FIRST => BitVec.ofNat 64 c.logFirst
  | .LOG_NEXT => BitVec.ofNat 64 c.log.next
  | .HEALTH_STAT => c.healthWord
  | .ERR_HI => c.errHead.1
  | .ERR_LO => c.errHead.2
  | .MIR_STAT => c.mirStatWord
  | .MIR_INFO => c.mirInfoWord i
  | .QUIRE_MAP => c.quireMapWord q (h.i 2)
  | .WALK_STAT => c.walkStatWord q
  | .SHEET_ID => c.sheetIdWord k
  | .SHEET_STAT => c.sheetStatWord k
  | .FELT_TAG => c.feltTagWord k (h.i 3)
  | .SCHED_STAT => c.schedStatWord i
  | .STRIP_STAT => c.stripStatWord i
  | .REAM_CAP => c.reamCapWord i
  | .REAM_LOAD => c.reamLoadWord i
  | .GEN_STAT => c.genStatWord i
  | _ => c.reg h.ref

end Sys2Proof.Machine
end

