-- ==== Sys2Proof/Machine/Power.lean ====
section
/-! DEFINITION. Power, heat, the AVS buses and the SMBus target (R207, R208, R416, R418 to R424). -/

namespace Sys2Proof.Machine

/-- Thermal design power in watts (R420). -/
def Part.tdp : Part → Nat
  | .fdn12h2d => 2000
  | .fdn8h2d => 1700
  | .fdn12h1d => 1850

/-- One millisecond in control-clock cycles. -/
def oneMs : Nat := 10 ^ 6

/-- The part throttles class 1 to 3 issue for some reason (R207). -/
def Chip.throttled (c : Chip) : Bool := c.power.powerThrottle || c.power.pinThrottle || c.power.thermThrottle

/-- POWER_MEASURE (R421): the package power as measured; over the TDP the part throttles under R207 (log entry 49). -/
def powerMeasure (watts : Nat) (c : Chip) : Chip :=
  { c with power := { c.power with watts := watts, powerThrottle := decide (c.ident.part.tdp < watts) } }

/-- THROTTLE_N_ASSERT (R422). -/
def throttleNAssert (c : Chip) : Chip :=
  { c with pins := { c.pins with throttleN := false }, power := { c.power with pinThrottle := true, holdUntil := none } }

/-- THROTTLE_N_RELEASE (R422): the level holds for 1 ms more. -/
def throttleNRelease (c : Chip) : Chip :=
  if c.pins.throttleN then c
  else { c with pins := { c.pins with throttleN := true }, power := { c.power with holdUntil := some (c.time.uptime + oneMs) } }

/-- THROTTLE_HOLD_EXPIRY (R422): 1 ms after THROTTLE_N rose. -/
def throttleHoldExpiry (c : Chip) : Chip :=
  match c.power.holdUntil with
  | some t => if c.time.uptime < t then c else { c with power := { c.power with pinThrottle := false, holdUntil := none } }
  | none => c

/-- JUNCTION_ALERT (R423): the hottest junction as measured; THERM_ALERT_N is asserted from 95 °C and released below 92 °C, and the part
throttles while it is. -/
def junctionAlert (celsius : Nat) (c : Chip) : Chip :=
  let alert : Bool := decide (95 ≤ celsius) || (!c.pins.thermAlertN && decide (92 ≤ celsius))
  { c with pins := { c.pins with thermAlertN := !alert }, power := { c.power with junction := celsius, thermThrottle := alert } }

/-- COOLING_FAULT (R208): the junction is at 105 °C with nothing left to throttle. A cell is shed after every THERM_STEP from now on. -/
def coolingFault (c : Chip) : Chip :=
  if c.power.junction < 105 ∨ c.power.cooling then c
  else { c with power := { c.power with cooling := true, lastShed := c.time.uptime } }

/-- THERMTRIP (R423): at 115 °C every clock stops and the cells stop, without STOP.indication; only a fall of PWROK ends it. -/
def thermtrip (c : Chip) : Chip :=
  if c.power.junction < 115 then c
  else
    let c := (c.loadCells (fun _ => true)).foldl (fun (c : Chip) i => c.setCellState i cellDown) c
    { c with pins := { c.pins with thermtripN := false }, power := { c.power with stopped := true } }

/-- AVS_NO_ACK (R419): a regulator has failed three attempts in a row. Its die keeps the last acknowledged voltage, which limits its clock. No
target is issued before stage 1. -/
def avsNoAck (bus : AvsBus) (c : Chip) : Chip :=
  if c.fld R.BOOT_STAT F.BOOT_STAT.STAGE = 0 then c
  else { c with power := { c.power with
    avsFail := if c.power.avsFail.contains bus.val then c.power.avsFail else c.power.avsFail ++ [bus.val]
    clockLimited := if c.power.clockLimited.contains bus.val then c.power.clockLimited else c.power.clockLimited ++ [bus.val] } }

/-- The 24 bytes of Block Read 0x01 (R416). -/
def Chip.smbusBlock (c : Chip) : List Byte :=
  bytesLE 4 c.ident.partWord ++ bytesLE 4 c.ident.stepWord ++ bytesLE 8 c.ident.serial.toNat ++
    bytesLE 4 (c.healthWord.toNat / 2 ^ 32) ++ bytesLE 2 c.power.junction ++ bytesLE 2 c.power.watts

/-- SMBUS_BLOCK_READ (R416). -/
def smbusBlockRead (c : Chip) : Chip := c.send (.smbus c.smbusBlock)

/-- SMBUS_ALERT_RESPONSE (R416): the Alert Response Address cycle that reads the part's address releases MG_ALERT_N. -/
def smbusAlertResponse (c : Chip) : Chip :=
  if c.pins.mgAlertN then c
  else ({ c with pins := { c.pins with mgAlertN := true } }).send (.smbus [BitVec.ofNat 8 (2 * (0x60 + c.ident.cardId.toNat))])

end Sys2Proof.Machine
end

