-- ==== Sys2Proof/Machine/Flash.lean ====
section
/-! DEFINITION. The flash operations of the boot block, and the change-log block (R364, R368, R375, R376, R381). -/

namespace Sys2Proof.Machine

/-! ### The flash (R364) -/

/-- Bytes of an incarnation sector, and the erase unit. -/
def sectorBytes : Nat := 65536

/-- Half the flash. -/
def Flash.half (f : Flash) : Nat := f.size / 2

/-- The offset of an incarnation sector. -/
def Flash.sectorAt (f : Flash) : Nat → Nat
  | 0 => f.half - sectorBytes
  | _ => f.size - sectorBytes

/-- The bytes of a slot of an incarnation sector (R363): the value, then its complement as written. -/
def slotBytes (x : W32 × W32) : List Byte := bytesLE 4 x.1.toNat ++ bytesLE 4 x.2.toNat

/-- A byte of the flash; erased flash reads 0xFF. -/
def Flash.byte (f : Flash) (a : Nat) : Byte :=
  let inSector := fun (k : Nat) (l : List (W32 × W32)) =>
    match l[(a - f.sectorAt k) / 8]? with
    | some x => nth (slotBytes x) ((a - f.sectorAt k) % 8) 0xFF
    | none => 0xFF#8
  if f.sectorAt 0 ≤ a ∧ a < f.sectorAt 0 + sectorBytes then inSector 0 f.sector0
  else if f.sectorAt 1 ≤ a ∧ a < f.sectorAt 1 + sectorBytes then inSector 1 f.sector1
  else memGet f.bytes a ^^^ 0xFF#8

/-- Put bytes into the flash. -/
def Flash.put (f : Flash) (a : Nat) (bs : List Byte) : Flash := { f with bytes := memWrite f.bytes a (bs.map (· ^^^ 0xFF#8)) }

/-- Erase 64 KiB. -/
def Flash.erase (f : Flash) (a : Nat) : Flash := { f with bytes := memZero f.bytes a sectorBytes }

/-- The part runs from a copy: not in recovery mode. -/
def Chip.copyInUse (c : Chip) : Option Nat := if c.fld R.BOOT_STAT F.BOOT_STAT.STAGE = 7 then none else some (c.fld R.BOOT_STAT F.BOOT_STAT.COPY)

/-- A range touches the copy in use or an incarnation sector (R368). -/
def Chip.flashBarred (c : Chip) (a n : Nat) : Bool :=
  let f := c.flash
  let meets := fun (b m : Nat) => decide (a < b + m) && decide (b < a + n)
  meets (f.sectorAt 0) sectorBytes || meets (f.sectorAt 1) sectorBytes ||
    c.copyInUse.any (fun k => meets (k * f.half) (f.half - sectorBytes))

/-! ### FLASH_CMD (R368, R381) -/

/-- The 256 bytes of FLASH_BUF. -/
def Chip.flashBuf (c : Chip) : List Byte := (List.range 32).flatMap (fun i => bytesLE 8 (c.reg (R.FLASH_BUF i)).toNat)

/-- FLASH_STAT.ERR. -/
def Chip.flashErr (c : Chip) (e : Nat) : Chip := c.setFld R.FLASH_STAT F.FLASH_STAT.ERR e

/-- A FLASH_CMD write of an operation: ignored while BUSY, refused when misaligned or barred, else it runs; an erase is logged. -/
def flashCmd (r : Requester) (op : Nat) (c : Chip) : Chip :=
  let a := c.fld R.FLASH_ADDR F.FLASH_ADDR.ADDR
  let n := if op = 1 then sectorBytes else 256
  if ¬ mayReachBar0 r then c
  else if c.early r then c.noteEarly
  else if c.flash.busy.isSome then c
  else if a % n ≠ 0 then c.flashErr 1
  else if op ≠ 3 ∧ c.flashBarred a n then c.flashErr 2
  else
    let c := if op = 1 then c.logOp (c.origin r) 9 (a / sectorBytes) 0 0 else c
    let c : Chip := { c with flash := { c.flash with busy := some ⟨op, a, if op = 2 then c.flashBuf else []⟩ } }
    (c.flashErr 0).setFlag R.FLASH_STAT F.FLASH_STAT.BUSY true

/-- FLASH_ERASE (R368). -/
def flashErase (r : Requester) (c : Chip) : Chip := flashCmd r 1 c

/-- FLASH_PROGRAM (R368). -/
def flashProgram (r : Requester) (c : Chip) : Chip := flashCmd r 2 c

/-- FLASH_READ (R381). -/
def flashRead (r : Requester) (c : Chip) : Chip := flashCmd r 3 c

/-- Bytes whose values are open. -/
def Chip.freeBytes (c : Chip) (n : Nat) : List Byte × Chip :=
  ((List.range n).map (fun i => (Config.freeWord (c.freeCtr + i)).setWidth 8), { c with freeCtr := c.freeCtr + n })

/-- Put 256 bytes into FLASH_BUF. -/
def Chip.fillFlashBuf (c : Chip) (bs : List Byte) : Chip :=
  (List.range 32).foldl (fun (c : Chip) (i : Nat) => c.setReg (R.FLASH_BUF i) (BitVec.ofNat 64 (natLE ((bs.drop (8 * i)).take 8)))) c

/-- What the operation leaves: erased or programmed bytes, or the bytes read; after an error, bytes that are open, and a buffer as it
was (log entry 50). -/
def Chip.flashEffect (c : Chip) (o : FlashOp) (ok : Bool) : Chip :=
  match o.op, ok with
  | 1, true => { c with flash := c.flash.erase o.addr }
  | 2, true => { c with flash := c.flash.put o.addr o.data }
  | 3, true => c.fillFlashBuf ((List.range 256).map (fun i => c.flash.byte (o.addr + i)))
  | 3, false => c
  | op, _ =>
    let (bs, c) := c.freeBytes (if op = 1 then sectorBytes else 256)
    { c with flash := c.flash.put o.addr bs }

/-- FLASH_OP_COMPLETE (R381). -/
def flashOpComplete (ok : Bool) (c : Chip) : Chip :=
  match c.flash.busy with
  | none => c
  | some o =>
    let c := c.flashEffect o ok
    let c : Chip := { c with flash := { c.flash with busy := none } }
    (c.flashErr (if ok then 0 else 3)).setFlag R.FLASH_STAT F.FLASH_STAT.BUSY false

/-! ### The change log (R375, R376, R381) -/

/-- CHANGE_LOG_SPILL (R375): firmware spills the oldest entry of the on-chip ring. -/
def changeLogSpill (c : Chip) : Chip := { c with log := c.log.spill }

/-- The entry of a sequence number, among the newest 65,536. -/
def Chip.logFind (c : Chip) (seq : Nat) : Option LogEntry :=
  if seq + 65536 < c.log.next then none else (c.log.hbm ++ c.log.ring).find? (fun e => e.seq == seq)

/-- The complement or the CRC of an entry fails (R376). -/
def Chip.logDamaged (c : Chip) (e : LogEntry) : Bool := c.log.damaged.contains e.seq || e.crc != crc16 e.covered

/-- LOG_FETCH (R381): a LOG_SEL write starts a fetch. -/
def logFetch (r : Requester) (seq : W64) (c : Chip) : Chip :=
  if ¬ mayReachBar0 r then c
  else
    let c : Chip := { c with log := { c.log with fetching := some seq.toNat } }
    (c.setReg R.LOG_SEL seq).setFlag R.LOG_RD F.LOG_RD.BUSY true

/-- LOG_FETCH_COMPLETE (R376, R381): RESULT, and LOG_ENT for an entry that is held. -/
def logFetchComplete (c : Chip) : Chip :=
  match c.log.fetching with
  | none => c
  | some seq =>
    let c : Chip := { c with log := { c.log with fetching := none } }
    let c := c.setFlag R.LOG_RD F.LOG_RD.BUSY false
    if c.log.next ≤ seq then c.setFld R.LOG_RD F.LOG_RD.RESULT 2
    else match c.logFind seq with
      | none => c.setFld R.LOG_RD F.LOG_RD.RESULT 1
      | some e =>
        let c := (List.range 4).foldl (fun (c : Chip) (i : Nat) => c.setReg (R.LOG_ENT i) (nth e.words i 0)) c
        if c.logDamaged e then (c.setFld R.LOG_RD F.LOG_RD.RESULT 3).bump R.LOG_RD F.LOG_RD.DAMAGED_CNT 1
        else c.setFld R.LOG_RD F.LOG_RD.RESULT 0

end Sys2Proof.Machine
end

