-- ==== Sys2Proof/Machine/Access.lean ====
section
/-! DEFINITION. Accesses to BAR0 and BAR2: the place an access finds, 32-bit halves, complemented pairs, and what a read or write of
each register does (R6 to R8, R361, R395 to R399, R403, R404, R427). -/

namespace Sys2Proof.Machine

/-! ### Where an access goes (R395 to R398, R406) -/

/-- The register map keys BAR2 offsets above the 256 MiB of BAR0. -/
def bar2Key : Nat := 0x10000000

/-- The end of BAR2. -/
def bar2End : Nat := bar2Key + 1024 * 4096

/-- The path of an access: host software, the firmware and the monitor reach BAR0; a slice reaches its own page of BAR2, and host
software the page of any slice, as that slice. -/
def accessPath (r : Requester) (addr : Nat) : Option Requester :=
  if addr < bar2Key then (if mayReachBar0 r then some r else none)
  else if bar2End ≤ addr then none
  else
    let page := (addr - bar2Key) / 4096
    match r with
    | .host => some (.slice (Fin.ofNat 1024 page))
    | .slice i => if i.val = page then some r else none
    | _ => none

/-- What an access finds: nothing that answers; an unassigned offset; a place that reads 0, ignores writes and is not counted; a word
of the capability list; or a word of a register, its first offset and its width in bytes. -/
inductive Place where
  | silent
  | unassigned
  | quiet
  | capability (w : W32)
  | word (h : RegHit) (start width : Nat)
deriving DecidableEq, Repr

/-- Registers that FDN-12H-1D lacks (R398): those of IOD1's ports and of the expander port. -/
def RegHit.absent (x : Ident) (h : RegHit) : Bool :=
  x.part == .fdn12h1d && (match h.desc.id with
    | .PORT_CFG | .PORT_STAT | .PORT_CNT | .STEER0 | .STEER1 | .SHP_STAGE | .SHP_CMD | .SHP_STAT => decide (2 ≤ h.i 0)
    | .TS_ASYM | .TSQ_HI | .TSQ_LO | .TSQ_STAT => decide (2 ≤ h.i 0)
    | .FPORT_CFG | .FPORT_STAT | .FPORT_CNT | .FSHP_STAGE | .FSHP_CMD | .FSHP_STAT => decide (3 ≤ h.i 0)
    | .CXL_STAT => true
    | _ => false)

/-- Bytes of one word of a register: the value word and the complement word of a pair are each one register (R397). -/
def RegKind.wordBytes : RegKind → Nat
  | .plain32 => 4
  | .view32 => 4
  | .pair32 => 4
  | _ => 8

/-- The part is in recovery mode (R367). -/
def Chip.inRecovery (c : Chip) : Bool := c.fld R.BOOT_STAT F.BOOT_STAT.STAGE == 7

/-- The offset belongs to a block that recovery mode serves (R367, R398). -/
def servedInRecovery (addr : Nat) : Bool :=
  decide (addr < 0x20) || (decide (0x1000 ≤ addr) && decide (addr < 0x10000)) || (decide (0x20000 ≤ addr) && decide (addr < 0x80000))

/-- What an access at an offset finds. Nothing answers before stage 1 (R361). -/
def Chip.place (c : Chip) (addr : Nat) : Place :=
  if c.fld R.BOOT_STAT F.BOOT_STAT.STAGE = 0 then .silent
  else if c.inRecovery && decide (addr < bar2Key) && !servedInRecovery addr then .unassigned
  else if 0x1000 ≤ addr ∧ addr < 0x10000 then
    match capWord c.ident c.inRecovery addr with
    | some w => .capability w
    | none => .unassigned
  else if bar2Key ≤ addr ∧ ¬ c.sliceOn ((addr - bar2Key) / 4096) then .quiet
  else
    match regHit addr with
    | none => .unassigned
    | some h =>
      let n := h.desc.kind.wordBytes
      if h.absent c.ident then .quiet else .word h (addr / n * n) n

/-- Count an access to an unassigned offset (R398). -/
def Chip.noteUnmapped (c : Chip) : Chip :=
  (c.bump R.GLB_STAT F.GLB_STAT.UNMAPPED_CNT 1).mark R.GLB_STAT F.GLB_STAT.STICKY_UNMAPPED

/-- An access supersedes what its requester latched, and discards a low half it held (R397). -/
def Chip.supersede (c : Chip) (p : Requester) : Chip :=
  let q := c.getReq p
  let c := if q.highLatch.isNone && q.lowHalf.isNone then c else c.setReq p (fun q => { q with highLatch := none, lowHalf := none })
  if q.lowHalf.isNone then c else (c.bump R.GLB_STAT F.GLB_STAT.TORN_CNT 1).mark R.GLB_STAT F.GLB_STAT.STICKY_TORN

/-! ### Complemented pairs (R7) -/

/-- A word of a complemented pair: the offset of the pair, its value words, which one this is, and that it is the complement. -/
structure PairWord where
  base : Nat
  two : Bool
  k : Nat
  comp : Bool
deriving DecidableEq, Repr

/-- The word of a pair at an offset. -/
def RegHit.pairWord (h : RegHit) (wa : Nat) : Option PairWord :=
  match h.desc.kind with
  | .pair32 => some ⟨h.base, false, 0, wa != h.base⟩
  | .pair64 => some ⟨h.base, false, 0, wa != h.base⟩
  | .pair128 =>
    let b := h.base / 16 * 16
    some ⟨b, true, (wa - b) % 16 / 8, decide (16 ≤ wa - b)⟩
  | _ => none

/-- Value word k of a pair as applied. -/
def Chip.applied (c : Chip) (h : RegHit) (p : PairWord) (k : Nat) : W64 :=
  if p.two then tabGetD c.regs (p.base + 8 * k) 0 else c.reg h.ref

/-- The complement of a word of a register. -/
def RegHit.complement (h : RegHit) (v : W64) : W64 := if h.desc.kind.wordBytes = 4 then ~~~ v &&& 0xFFFFFFFF#64 else ~~~ v

/-- What value word k would become: the word the requester holds, or the applied one. -/
def Chip.heldWord (c : Chip) (r : Requester) (h : RegHit) (p : PairWord) (k : Nat) : W64 :=
  tabGetD (c.getReq r).held (p.base + 8 * k) (c.applied h p k)

/-- Hold a word for its requester. -/
def Chip.hold (c : Chip) (r : Requester) (key : Nat) (v : W64) : Chip := c.setReq r (fun q => { q with held := tabPut q.held key v })

/-- A pair that now stores what was written to its first value word carries a matching complement again. -/
def Chip.mendPair (c : Chip) (h : RegHit) (p : PairWord) (v : W64) : Chip :=
  let m := BitVec.ofNat 64 h.desc.rw
  if c.applied h p p.k &&& m = v &&& m then
    { c with damaged := c.damaged.filter (fun o => match CompObject.hit o with
        | some x => (x.pairWord x.base).map (·.base) != some p.base
        | none => true) }
  else c

/-- After a row that writes a pair in one command: where the write was taken and its words match, a pair that now stores the written
value carries a matching complement again. -/
def Chip.mendWritten (c : Chip) (r : Requester) (matching : Bool) (addr : Nat) (v : W64) : Chip :=
  match regHit addr with
  | none => c
  | some h =>
    match h.pairWord h.base with
    | none => c
    | some p => if matching && mayReachBar0 r && !c.early r then c.mendPair h p v else c

/-! ### Interrupt enables and pins (R403, R404) -/

/-- Entries that become enabled while their bit is 1 are signalled (R403). -/
def Chip.irqEnables (before c : Chip) : Chip :=
  ((List.range 32).filter (fun k => !before.irqEnabled k && c.irqEnabled k && c.flag R.GLB_IRQ_STAT ⟨k, 1⟩)).foldl
    (fun (c : Chip) k => c.msix k) c

/-- Apply a GLB_CTL write. -/
def applyGlbCtl (origin : Nat) (v : W64) (c : Chip) : Chip :=
  c.irqEnables (c.setLogged origin R.GLB_CTL (regWrite .GLB_CTL (c.reg R.GLB_CTL) v))

/-- Put GLB_IRQ_MASK. -/
def Chip.putIrqMask (c : Chip) (v : W32) : Chip := c.irqEnables (c.setReg R.GLB_IRQ_MASK (v.setWidth 64))

/-- IRQ_MASK_WRITE (R403). -/
def irqMaskWrite (r : Requester) (target : IrqTarget) (c : Chip) : Chip :=
  match target with
  | .mask v => if mayReachBar0 r then c.putIrqMask v else c
  | .glbCtl v k => (pairWrite r atChip R.GLB_CTL.addr false (k == ~~~ v) (applyGlbCtl (c.origin r) v) c).mendWritten r (k == ~~~ v) R.GLB_CTL.addr v

/-- Put GPIO_OUT: the levels of the output pins. -/
def Chip.putGpioOut (c : Chip) (v : W32) : Chip := c.setReg R.GPIO_OUT (regWrite .GPIO_OUT 0 (v.setWidth 64))

/-- GPIO_OUT_WRITE (R404). -/
def gpioOutWrite (r : Requester) (v : W32) (c : Chip) : Chip := if mayReachBar0 r then c.putGpioOut v else c

/-! ### Applying a pair -/

/-- Apply a CELL_CTL write (R213, R216, R218): HANDOVER and RELEASE act where the cell can do so and otherwise do not stay set; a shadow
that is no longer named is told, and a new one is asked. -/
def applyCellCtl (origin i : Nat) (v : W64) (c : Chip) : Chip :=
  let r := R.CELL_CTL i
  let old := c.reg r
  let c := c.mend (.cellCtl (Fin.ofNat 1024 i))
  let rises := fun (f : Fld) => fget v f != 0 && fget old f == 0
  let good := !c.cellCtlBad i
  let ho := rises F.CELL_CTL.HANDOVER && good && c.cellState i == cellActive && c.protected_ i
  let rel := rises F.CELL_CTL.RELEASE && good && c.cellCounts i
  let v := regWrite .CELL_CTL 0 v
  let v := if rises F.CELL_CTL.HANDOVER && !ho then fput v F.CELL_CTL.HANDOVER 0 else v
  let v := if rises F.CELL_CTL.RELEASE && !rel then fput v F.CELL_CTL.RELEASE 0 else v
  let en := fget v F.CELL_CTL.SHADOW_EN != 0
  let moved := fget v F.CELL_CTL.SHADOW_CHIP != fget old F.CELL_CTL.SHADOW_CHIP || fget v F.CELL_CTL.SHADOW_SLOT != fget old F.CELL_CTL.SHADOW_SLOT
  let leaves := good && c.protected_ i && (!en || moved)
  let c := c.setLogged origin r v
  let c := if leaves then
      (c.setFlag (R.CELL_STAT i) F.CELL_STAT.PROTECTED false).toPeer (fget old F.CELL_CTL.SHADOW_CHIP) (.released (Fin.ofNat 1024 i))
    else c
  let c := if good && en && (moved || rises F.CELL_CTL.SHADOW_EN) then c.sendStandby i else c
  let c := if ho then c.beginHandover i else c
  if rel then c.release i else c

/-- Apply a SHEET_CTL write (R97): SCRUB_NOW starts a patrol pass at the first word. -/
def applySheetCtl (origin k : Nat) (v : W64) (c : Chip) : Chip :=
  let r := sheetCtl k
  let starts := fget v F.SHEET_CTL.SCRUB_NOW != 0 && !c.flag r F.SHEET_CTL.SCRUB_NOW
  let c := c.setLogged origin r (regWrite .SHEET_CTL 0 v)
  if starts then c.updKey k (fun sh => { sh with patrolWord := 0 }) else c

/-- Apply a STRIP_CFG write (R197): an engine taken out of service is lost capacity. -/
def applyStripCfg (origin ream : Nat) (v : W64) (c : Chip) : Chip :=
  let r := R.STRIP_CFG ream
  let old := c.reg r
  let v := regWrite .STRIP_CFG 0 v
  let c := c.setLogged origin r v
  if old &&& ~~~ v = 0 then c else c.loseCapacity

/-- Apply a FAB_CFG write (R332): the chip identifier does not change while the fabric is enabled. -/
def applyFabCfg (origin : Nat) (v : W64) (c : Chip) : Chip :=
  let r := R.FAB_CFG
  if ¬ regFits .FAB_CFG v ∨ (c.flag r F.FAB_CFG.FAB_EN ∧ fget v F.FAB_CFG.CHIP_ID ≠ c.fld r F.FAB_CFG.CHIP_ID) then
    c.mark R.FAB_STAT F.FAB_STAT.CFG_REFUSED
  else (c.setLogged origin r (regWrite .FAB_CFG 0 v)).domainRefresh

/-- The refusal of R427 in the block of a register. -/
def Chip.refuseIn (c : Chip) (id : RegId) : Chip :=
  match id with
  | .MIG_CFG => c.mark R.TIER_STAT F.TIER_STAT.CFG_REFUSED
  | _ => c.refuse427

/-- Apply a pair that has no rule of its own (R427, R8). -/
def applyPlain (origin : Nat) (h : RegHit) (v : W64) (c : Chip) : Chip :=
  let new := h.desc.write (c.reg h.ref) v
  if ¬ h.desc.fits v then c.refuseIn h.desc.id
  else if h.desc.logged then c.setLogged origin h.ref new else c.setReg h.ref new

/-- Apply an accepted pair to the register it belongs to. -/
def applyPair (origin : Nat) (h : RegHit) (v0 v1 : W64) (c : Chip) : Chip :=
  let i := h.i 0
  match h.desc.id with
  | .RT_OFFSET => applyRtOffset c origin (v0.setWidth 32)
  | .PORT_CFG => applyPortCfg origin i v0 c
  | .STRM_CFG => applyStrmCfg origin i v0 c
  | .FLOOR_CFG => applyFloorCfg origin i v0 c
  | .TIER_CFG => applyTierCfg origin v0 c
  | .HOST_POOL => applyHostPool origin i v0 c
  | .LEND_WIN0 => applyLendWin origin i v0 v1 c
  | .LEND_WIN1 => applyLendWin origin i v0 v1 c
  | .BORROW_WIN0 => applyBorrowWin origin i v0 v1 c
  | .BORROW_WIN1 => applyBorrowWin origin i v0 v1 c
  | .FPORT_CFG => applyFportCfg origin i v0 c
  | .DCK_CTL => applyDeckle origin i .ctl v0 0 c
  | .DCK_QUOTA => applyDeckle origin i .quota v0 0 c
  | .DCK_LIMITS => applyDeckle origin i .limits v0 0 c
  | .DCK_SHP => applyDeckle origin i .shp v0 0 c
  | .DCK_FAB => applyDeckle origin i (.fab (Fin.ofNat 2 (h.i 1))) v0 0 c
  | .DCK_RADIO => applyDeckle origin i .radio v0 0 c
  | .WIN0 => applyDeckle origin i (.win (Fin.ofNat 16 (h.i 1))) v0 v1 c
  | .WIN1 => applyDeckle origin i (.win (Fin.ofNat 16 (h.i 1))) v0 v1 c
  | .SLICE => applySlice origin i v0 c
  | .GLB_CTL => applyGlbCtl origin v0 c
  | .CELL_CTL => applyCellCtl origin i v0 c
  | .SHEET_CTL => applySheetCtl origin (posKey (i * 8 + h.i 1) (h.i 2)) v0 c
  | .STRIP_CFG => applyStripCfg origin i v0 c
  | .FAB_CFG => applyFabCfg origin v0 c
  | .FREQ_CFG => (applyPlain origin h v0 c).freqRefresh
  | .STEER0 => (c.setLogged origin (R.STEER0 i (h.i 1)) (regWrite .STEER0 0 v0)).setLogged origin (R.STEER1 i (h.i 1)) (regWrite .STEER1 0 v1)
  | .STEER1 => (c.setLogged origin (R.STEER0 i (h.i 1)) (regWrite .STEER0 0 v0)).setLogged origin (R.STEER1 i (h.i 1)) (regWrite .STEER1 0 v1)
  | _ => applyPlain origin h v0 c

/-- A write of one word of a pair (R7). A value word is held; so is the first complement word of a pair of two. The last complement
word compares every complement with the value word held or applied, and either applies the new value or raises INTEGRITY at the level
that owns the register; the held words are released. -/
def Chip.writePair (c : Chip) (r : Requester) (h : RegHit) (p : PairWord) (v : W64) : Chip :=
  let key := p.base + 8 * p.k + (if p.comp then 16 else 0)
  if ¬ p.comp ∨ (p.two ∧ p.k = 0) then c.hold r key v
  else
    let v0 := c.heldWord r h p 0
    let v1 := c.heldWord r h p 1
    let ok : Bool :=
      if p.two then tabGetD (c.getReq r).held (p.base + 16) (~~~ c.applied h p 0) == ~~~ v0 && v == ~~~ v1
      else v == h.complement v0
    let c := if ok then (applyPair (c.origin r) h v0 v1 c).mendPair h { p with k := 0 } v0 else c.integrity h.errAt
    c.releasePair r p.base p.two

/-! ### Writes -/

/-- The path of an access for R361: tenants' slices carry host writes. -/
def hostPath : Requester → Requester
  | .slice _ => .host
  | r => r

/-- Staging words and commands that R361 ignores before stage 2, beside the logged registers. -/
def stagingId : RegId → Bool
  | .EVT_STAGE | .SHP_STAGE | .FSHP_STAGE | .MAP_STAGE | .TAB_STAGE | .RING_STAGE | .MIR_STAGE | .RCV_DESC | .KEY_V | .KEY_C
  | .FLASH_ADDR | .FLASH_BUF | .FLASH_CMD | .DIRTY_CMD => true
  | _ => false

/-- EVT_CMD (R37, R44). -/
def Chip.evtCmd (c : Chip) (p : Requester) (v : W64) : Chip :=
  let i : Fin 4096 := Fin.ofNat 4096 (fget v F.EVT_CMD.INDEX)
  match fget v F.EVT_CMD.OP with
  | 1 => evtWriteEntry p i c
  | 2 => evtReadEntry p i c
  | 3 => evtDisarm p i c
  | _ => c

/-- SHP_CMD of a port (R168). -/
def Chip.shpCmd (c : Chip) (p : Requester) (port : Nat) (v : W64) : Chip :=
  let kind : Fin 4 := Fin.ofNat 4 (fget v F.SHP_CMD.KIND)
  let i : Fin 1024 := Fin.ofNat 1024 (fget v F.SHP_CMD.INDEX)
  match fget v F.SHP_CMD.OP with
  | 1 => shpWrite p (Fin.ofNat 10 port) kind i c
  | 2 => shpReadBack p (Fin.ofNat 10 port) kind i c
  | _ => c

/-- TAB_CMD (R332). -/
def Chip.tabCmd (c : Chip) (p : Requester) (v : W64) : Chip :=
  let i : Fin 65536 := Fin.ofNat 65536 (fget v F.TAB_CMD.INDEX)
  let table := fget v F.TAB_CMD.TABLE
  match fget v F.TAB_CMD.OP with
  | 1 => match table with
    | 0 => routeWrite p i c
    | 1 => windowWrite p i c
    | 2 => rxqWrite p i c
    | _ => jobWrite p i c
  | 2 => tabReadBack p (Fin.ofNat 4 table) i c
  | _ => c

/-- MAP_CMD (R259); its reserved operations do nothing. -/
def Chip.mapOp (c : Chip) (p : Requester) (v : W64) : Chip :=
  let op := fget v F.MAP_CMD.OP
  if op = 0 ∨ 8 < op then c else if op = 8 then mapRead p c else mapCmd p op c

/-- MIR_CMD (R347, R358). -/
def Chip.mirCmd (c : Chip) (p : Requester) (v : W64) : Chip :=
  match fget v F.MIR_CMD.OP with
  | 1 => mirWrite p (fget v F.MIR_CMD.INDEX) c
  | 2 => mirReadBack p (fget v F.MIR_CMD.INDEX) c
  | _ => c

/-- RCV_CMD (R349, R357). -/
def Chip.rcvCmd (c : Chip) (p : Requester) (v : W64) : Chip :=
  match fget v F.RCV_CMD.OP with
  | 1 => rcvRun none c
  | 2 => recoveryAbort p c
  | _ => c

/-- RING_CMD (R296, R297, R307). -/
def Chip.ringCmd (c : Chip) (i : Fin 1024) (v : W64) : Chip :=
  match fget v F.RING_CMD.OP with
  | 1 => ringCreate i c
  | 2 => ringDelete i c
  | 3 => ringReadBack i c
  | _ => c

/-- MSIX_CTRL of an entry: a pending message leaves once the vector is unmasked. -/
def Chip.putMsixCtrl (c : Chip) (n : Nat) (v : W64) : Chip :=
  let c := c.setFld (R.MSIX_CTRL n) F.MSIX_CTRL.MASK (fget v F.MSIX_CTRL.MASK)
  let pend : Fld := ⟨n % 64, 1⟩
  if ¬ c.flag (R.MSIX_CTRL n) F.MSIX_CTRL.MASK ∧ c.flag (R.MSIX_PBA (n / 64)) pend then
    (c.setFld (R.MSIX_PBA (n / 64)) pend 0).send (.msix n)
  else c

/-- CNT_CTL (R388, R393). -/
def Chip.putCntCtl (c : Chip) (v : W64) : Chip :=
  let c := c.setFld R.CNT_CTL F.CNT_CTL.FREEZE (fget v F.CNT_CTL.FREEZE)
  if fget v F.CNT_CTL.CFG_REFUSED = 0 then c else c.setFlag R.CNT_CTL F.CNT_CTL.CFG_REFUSED false

/-- The counter unit and number of a counter register. -/
def RegHit.counter (h : RegHit) : CounterUnit × Nat :=
  let ream : Fin 4 := Fin.ofNat 4 (h.i 0)
  let quire : Fin 8 := Fin.ofNat 8 (h.i 1)
  match h.desc.id with
  | .SC_COUNT | .SC_CFG | .SC_SAMPLE => (.sheet ⟨ream, quire, Fin.ofNat 66 (h.i 2), false⟩, h.i 3)
  | .QC_COUNT | .QC_CFG | .QC_SAMPLE => (.quire ⟨ream, quire⟩, h.i 2)
  | .RC_COUNT | .RC_CFG | .RC_SAMPLE => (.ream ream, h.i 1)
  | _ => (.chip, h.i 0)

/-- GLB_IRQ_STAT: writing 1 clears an edge bit; the level bits 2 and 3 and the reserved bits ignore it (R403). -/
def Chip.clearIrq (c : Chip) (v : W64) : Chip := c.setReg R.GLB_IRQ_STAT (c.reg R.GLB_IRQ_STAT &&& ~~~ (v &&& 0xFFF3#64))

/-- A write under the access words of R6: read/write bits take the new value, write-1-to-clear bits are cleared. -/
def Chip.writePlain (c : Chip) (h : RegHit) (v : W64) : Chip :=
  c.setReg h.ref (h.desc.write (c.reg h.ref) v &&& ~~~ (v &&& BitVec.ofNat 64 h.desc.w1c))

/-- A write of a register that is no complemented pair. -/
def Chip.writeReg (c : Chip) (p : Requester) (h : RegHit) (v : W64) : Chip :=
  let i := h.i 0
  let j := h.i 1
  let w : W32 := v.setWidth 32
  let slice : Fin 1024 := Fin.ofNat 1024 i
  match h.desc.id with
  | .LOCK => lockRelease p (Fin.ofNat 16 i) w c
  | .LOCK_A => lockRelease p (Fin.ofNat 16 j) w c
  | .LOCK_FORCE => lockForce p (v.setWidth 16) c
  | .HMBX_OUT => if p = .host then mbxOutWrite p (Fin.ofNat 4 i) w c else c
  | .MBX_OUT => mbxOutWrite p (Fin.ofNat 4 j) w c
  | .SHMBX => shmbxWrite p (Fin.ofNat 16 i) w c
  | .SHMBX_A => shmbxWrite p (Fin.ofNat 16 j) w c
  | .GLB_IRQ_STAT => c.clearIrq v
  | .GLB_IRQ_MASK => c.putIrqMask w
  | .GPIO_OUT => c.putGpioOut w
  | .FLASH_CMD => if fget v F.FLASH_CMD.OP = 0 then c else flashCmd p (fget v F.FLASH_CMD.OP) c
  | .EVT_CMD => c.evtCmd p v
  | .SHP_CMD => c.shpCmd p i v
  | .FSHP_CMD => c.shpCmd p (4 + i) v
  | .TAB_CMD => c.tabCmd p v
  | .KEY_CMD => match fget v F.KEY_CMD.OP with
    | 1 => keyCmd p i true c
    | 2 => keyCmd p i false c
    | _ => c
  | .DIRTY_CMD => if fget v F.DIRTY_CMD.OP = 1 then dirtySwap p (Fin.ofNat 64 i) c else c
  | .MAP_CMD => c.mapOp p v
  | .RING_CMD => c.ringCmd slice v
  | .RCV_CMD => c.rcvCmd p v
  | .MIR_CMD => c.mirCmd p v
  | .LOG_SEL => logFetch p v c
  | .KEY_V => c.setReg h.ref v
  | .KEY_C => c.setReg h.ref v
  | .SQ_TAIL => sqTailWrite slice (Fin.ofNat 64 j) w c
  | .CQ_HEAD => cqHeadWrite slice (Fin.ofNat 64 j) w c
  | .ETH_TX_TAIL => ethTxTailWrite slice (Fin.ofNat 64 j) w c
  | .ETH_RX_TAIL => ethRxTailWrite slice (Fin.ofNat 64 j) w c
  | .FAPI_TAIL => fapiTailWrite slice w [] c
  | .FAPI_HEAD => fapiHeadWrite slice w c
  | .MSIX_CTRL => c.putMsixCtrl i v
  | .CNT_CTL => c.putCntCtl v
  | .SC_CFG => cntCfgWrite c h.counter.1 h.counter.2 v
  | .QC_CFG => cntCfgWrite c h.counter.1 h.counter.2 v
  | .RC_CFG => cntCfgWrite c h.counter.1 h.counter.2 v
  | .CHIPC_CFG => cntCfgWrite c h.counter.1 h.counter.2 v
  | .SC_COUNT => cntValueWrite c h.counter.1 h.counter.2 v
  | .QC_COUNT => cntValueWrite c h.counter.1 h.counter.2 v
  | .RC_COUNT => cntValueWrite c h.counter.1 h.counter.2 v
  | .CHIPC_COUNT => cntValueWrite c h.counter.1 h.counter.2 v
  | _ => if h.desc.logged then c.setLogged (c.origin p) h.ref (h.desc.write (c.reg h.ref) v) else c.writePlain h v

/-- A write of one whole word of a register. -/
def Chip.writeWord (c : Chip) (p : Requester) (h : RegHit) (start : Nat) (v : W64) : Chip :=
  if (h.desc.logged || stagingId h.desc.id) && c.early (hostPath p) then c.noteEarly
  else match h.pairWord start with
    | some q => c.writePair p h q v
    | none => c.writeReg p h v

/-- A 4-byte write (R397): a whole 32-bit word, or a half of a 64-bit one. The low half is held; the high half writes both. -/
def Chip.write4 (c : Chip) (p : Requester) (addr : Nat) (v : W32) : Chip :=
  match c.place addr with
  | .silent => c
  | .unassigned => (c.supersede p).noteUnmapped
  | .quiet => c.supersede p
  | .capability _ => c.supersede p
  | .word h start width =>
    let low := (c.getReq p).lowHalf
    if width = 4 then (c.supersede p).writeWord p h start (v.setWidth 64)
    else if addr = start then (c.supersede p).setReq p (fun q => { q with lowHalf := some (start, v) })
    else
      match low with
      | some (a, lo) =>
        if a = start then
          (c.setReq p (fun q => { q with lowHalf := none, highLatch := none })).writeWord p h start (BitVec.ofNat 64 (v.toNat * 2 ^ 32 + lo.toNat))
        else (c.supersede p).writeWord p h start (BitVec.ofNat 64 (v.toNat * 2 ^ 32))
      | none => (c.supersede p).writeWord p h start (BitVec.ofNat 64 (v.toNat * 2 ^ 32))

/-- An 8-byte write (R397): a 64-bit word, or a 32-bit register and the one that follows it, in ascending order. -/
def Chip.write8 (c : Chip) (p : Requester) (addr : Nat) (v : W64) : Chip :=
  match c.place addr with
  | .silent => c
  | .unassigned => (c.supersede p).noteUnmapped
  | .quiet => c.supersede p
  | .capability _ => c.supersede p
  | .word h start width =>
    if width = 8 then (c.supersede p).writeWord p h start v
    else (c.write4 p addr (v.setWidth 32)).write4 p (addr + 4) ((v >>> 32).setWidth 32)

/-! ### Reads -/

/-- Take the value that a read row sent. -/
def Chip.taken (c : Chip) : W64 × Chip :=
  match c.out with
  | .readData _ v :: t => (v, { c with out := t })
  | _ => (0, c)

/-- The word of the radio-time latch of CT_SEC (R43), or as it stands where the requester has latched nothing. -/
def Chip.ctLatched (c : Chip) (p : Requester) (k : Nat) : W64 := nth ((c.getReq p).ctLatch.getD c.ctWords) k 0

/-- A read with its side effects: latches and pops have theirs, and read-clears fields are cleared (R6). -/
def Chip.readReg (c : Chip) (p : Requester) (h : RegHit) : W64 × Chip :=
  let i := h.i 0
  let j := h.i 1
  match h.desc.id with
  | .CT_SEC => (ctSecRead p c).taken
  | .CT_NS => (c.ctLatched p 0, c)
  | .RT_NOW => (c.ctLatched p 1, c)
  | .RT_VIEW => (c.ctLatched p (2 + i), c)
  | .TSQ_HI => (tsqHiRead p (Fin.ofNat 4 i) c).taken
  | .TSQ_LO => (tsqLoRead p (Fin.ofNat 4 i) c).taken
  | .MISS_HI => (missHiRead p c).taken
  | .MISS_LO => (missLoRead p c).taken
  | .ERR_HI => (errHiRead p c).taken
  | .ERR_LO => (errLoRead p c).taken
  | .HMBX_IN => if p = .host then (mbxInRead p (Fin.ofNat 4 i) c).taken else (c.regNow h, c)
  | .MBX_IN => (mbxInRead p (Fin.ofNat 4 j) c).taken
  | .SHMBX => (shmbxRead p (Fin.ofNat 16 i) c).taken
  | .SHMBX_A => (shmbxRead p (Fin.ofNat 16 j) c).taken
  | .LOCK => (lockRead p (Fin.ofNat 16 i) c).taken
  | .LOCK_A => (lockRead p (Fin.ofNat 16 j) c).taken
  | _ => (c.regNow h, if h.desc.rc = 0 then c else c.setReg h.ref (c.reg h.ref &&& ~~~ BitVec.ofNat 64 h.desc.rc))

/-- A read of one whole word: of a pair, the value as applied or its complement (R7). -/
def Chip.readWord (c : Chip) (p : Requester) (h : RegHit) (start : Nat) : W64 × Chip :=
  match h.pairWord start with
  | some q => (if q.comp then h.complement (c.applied h q q.k) else c.applied h q q.k, c)
  | none => c.readReg p h

/-- Answer a read. -/
def Chip.answer (c : Chip) (r : Requester) (v : W64) : Chip := c.send (.readData r v)

/-- A 4-byte read for a requester on its path (R397): the low half of a 64-bit word latches its high half; the high half returns that
where it was the last access, and otherwise reads the word in full. -/
def Chip.read4 (c : Chip) (r p : Requester) (addr : Nat) : Chip :=
  match c.place addr with
  | .silent => c
  | .unassigned => ((c.supersede p).noteUnmapped).answer r 0
  | .quiet => (c.supersede p).answer r 0
  | .capability w => (c.supersede p).answer r (w.setWidth 64)
  | .word h start width =>
    let latch := (c.getReq p).highLatch
    let c := c.supersede p
    if width = 4 then
      let (v, c) := c.readWord p h start
      c.answer r v
    else if addr = start then
      let (v, c) := c.readWord p h start
      (c.setReq p (fun q => { q with highLatch := some (start, (v >>> 32).setWidth 32) })).answer r (v &&& 0xFFFFFFFF#64)
    else
      match latch with
      | some (a, hi) =>
        if a = start then c.answer r (hi.setWidth 64)
        else
          let (v, c) := c.readWord p h start
          c.answer r (v >>> 32)
      | none =>
        let (v, c) := c.readWord p h start
        c.answer r (v >>> 32)

/-! ### The rows -/

/-- The access has one of the sizes and alignments of R397. -/
def accessOk (addr size : Nat) : Bool := (size == 4 || size == 8) && addr % size == 0

/-- UNSUPPORTED_REQUEST (R397): no effect but its completion. -/
def unsupportedRequest (r : Requester) (addr size : Nat) (c : Chip) : Chip :=
  if accessOk addr size then c else c.send (.unsupportedRequest r)

/-- REGISTER_WRITE (R6). -/
def registerWrite (r : Requester) (addr : Nat) (size8 : Bool) (v : W64) (c : Chip) : Chip :=
  match accessPath r addr with
  | none => c
  | some p =>
    if ¬ accessOk addr (if size8 then 8 else 4) then c.send (.unsupportedRequest r)
    else if size8 then c.write8 p addr v else c.write4 p addr (v.setWidth 32)

/-- The word of a pair that an offset begins, as its path finds it. -/
def Chip.pairAt (c : Chip) (addr : Nat) : Option (Nat × PairWord) :=
  match c.place addr with
  | .word h start width => if addr = start then (h.pairWord start).map (fun q => (width, q)) else none
  | _ => none

/-- Write a whole word of a pair: the value word or the complement. -/
def Chip.pairWordWrite (c : Chip) (r : Requester) (addr : Nat) (comp : Bool) (v : W64) : Chip :=
  match accessPath r addr, c.pairAt addr with
  | some p, some (width, q) =>
    if q.comp != comp then c else if width = 8 then c.write8 p addr v else c.write4 p addr (v.setWidth 32)
  | _, _ => c

/-- VALUE_WORD_WRITE (R7). -/
def valueWordWrite (r : Requester) (addr : Nat) (v : W64) (c : Chip) : Chip := c.pairWordWrite r addr false v

/-- COMPLEMENT_WORD_WRITE (R7). -/
def complementWordWrite (r : Requester) (addr : Nat) (v : W64) (c : Chip) : Chip := c.pairWordWrite r addr true v

/-- A 4-byte read of either half. -/
def Chip.halfRead (c : Chip) (r : Requester) (addr : Nat) : Chip :=
  match accessPath r addr with
  | none => c
  | some p => if accessOk addr 4 then c.read4 r p addr else c.send (.unsupportedRequest r)

/-- LOW_HALF_READ (R397). -/
def lowHalfRead (r : Requester) (addr : Nat) (c : Chip) : Chip := c.halfRead r addr

/-- HIGH_HALF_READ (R397). -/
def highHalfRead (r : Requester) (addr : Nat) (c : Chip) : Chip := c.halfRead r addr

/-- A 4-byte write of either half. -/
def Chip.halfWrite (c : Chip) (r : Requester) (addr : Nat) (v : W32) : Chip :=
  match accessPath r addr with
  | none => c
  | some p => if accessOk addr 4 then c.write4 p addr v else c.send (.unsupportedRequest r)

/-- LOW_HALF_WRITE (R397). -/
def lowHalfWrite (r : Requester) (addr : Nat) (v : W32) (c : Chip) : Chip := c.halfWrite r addr v

/-- HIGH_HALF_WRITE (R397). -/
def highHalfWrite (r : Requester) (addr : Nat) (v : W32) (c : Chip) : Chip := c.halfWrite r addr v

/-- UNASSIGNED_ACCESS (R398): a read returns 0, a write is ignored, and both are counted. -/
def unassignedAccess (r : Requester) (addr : Nat) (isWrite : Bool) (c : Chip) : Chip :=
  match accessPath r addr with
  | none => c
  | some p =>
    if c.place addr = .unassigned then
      let c := (c.supersede p).noteUnmapped
      if isWrite then c else c.answer r 0
    else c

end Sys2Proof.Machine
end

