-- ==== Sys2Proof/Machine/Monitor.lean ====
section
/-! DEFINITION. The monitor on the UART (R367, R377 to R380). What a command prints is the list of the words its reply shows. -/

namespace Sys2Proof.Machine

/-! ### Commands and replies -/

/-- Fifteen minutes in control-clock cycles. -/
def fifteenMinutes : Nat := 900 * 10 ^ 9

/-- A reply on the UART. -/
def Chip.print (c : Chip) (name : String) (ws : List W64) : Chip := c.send (.uart name ws)

/-- A command that is unknown, or not available in the current mode, is answered with `?` (R377). -/
def Chip.unknown (c : Chip) : Chip := c.print "?" []

/-- Fifteen minutes without a command have passed while the monitor is unlocked. -/
def Chip.monitorIdle (c : Chip) : Bool := c.monitor.unlocked && decide (c.monitor.lastCommand + fifteenMinutes ≤ c.time.uptime)

/-- Change the monitor. -/
def Chip.setMonitor (c : Chip) (f : Monitor → Monitor) : Chip := { c with monitor := f c.monitor }

/-- A command line has come: the idle time begins again, and a monitor that was idle too long is locked. -/
def Chip.monitorTakes (c : Chip) : Chip :=
  let idle := c.monitorIdle
  let now := c.time.uptime
  c.setMonitor (fun m => { m with lastCommand := now, unlocked := m.unlocked && !idle })

/-- MONITOR_IDLE_LOCK (R379). -/
def monitorIdleLock (c : Chip) : Chip := if c.monitorIdle then c.setMonitor (fun m => { m with unlocked := false }) else c

/-- A command that recovery mode does not serve (R367). -/
def Chip.monitorRun (c : Chip) (run : Chip → Chip) : Chip :=
  let c := c.monitorTakes
  if c.inRecovery then c.unknown else run c

/-- A command that is available only while the monitor is unlocked (R378). -/
def Chip.unlockedOnly (c : Chip) (run : Chip → Chip) : Chip := if c.monitor.unlocked then run c else c.unknown

/-! ### What the commands print (R378) -/

/-- ID. -/
def monId (c : Chip) : Chip :=
  let c := c.monitorTakes
  let boot := R.BOOT_STAT
  c.print "id" [BitVec.ofNat 64 c.ident.partWord, BitVec.ofNat 64 c.ident.stepWord, BitVec.ofNat 64 c.ident.aicWord,
    BitVec.ofNat 64 (c.fld R.FAB_STAT F.FAB_STAT.CHIP_INC), BitVec.ofNat 64 (c.fld boot F.BOOT_STAT.COPY),
    BitVec.ofNat 64 (c.fld boot F.BOOT_STAT.VERSION), BitVec.ofNat 64 (c.fld boot F.BOOT_STAT.STAGE)]

/-- The words of the capability list, in order. -/
def Chip.capList (c : Chip) : List W64 :=
  (List.range ((capEntries c.ident c.inRecovery).length * (capBytes / 4))).filterMap (fun k =>
    (capWord c.ident c.inRecovery (0x1000 + 4 * k)).map (fun w => w.setWidth 64))

/-- CAPS (R372). -/
def monCaps (c : Chip) : Chip :=
  let c := c.monitorTakes
  c.print "caps" c.capList

/-- LINKS: state and counters of the Ethernet ports, the fabric ports and the CXL devices. -/
def monLinks (c : Chip) : Chip :=
  c.monitorRun (fun c =>
    let e := (List.range 4).flatMap (fun p => c.reg (R.PORT_STAT p) ::
      (List.range 4).flatMap (fun s => (List.range 10).map (fun k => c.reg (R.PORT_CNT p s k))))
    let f := (List.range 6).flatMap (fun p => c.reg (R.FPORT_STAT p) :: (List.range 10).map (fun k => c.reg (R.FPORT_CNT p k)))
    let x := (List.range 2).map (fun d => fput (c.reg (R.CXL_STAT d)) F.CXL_STAT.USED_GIB (gibUp (c.placeUse (.cxl d))))
    c.print "links" (e ++ f ++ x))

/-- CELLS: each cell that is not down with its CELL_STAT, ADM_CHIP, and the timing state. -/
def monCells (c : Chip) : Chip :=
  c.monitorRun (fun c =>
    let up := (List.range 1024).filter c.cellUp
    c.print "cells" (up.flatMap (fun i => [BitVec.ofNat 64 i, c.reg (R.CELL_STAT i)]) ++ [c.admChipWord, c.reg R.TM_STATE]))

/-- TENANTS: each slot that is not free with its TEN_STAT and TENANT_USE. -/
def monTenants (c : Chip) : Chip :=
  c.monitorRun (fun c =>
    let used := (List.range 64).filter (fun s => c.slotState s != 0)
    c.print "tenants" (used.flatMap (fun s => [BitVec.ofNat 64 s, c.reg (R.TEN_STAT s), c.tenantUseWord s])))

/-- Dies and stacks that temps shows: two compute dies, the I/O dies and the HBM stacks (R1). -/
def Part.sensors : Part → Nat
  | .fdn12h2d => 2 + 2 + 12
  | .fdn8h2d => 2 + 2 + 8
  | .fdn12h1d => 2 + 1 + 12

/-- TEMPS: a temperature for each die and stack, which are measurements and open (log entry 51), and the throttle state. -/
def monTemps (c : Chip) : Chip :=
  c.monitorRun (fun c =>
    let n := c.ident.part.sensors
    let ws := (List.range n).map (fun i => Config.freeWord (c.freeCtr + i))
    let bit := fun (b : Bool) (k : Nat) => if b then 2 ^ k else 0
    let t := bit c.power.powerThrottle 0 + bit c.power.pinThrottle 1 + bit c.power.thermThrottle 2
    ({ c with freeCtr := c.freeCtr + n } : Chip).print "temps" (ws ++ [BitVec.ofNat 64 t]))

/-- The counter unit of a block. -/
def CounterBlock.unit : CounterBlock → CounterUnit
  | .chip => .chip
  | .ream r => .ream r
  | .quire q => .quire q
  | .sheet s => .sheet s

/-- COUNTERS: the counts of the chip, or of one block. -/
def monCounters (block : CounterBlock) (c : Chip) : Chip :=
  c.monitorRun (fun c =>
    let u := CounterBlock.unit block
    c.print "counters" ((List.range (cntNumber u)).map (fun n => c.reg (cntCount u n))))

/-- LOG: the newest n entries, oldest first. -/
def monLog (n : Nat) (c : Chip) : Chip :=
  c.monitorRun (fun c =>
    if n = 0 ∨ 1024 < n then c.unknown
    else
      let l := c.log.hbm ++ c.log.ring
      c.print "log" ((l.drop (l.length - n)).flatMap LogEntry.words))

/-- A quire without cell home or context state: none of its sheets or queues holds a task, no context holds a position or pool space
on it, and no admitted cell has its home on the ream. -/
def Chip.quireIdle (c : Chip) (q : Nat) : Bool :=
  c.quireIn q && (c.loadCells (fun i => c.cellHome i == q / 8)).isEmpty &&
    !c.contexts.any (fun x => x.2.place != .couched && x.2.gang.any (fun p => p / 64 == q)) &&
    (List.range 132).all (fun j => (c.sheetK (q * 132 + j)).task.isNone) && (c.quire q).queues.isEmpty

/-- A sheet goes to its self-test: scrubbed under R96, with its place kept. -/
def Chip.selfTest (c : Chip) (k : Nat) : Chip :=
  let sh := c.sheetK k
  if sh.role = .active ∨ sh.role = .spare then
    let c := (c.scrubSheet k).setSheetK (k + 1) (sheetReset (k + 1))
    { (c.updKey k (fun sh => { sh with role := .scrubbing })) with selfTests := k :: c.selfTests.filter (· != k) }
  else c

/-- SELFTEST: the sheets of every idle quire are tested; the reply names the quires tested and those skipped. -/
def monSelftest (c : Chip) : Chip :=
  c.monitorRun (fun c =>
    let idle := (List.range 32).filter c.quireIdle
    let c' := idle.foldl (fun (c : Chip) q => (List.range 66).foldl (fun (c : Chip) p => c.selfTest (posKey q p)) c) c
    c'.print "selftest" [BitVec.ofNat 64 (maskOf idle), BitVec.ofNat 64 (maskOf ((List.range 32).filter (fun q => !c.quireIdle q)))])

/-- The rates of R377. -/
def baudRates : List Nat := [115200, 230400, 460800, 921600, 1500000, 3000000]

/-- BAUD: the new rate holds after the reply. -/
def monBaud (rate : Nat) (c : Chip) : Chip :=
  c.monitorRun (fun c =>
    if baudRates.contains rate then (c.print "baud" [BitVec.ofNat 64 rate]).setMonitor (fun m => { m with baud := rate }) else c.unknown)

/-! ### Unlocking (R379) -/

/-- `unlock` is refused: no key has been programmed, or wrong responses hold it back. -/
def Chip.unlockRefused (c : Chip) : Bool :=
  c.ident.unlockKey.isNone || c.monitor.refusedUntil.any (fun t => decide (c.time.uptime < t))

/-- UNLOCK: a fresh challenge, drawn from the DRBG. -/
def monUnlock (c : Chip) : Chip :=
  let c := c.monitorTakes
  if c.unlockRefused then c.unknown
  else
    let (w, c) := c.free
    let x : W32 := w.setWidth 32
    (c.setMonitor (fun m => { m with challenge := some x })).print "unlock" [x.setWidth 64]

/-- The response that opens the monitor: the first four bytes of the HMAC over the challenge and ID_PART, both as their hex digits read
(log entry 52). -/
def Chip.unlockAnswer (c : Chip) (key : List Byte) (challenge : W32) : W32 :=
  let m := (bytesLE 4 challenge.toNat).reverse ++ (bytesLE 4 c.ident.partWord).reverse
  BitVec.ofNat 32 (natLE ((hmac key m).take 4).reverse)

/-- Seconds of refusal after a number of wrong responses. -/
def refusalSeconds (wrong : Nat) : Nat := if wrong < 3 then 0 else min 3600 (60 * 2 ^ (wrong - 3))

/-- UNLOCK_RESPONSE: a match with the latest challenge unlocks; each challenge is valid once. -/
def monUnlockResponse (resp : W32) (c : Chip) : Chip :=
  let c := c.monitorTakes
  match c.ident.unlockKey, c.monitor.challenge with
  | some key, some x =>
    if c.unlockRefused then c.unknown
    else if resp = c.unlockAnswer key x then
      (c.setMonitor (fun m => { m with unlocked := true, challenge := none, wrong := 0, refusedUntil := none })).print "unlock" [1]
    else
      let n := c.monitor.wrong + 1
      let until_ := if n < 3 then none else some (c.time.uptime + refusalSeconds n * 10 ^ 9)
      (c.setMonitor (fun m => { m with challenge := none, wrong := n, refusedUntil := until_ })).print "unlock" [0]
  | _, _ => c.unknown

/-- LOCK. -/
def monLock (c : Chip) : Chip := c.monitorRun (fun c => (c.setMonitor (fun m => { m with unlocked := false })).print "lock" [])

/-! ### Peek, poke and flash (R368, R380) -/

/-- The 32-bit word at an offset of BAR0, read without side effects. -/
def Chip.peekWord (c : Chip) (addr : Nat) : W64 :=
  match c.place addr with
  | .capability w => w.setWidth 64
  | .word h start width =>
    let v := match h.pairWord start with
      | some q => if q.comp then h.complement (c.applied h q q.k) else c.applied h q q.k
      | none => c.regNow h
    if width = 4 then v else if addr = start then v &&& 0xFFFFFFFF#64 else v >>> 32
  | _ => 0

/-- PEEK. -/
def monPeek (addr n : Nat) (c : Chip) : Chip :=
  c.monitorRun (fun c => c.unlockedOnly (fun c =>
    if n = 0 ∨ 64 < n ∨ addr % 4 ≠ 0 ∨ bar2Key < addr + 4 * n then c.unknown
    else c.print "peek" ((List.range n).map (fun k => c.peekWord (addr + 4 * k)))))

/-- POKE: an ordinary write with origin monitor; pokes to BAR2 are refused. -/
def monPoke (addr : Nat) (v : W32) (c : Chip) : Chip :=
  c.monitorRun (fun c => c.unlockedOnly (fun c =>
    if addr % 4 ≠ 0 ∨ bar2Key ≤ addr then c.unknown else (c.write4 .monitor addr v).print "poke" []))

/-- FLASH: an operation of the boot block at an address; it is served in recovery mode. -/
def monFlash (op : Fin 4) (addr : W32) (c : Chip) : Chip :=
  c.monitorTakes.unlockedOnly (fun c =>
    if op.val = 0 then c.unknown
    else
      let c := c.setReg R.FLASH_ADDR (addr.setWidth 64)
      (flashCmd .monitor op.val c).print "flash" [])

end Sys2Proof.Machine
end

