-- ==== Sys2Proof/Machine/Boot.lean ====
section
/-! DEFINITION. The reset inputs, the start-up sequence, the furnish image and its records (R359 to R363, R366, R367, R369, R370). -/

namespace Sys2Proof.Machine

/-! ### Reset (R359) -/

/-- The pins after a reset: inputs as they are, outputs released. -/
def Pins.afterReset (p : Pins) : Pins := { p with faultN := true, thermAlertN := true, mgAlertN := true }

/-- PWROK low: only the fuses, the flash and the levels of the inputs stay, THROTTLE_N's among them; the host's memory is not the part's, and
what has left the part has left it. -/
def Chip.resetAll (c : Chip) : Chip :=
  { Chip.reset with
    ident := c.ident
    flash := { c.flash with busy := none }
    pins := { c.pins.afterReset with thermtripN := true }
    power := { Power.reset with pinThrottle := !c.pins.throttleN }
    host := c.host
    freeCtr := c.freeCtr
    out := c.out }

/-- The primary keys of retired sheets. -/
def Chip.retiredSheets (c : Chip) : List Nat := (c.sheets.filter (fun x => x.2.role == .retired)).map (·.1)

/-- A sheet stays retired through a reset: a spare takes its place, without evidence. -/
def Chip.stayRetired (c : Chip) (k : Nat) : Chip :=
  ((c.updKey k (fun sh => { sh with role := .retired })).rehouse (keyQuire k) (keyAtPos k)).quireCount (keyQuire k)

/-- A quire that is isolated for good stays so. -/
def Chip.stayIsolated (c : Chip) (q : Nat) : Chip :=
  (c.updQuire q (fun x => { x with isolatedForGood := true })).setFld (R.QUIRE_HEALTH q) F.QUIRE_HEALTH.STATE 1

/-- RESET_N low: what R359 names survives, with the uptime (R402), the identity and the stop of THERMTRIP (R424). A part that has failed
still has (R344). -/
def Chip.resetLogic (c : Chip) : Chip :=
  let d := c.resetAll
  let d : Chip := { d with
    pins := { d.pins with thermtripN := c.pins.thermtripN }
    time := { TimeSt.reset with uptime := c.time.uptime }
    health := c.health
    log := { c.log with fetching := none }
    power := { Power.reset with
      watts := c.power.watts
      junction := c.power.junction
      pinThrottle := !c.pins.throttleN
      stopped := c.power.stopped } }
  let d := c.retiredSheets.foldl (fun (d : Chip) k => d.stayRetired k) d
  let d := ((List.range 32).filter (fun q => (c.quire q).isolatedForGood)).foldl (fun (d : Chip) q => d.stayIsolated q) d
  if d.failed then ({ d with pins := { d.pins with faultN := false } } : Chip).irqLevel 2 true else d

/-- PWROK_FALL (R359). -/
def pwrokFall (c : Chip) : Chip :=
  let d := c.resetAll
  { d with pins := { d.pins with pwrok := false } }

/-- PWROK_RISE (R400, R402, R418): the CARD_ID pins are sampled, the uptime starts, and every sheet that fails its self-test is retired
(R339). -/
def pwrokRise (cardId : BitVec 4) (failed : List SheetAt) (c : Chip) : Chip :=
  if c.pins.pwrok then c
  else
    let d := c.resetAll
    let d : Chip := { d with
      pins := { d.pins with pwrok := true, cardIdIn := cardId }
      ident := { d.ident with cardId := cardId } }
    failed.foldl (fun (d : Chip) s =>
      let k := keyPrimary (sheetKey s)
      if (d.sheetK k).role = .retired then d else d.retire k) d

/-- RESET_N_ASSERT (R359). -/
def resetNAssert (c : Chip) : Chip :=
  let d := if c.pins.pwrok then c.resetLogic else c
  { d with pins := { d.pins with resetN := false } }

/-- RESET_N_RELEASE (R361): with PWROK high the boot ROM starts. -/
def resetNRelease (c : Chip) : Chip :=
  if c.pins.resetN then c else { c with pins := { c.pins with resetN := true }, time := { c.time with started := c.time.uptime } }

/-! ### The host port (R360) -/

/-- A ring's memory lies in a host window. -/
def Chip.ringInHost (c : Chip) (r : Ring) : Bool := (c.winAt r.slot r.base).any (fun w => w.type == 2)

/-- The part deletes a ring under R297: a submission queue stays busy until its commands have completed. -/
def Chip.dropRing (c : Chip) (r : Ring) : Chip :=
  let c := c.logTable 0xF0 8 (r.slot * 4096 + r.kind * 512 + r.index * 8) r.stage0 r.stage1 0 0
  if r.kind = 0 ∧ c.sqBusy r.slot r.index then
    (c.updRing r.slot 0 r.index (fun x => { x with deleting := true })).mark (R.RING_STAT r.slice) F.RING_STAT.BUSY
  else { c with rings := c.rings.filter (fun x => !(x.slot == r.slot && x.kind == r.kind && x.index == r.index)) }

/-- The host port's own state returns to reset: the MSI-X table, its pending bits, and what its requesters had latched. -/
def Chip.resetHostPort (c : Chip) : Chip :=
  { c with
    regs := c.regs.filter (fun x => !(decide (0xF0000 ≤ x.1) && decide (x.1 < 0x100000)))
    reqs := c.reqs.filter (fun q => q.req == .firmware || q.req == .monitor) }

/-- PERST_N_ASSERT (R359, R360): the host port resets, the rings in host windows are deleted, and the assertion is logged. -/
def perstNAssert (c : Chip) : Chip :=
  if ¬ c.pins.perstN then c
  else
    let c := (c.rings.filter (fun r => c.ringInHost r && !r.deleting)).foldl (fun (c : Chip) r => c.dropRing r) c.resetHostPort
    { c.logOp 0xF0 12 0 0 0 with pins := { c.pins with perstN := false } }

/-- PERST_N_RELEASE (R360). -/
def perstNRelease (c : Chip) : Chip := { c with pins := { c.pins with perstN := true } }

/-! ### Stages (R361) -/

/-- BOOT_STAT.STAGE. -/
def Chip.stage (c : Chip) : Nat := c.fld R.BOOT_STAT F.BOOT_STAT.STAGE

/-- STAGE advances, which is interrupt 11 (R403). -/
def Chip.advance (c : Chip) (n : Nat) : Chip := (c.setFld R.BOOT_STAT F.BOOT_STAT.STAGE n).irq 11

/-! ### CHIP_INC (R363) -/

/-- The highest value of the slots whose two words match; 0 in erased sectors. -/
def highestInc (l : List (W32 × W32)) : Nat := l.foldl (fun n x => if x.2 = ~~~ x.1 then max n x.1.toNat else n) 0

/-- Slots of a sector. -/
def incSlots : Nat := 8192

/-- A sector with one more slot; a full one is erased first. -/
def putInc (l : List (W32 × W32)) (v : W32) : List (W32 × W32) := (if l.length < incSlots then l else []) ++ [(v, ~~~ v)]

/-- The sectors of a flash, and one changed. -/
def Flash.sector (f : Flash) (k : Nat) : List (W32 × W32) := if k = 0 then f.sector0 else f.sector1

/-- Put a sector. -/
def Flash.setSector (f : Flash) (k : Nat) (l : List (W32 × W32)) : Flash := if k = 0 then { f with sector0 := l } else { f with sector1 := l }

/-- The sector that takes the next value: the one that does not hold the highest, sector 1 where both do, and sector 0 where neither does
(log entry 53). -/
def Flash.incSector (f : Flash) : Nat :=
  let a := highestInc f.sector0
  let b := highestInc f.sector1
  if b < a then 1 else if a < b then 0 else if a = 0 then 0 else 1

/-- CHIP_INC advances under R363: the new value and the flash, or none where both sectors fail. A sector that fails keeps its slots (log
entry 53). -/
def Flash.nextInc (f : Flash) (how : IncarnationOutcome) : Option (W32 × Flash) :=
  let v := BitVec.ofNat 32 (max (highestInc f.sector0) (highestInc f.sector1) + 1)
  let k := f.incSector
  match how with
  | .ok => some (v, f.setSector k (putInc (f.sector k) v))
  | .chosenSectorFails =>
    let l := f.sector (1 - k)
    if l.length < incSlots then some (v, f.setSector (1 - k) (putInc l v)) else none
  | .bothFail => none

/-! ### Choosing a copy (R366, R367) -/

/-- A copy is valid. -/
def FurnishCopy.valid (x : FurnishCopy) (floor : Nat) : Bool :=
  x.magicOk && x.formatOk && x.partsOk && decide (floor ≤ x.version) && x.codeKeyOk && x.codeSigOk && x.recKeyOk && x.recSigOk

/-- The copy that loads: the valid copy with the higher version, A on a tie; the other valid copy where a read error stops the first. -/
def furnishChoice (floor : Nat) (a b : FurnishCopy) (readError : Bool) : Option Nat :=
  match FurnishCopy.valid a floor, FurnishCopy.valid b floor with
  | true, true =>
    let first := if a.version < b.version then 1 else 0
    some (if readError then 1 - first else first)
  | true, false => if readError then none else some 0
  | false, true => if readError then none else some 1
  | false, false => none

/-- Recovery mode (R367): the marker holds version 0. -/
def Chip.enterRecovery (c : Chip) : Chip :=
  let inc := BitVec.ofNat 32 (c.fld R.FAB_STAT F.FAB_STAT.CHIP_INC)
  let c := c.logOp 0xF0 10 0 inc 0
  ({ c with pins := { c.pins with faultN := false } } : Chip).setFld R.BOOT_STAT F.BOOT_STAT.STAGE 7

/-- Stage 1: firmware runs from a copy (R361, R367, R416), and slot 0 has a fresh key (R293). -/
def Chip.enterStage1 (c : Chip) (copy : Nat) (x other : FurnishCopy) : Chip :=
  let inc := BitVec.ofNat 32 (c.fld R.FAB_STAT F.FAB_STAT.CHIP_INC)
  let c := c.logOp 0xF0 10 0 inc (BitVec.ofNat 32 x.version)
  let c := c.setFld R.BOOT_STAT F.BOOT_STAT.VERSION x.version
  let c := (c.setFld R.BOOT_STAT F.BOOT_STAT.COPY copy).setFlag R.BOOT_STAT F.BOOT_STAT.OTHER_VALID (FurnishCopy.valid other c.ident.rollbackFloor)
  let c : Chip := { c with
    furnishMin := x.minVersion
    pins := { c.pins with mgAlertN := c.pins.mgAlertN && decide (healthState c.health.score < 2) } }
  (c.generateKey 0).advance 1

/-- FURNISH_VERIFY (R363, R366, R367): at stage 0 the boot ROM advances CHIP_INC, and chooses a copy or enters recovery mode. Where CHIP_INC
cannot advance, it keeps its last value. -/
def furnishVerify (a b : FurnishCopy) (readError : Bool) (inc : IncarnationOutcome) (c : Chip) : Chip :=
  if c.stage ≠ 0 then c
  else
    match c.flash.nextInc inc with
    | none =>
      let last := max (highestInc c.flash.sector0) (highestInc c.flash.sector1)
      (c.setFld R.FAB_STAT F.FAB_STAT.CHIP_INC last).enterRecovery
    | some (v, f) =>
      let c := ({ c with flash := f } : Chip).setFld R.FAB_STAT F.FAB_STAT.CHIP_INC v.toNat
      match furnishChoice c.ident.rollbackFloor a b readError with
      | none => c.enterRecovery
      | some 0 => c.enterStage1 0 a b
      | some _ => c.enterStage1 1 b a

/-! ### Configuration records (R369, R370) -/

/-- An entry with another origin. -/
def LogEntry.from (e : LogEntry) (origin : Nat) : LogEntry :=
  let e := { e with origin := origin }
  { e with crc := crc16 e.covered }

/-- The entries made since a sequence number carry origin furnish. -/
def Chip.asFurnish (c : Chip) (since : Nat) : Chip :=
  let mark := fun (e : LogEntry) => if since ≤ e.seq then e.from 0x00 else e
  { c with log := { c.log with ring := c.log.ring.map mark, hbm := c.log.hbm.map mark } }

/-- A REG record: the value words written with their complements to the pair at an offset; none where the target refuses. A register
that is no pair takes its one word as a write of firmware, and one that the part lacks ignores it (log entry 17). -/
def Chip.regRecord (c : Chip) (offset : Nat) (ws : List W64) : Option Chip :=
  match regHit offset with
  | none => none
  | some h =>
    if bar2Key ≤ offset then none
    else if h.absent c.ident then some c
    else match h.pairWord offset, ws with
    | none, [v] =>
      if offset ≠ h.base ∨ (h.desc.kind.wordBytes = 4 ∧ 2 ^ 32 ≤ v.toNat) then none else some (c.writeReg .firmware h v)
    | some p, [v] =>
      if p.two ∨ p.comp ∨ offset ≠ p.base ∨ (h.desc.kind.wordBytes = 4 ∧ 2 ^ 32 ≤ v.toNat) then none
      else
        let d := (applyPair 0x00 h v 0 c).mendPair h p v
        let m := BitVec.ofNat 64 h.desc.rw
        let held := h.desc.id == .CELL_CTL || d.applied h p 0 &&& m == v &&& m
        if held then some d else none
    | some p, [v, w] =>
      if ¬ p.two ∨ offset ≠ p.base then none
      else
        let d := (applyPair 0x00 h v w c).mendPair h p v
        let m0 := BitVec.ofNat 64 h.desc.rw
        let m1 := BitVec.ofNat 64 (((regHit (offset + 8)).map (fun x => x.desc.rw)).getD 0)
        if d.applied h p 0 &&& m0 == v &&& m0 && d.applied h p 1 &&& m1 == w &&& m1 then some d else none
    | _, _ => none

/-- Put four staging words: two values and their complements. -/
def Chip.stageWords (c : Chip) (at_ : Nat → RegRef) (v0 v1 : W64) : Chip :=
  (((c.setReg (at_ 0) v0).setReg (at_ 1) v1).setReg (at_ 2) (~~~ v0)).setReg (at_ 3) (~~~ v1)

/-- A TABLE record: the staging words and the write that the table's command makes, with the field that reports its error. Rings need a
slice and are refused (log entry 54). -/
def Chip.tableRecord (c : Chip) (target v0 v1 : W64) : Option Chip :=
  let entry := fget target ⟨3, 18⟩
  let shp := fun (p : Nat) =>
    let d := shpWrite .firmware (Fin.ofNat 10 p) (Fin.ofNat 4 (entry / 1024)) (Fin.ofNat 1024 entry) (c.stageWords (shpStage p) v0 v1)
    if d.portExists p ∧ d.fld (shpStat p) F.SHP_STAT.ERR = 0 then some d else none
  let tab := fun (f : Requester → Fin 65536 → Chip → Chip) =>
    let d := f .firmware (Fin.ofNat 65536 entry) (c.stageWords R.TAB_STAGE v0 v1)
    if entry < 65536 ∧ d.fld R.TAB_STAT F.TAB_STAT.ERR = 0 then some d else none
  match fget target ⟨21, 4⟩ with
  | 0 =>
    let d := evtWriteEntry .firmware (Fin.ofNat 4096 entry) (c.stageWords R.EVT_STAGE v0 v1)
    if entry < 4096 ∧ d.fld R.EVT_STAT F.EVT_STAT.ERR = 0 then some d else none
  | 1 => shp (entry / 4096)
  | 2 => shp (4 + entry / 4096)
  | 3 => tab routeWrite
  | 4 => tab windowWrite
  | 5 => tab rxqWrite
  | 6 => tab jobWrite
  | 7 =>
    let d := mirWrite .firmware entry (c.stageWords R.MIR_STAGE v0 v1)
    if d.fld R.MIR_STAT F.MIR_STAT.ERR = 0 then some d else none
  | _ => none

/-- A MAP record: one MAP operation. -/
def Chip.mapRecord (c : Chip) (v0 v1 : W64) : Option Chip :=
  let d := mapCmd .firmware 1 (c.stageWords R.MAP_STAGE v0 v1)
  if d.fld R.MAP_STAT F.MAP_STAT.ERR = 0 then some d else none

/-- A CELL record waits for radio time; one whose slot, cell or configuration the target refuses is rejected. -/
def Chip.cellRecord (c : Chip) (index : Nat) (r : FurnishRecord) (cell slot : Nat) (x : CellConfig) : Option Chip :=
  if c.slotState slot = 1 ∧ c.slotKind slot = 1 ∧ cell < 1024 ∧ inRange cell (c.cellRange slot) ∧ (c.configWeight slot x).isSome then
    some { c with furnishCells := c.furnishCells ++ [(index, r)] }
  else none

/-- Apply one record: the part after it, or the cause of its rejection. -/
def Chip.applyRecord (c : Chip) (index : Nat) (r : FurnishRecord) : Except Nat Chip :=
  let refused := fun (o : Option Chip) => match o with
    | some d => .ok d
    | none => .error 3
  if ¬ r.complementOk then .error 1
  else match r.body with
    | .unknown t => if t.getLsbD 15 then .ok c else .error 2
    | .reg off ws => refused (c.regRecord off ws)
    | .table t v0 v1 => refused (c.tableRecord t v0 v1)
    | .map v0 v1 => refused (c.mapRecord v0 v1)
    | .cell cell slot x => refused (c.cellRecord index r cell slot x)

/-- A rejected record leaves its target as it was; it is counted and logged, and the first one is named. -/
def Chip.rejectRecord (c : Chip) (index cause : Nat) : Chip :=
  let f := R.FURNISH_STAT
  let c := if cause = 1 then c.integrity atChip else c
  let c := if c.fld f F.FURNISH_STAT.REJECTED = 0 then
      (c.setFld f F.FURNISH_STAT.FIRST_REJECT index).setFld f F.FURNISH_STAT.CAUSE cause
    else c
  (c.bump f F.FURNISH_STAT.REJECTED 1).logOp 0x00 11 index 0 0

/-- Firmware takes the next record. -/
def Chip.takeRecord (c : Chip) (index : Nat) (r : FurnishRecord) : Chip :=
  match c.applyRecord index r with
  | .ok d => (d.asFurnish c.log.next).bump R.FURNISH_STAT F.FURNISH_STAT.APPLIED 1
  | .error cause => c.rejectRecord index cause

/-- RECORDS_APPLY (R361, R369, R370): at stage 1 firmware applies the records in image order and reaches stage 2. -/
def recordsApply (recs : List FurnishRecord) (c : Chip) : Chip :=
  if c.stage ≠ 1 then c
  else (recs.zipIdx.foldl (fun (c : Chip) (x : FurnishRecord × Nat) => c.takeRecord x.2 x.1) c).advance 2

/-! ### Stages 3 to 5 (R256, R361, R362) -/

/-- A CXL device found at start-up, with its capacity in GiB. -/
def Chip.findCxl (c : Chip) (d gib : Nat) : Chip :=
  let r := R.CXL_STAT d
  ((c.setFld r F.CXL_STAT.CAP_GIB gib).mark r F.CXL_STAT.LINK_UP).mark r F.CXL_STAT.PRESENT

/-- HBM_TRAINED (R256, R361): memory is trained and the CXL devices are enumerated, of which FDN-12H-1D has none. -/
def hbmTrained (cxl : List Nat) (c : Chip) : Chip :=
  if c.stage ≠ 2 then c
  else
    let found := if c.ident.part = .fdn12h1d then [] else cxl.take 2
    (found.zipIdx.foldl (fun (c : Chip) (x : Nat × Nat) => c.findCxl x.2 x.1) c).advance 3

/-- LINKS_UP (R361). -/
def linksUp (c : Chip) : Chip := if c.stage ≠ 3 then c else c.advance 4

/-- A furnish cell is admitted, unless host L2 has brought it up; a refusal is logged (R202, R362). -/
def Chip.admitFurnish (c : Chip) (index cell slot : Nat) (x : CellConfig) : Chip :=
  if c.cellUp cell then c
  else match c.configured slot cell x with
    | some d => (d.asFurnish c.log.next).sendStandby cell
    | none => c.logOp 0x00 11 index 0 0

/-- FURNISH_CELL_ADMIT (R362, R365): at stage 4, with radio time valid, firmware admits the furnish cells in order, stage 5 is reached, and
the copy's rollback floor goes to OTP. -/
def furnishCellAdmit (c : Chip) : Chip :=
  if c.stage ≠ 4 ∨ ¬ c.rtValid then c
  else
    let c := c.furnishCells.foldl (fun (c : Chip) (r : Nat × FurnishRecord) => match r.2.body with
      | .cell cell slot x => c.admitFurnish r.1 cell slot x
      | _ => c) c
    let c : Chip := { c with furnishCells := [], ident := { c.ident with rollbackFloor := max c.ident.rollbackFloor c.furnishMin } }
    c.advance 5

/-- 120 s in control-clock cycles. -/
def slowStart : Nat := 120 * 10 ^ 9

/-- START_SLOW (R362): radio time is not valid 120 s after the start. -/
def startSlow (c : Chip) : Chip :=
  if 1 ≤ c.stage ∧ c.stage ≤ 4 ∧ ¬ c.rtValid ∧ c.time.started + slowStart ≤ c.time.uptime then c.mark R.BOOT_STAT F.BOOT_STAT.STICKY_SLOW
  else c

end Sys2Proof.Machine
end

