-- ==== Sys2Proof/Machine/Idle.lean ====
section
/-! DEFINITION. When the part takes a command, and what it does on an empty queue: one cycle of its 1.0 GHz control clock. -/

namespace Sys2Proof.Machine

/-! ### When a command reaches the part (R359, R361, R367, R424) -/

/-- The part runs: it is powered and out of reset, and THERMTRIP has not stopped its clocks. -/
def Chip.running (c : Chip) : Bool := c.pins.pwrok && c.pins.resetN && !c.power.stopped

/-- Firmware has started the part: not at stage 0, and not in recovery mode. -/
def Chip.live (c : Chip) : Bool := c.running && c.stage != 0 && c.stage != 7

/-- The requester can reach the part: the host and its slices only while the host port is up (R359). -/
def Chip.reaches (c : Chip) (r : Requester) : Bool :=
  match r with
  | .host => c.pins.perstN
  | .slice _ => c.pins.perstN
  | _ => true

/-- A command that comes in on a port that is up. -/
def Chip.onPort (c : Chip) (r : Requester) (f : Chip → Chip) : Chip := if c.reaches r then f c else c

/-- An access by a row of its own: it comes in on a port that is up, and supersedes what its requester held or latched (R397). -/
def Chip.access (c : Chip) (r : Requester) (f : Chip → Chip) : Chip := c.onPort r (fun c => f (c.supersede r))

/-- The context of the task that a counter unit's sheet runs, 0xFFFF without one (R391). -/
def Chip.unitCtx (c : Chip) (u : CounterUnit) : Nat :=
  match u with
  | .sheet s => ((c.sheet s).task.map (fun t => t.ctx)).getD 0xFFFF
  | _ => 0xFFFF

/-! ### One cycle of the control clock (R24, R402) -/

/-- What counts microseconds: held fetches (R123), withheld VC1 credits (R324), and radio above its floor (R220). -/
def Chip.microsecond (c : Chip) : Chip :=
  let held := ((c.rings.filter (fun r => r.kind == 1 && !r.held.isEmpty)).map (fun r => r.slice)).eraseDups
  let c := held.foldl (fun (c : Chip) i => c.bump (R.CQ_FULL_STALL i) F.CQ_FULL_STALL.COUNT 1) c
  let c := if c.ingress.any (fun x => decide (32 ≤ x.2.length)) then c.bump R.FAB_CNT2 F.FAB_CNT2.HOTLINE_STALL_US 1 else c
  c.reamList.foldl (fun (c : Chip) r =>
    if c.floorSheets r < c.radioSheets r then c.bump (R.GUST_CNT r) F.GUST_CNT.GUST_US 1 else c) c

/-- One cycle: the uptime counts, chip time advances by one nanosecond with the indications of the slots that begin, and the chip's
counters sample. -/
def Chip.cycle (c : Chip) : Chip :=
  let before := c.tick
  let c : Chip := { c with time := { c.time with uptime := c.time.uptime + 1, chip := c.time.chip + 65536 } }
  if ¬ c.live then c
  else
    let c := (c.slotsBegun before).perf .chip 0x01 1
    let c := if c.throttled then c.perf .chip 0x0C 1 else c
    let p := c.power
    let c := (c.perfLevel .chip 0x0D p.sampledJunction p.junction).perfLevel .chip 0x0E p.sampledWatts p.watts
    let c : Chip := { c with power := { p with sampledJunction := p.junction, sampledWatts := p.watts } }
    if c.time.uptime % 1000 = 0 then c.microsecond else c

/-- The part on an empty queue: nothing while it is unpowered or stopped; in reset only the uptime counts (R402). -/
def Chip.idle (c : Chip) : Chip :=
  if ¬ c.pins.pwrok ∨ c.power.stopped then c
  else if ¬ c.pins.resetN then { c with time := { c.time with uptime := c.time.uptime + 1 } }
  else c.cycle

end Sys2Proof.Machine
end

