-- ==== Sys2Proof/WellFormed.lean ====
section
/-! DEFINITION. Which terms of the syntax are commands: operands whose Lean type is wider than what carries them on the part stay in
its range (R384, R395, R365, R369, R378, R391, R397). -/

namespace Sys2Proof

/-- The 256 MiB of BAR0, then the 4 MiB of BAR2 (R395). -/
def addressSpan : Nat := 0x10400000

/-- The version words of a furnish header are 32 bits wide (R365). -/
def copyOk (x : FurnishCopy) : Bool := decide (x.version < 2 ^ 32) && decide (x.minVersion < 2 ^ 32)

/-- A record header counts 1 to 512 value words, a CELL record names one of 1,024 cells and 64 slots (R369). -/
def recordOk (x : FurnishRecord) : Bool :=
  match x.body with
  | .reg off ws => decide (off < 2 ^ 32) && decide (ws.length < 512)
  | .cell cell slot _ => decide (cell < 1024) && decide (slot < 64)
  | _ => true

/-- Counters of a unit (R383). -/
def counters : CounterUnit → Nat
  | .sheet _ => 8
  | .quire _ => 16
  | .ream _ => 32
  | .chip => 64

/-- A well-formed command. -/
def Instr.wf : Instr → Bool
  | .registerWrite _ addr _ _ => decide (addr < addressSpan)
  | .valueWordWrite _ addr _ => decide (addr < addressSpan)
  | .complementWordWrite _ addr _ => decide (addr < addressSpan)
  | .lowHalfRead _ addr => decide (addr < addressSpan)
  | .highHalfRead _ addr => decide (addr < addressSpan)
  | .lowHalfWrite _ addr _ => decide (addr < addressSpan)
  | .highHalfWrite _ addr _ => decide (addr < addressSpan)
  | .unsupportedRequest _ addr _ => decide (addr < addressSpan)
  | .unassignedAccess _ addr _ => decide (addr < addressSpan)
  | .changeLogSpill => true
  | .lossOfReam _ => true
  | .rtOffsetWrite _ _ _ => true
  | .chipTimeSlew _ => true
  | .ctSecRead _ => true
  | .delayReqSend _ => true
  | .domainGood _ => true
  | .domainLost _ _ => true
  | .acquireLock => true
  | .wtrExpiry => true
  | .ppsInEdge => true
  | .ppsInMissing => true
  | .holdoverLimitExpiry => true
  | .frequencySourceChange _ _ => true
  | .ppsOutPulse => true
  | .frameTransmit _ _ _ => true
  | .tsqHiRead _ _ => true
  | .tsqLoRead _ _ => true
  | .evtWriteEntry _ _ => true
  | .evtReadEntry _ _ => true
  | .evtDisarm _ _ => true
  | .eventFire => true
  | .windowFinalise _ _ => true
  | .splitReductionCombine _ => true
  | .scalarInstruction _ _ => true
  | .csrWrite _ _ _ => true
  | .fxVadd _ _ => true
  | .fxVsub _ _ => true
  | .fxVmul _ _ => true
  | .fxVfma _ _ => true
  | .fxVmin _ _ => true
  | .fxVmax _ _ => true
  | .fxVcmplt _ _ => true
  | .fxVcmpeq _ _ => true
  | .fxVsel _ _ => true
  | .fxVand _ _ => true
  | .fxVor _ _ => true
  | .fxVxor _ _ => true
  | .fxVshl _ _ => true
  | .fxVshra _ _ => true
  | .fxVcvt _ _ => true
  | .fxVrsum _ _ => true
  | .fxVrmax _ _ => true
  | .fxVperm _ _ => true
  | .fxVfn _ _ => true
  | .fxVcmul _ _ => true
  | .fxVcmulc _ _ => true
  | .fxVcmag _ _ => true
  | .fxVscale _ _ => true
  | .fxVmvxs _ _ => true
  | .fxVld _ _ _ => true
  | .fxVst _ _ => true
  | .fxVld2 _ _ => true
  | .fxVldx _ _ => true
  | .fxVstx _ _ => true
  | .fxVgath _ _ => true
  | .fxVscat _ _ => true
  | .feltForm _ _ _ => true
  | .fxTapld _ _ => true
  | .fxTapmv _ _ => true
  | .fxDemap _ _ => true
  | .fxCbxupk _ _ => true
  | .fxCbxpk _ _ => true
  | .fxMma _ _ _ => true
  | .fxAccrd _ _ => true
  | .fxAccld _ _ => true
  | .fxAccz _ _ => true
  | .fxAccmv _ _ => true
  | .matrixDrainComplete _ _ => true
  | .joinedStepFire _ _ => true
  | .fxDma _ _ => true
  | .fxPref _ _ => true
  | .copyIn _ _ => true
  | .gatherIn _ _ => true
  | .poolIn _ _ => true
  | .prefPool _ _ => true
  | .dmaFillComplete _ _ _ _ => true
  | .fxTfence _ _ => true
  | .fxFence _ _ => true
  | .fxWaitrdy _ _ => true
  | .fxMkrdy _ _ => true
  | .fxClrrdy _ _ => true
  | .fxWaitev _ _ => true
  | .waitevComplete _ => true
  | .fxStrec _ _ => true
  | .fxStred _ _ => true
  | .fxCommit _ _ => true
  | .commitBegin _ => true
  | .commitDrainComplete _ => true
  | .fxRtwait _ _ => true
  | .rtwaitComplete _ => true
  | .fxRand _ _ => true
  | .fxCntrd _ _ => true
  | .fxStmsg _ _ => true
  | .killRequest _ => true
  | .sheetReleaseComplete _ => true
  | .feltUncorrectableError _ _ => true
  | .patrolScrub _ _ => true
  | .scrubNow _ _ => true
  | .sheetRetire _ => true
  | .sheetReturn _ => true
  | .sqTailWrite _ _ _ => true
  | .commandFetch _ _ => true
  | .fetchAbort _ _ => true
  | .cqHeadWrite _ _ _ => true
  | .taskPlace _ => true
  | .taskSteal _ => true
  | .loadBalanceCheck _ => true
  | .deadlineExpiry _ => true
  | .commandComplete _ => true
  | .programLoad _ => true
  | .programUnload _ => true
  | .contextCreate _ => true
  | .contextDestroy _ => true
  | .contextExport _ => true
  | .contextImport _ => true
  | .jobTeardown _ => true
  | .blockedSwapCheck _ => true
  | .couchOutComplete _ => true
  | .couchInComplete _ => true
  | .portCfgWrite _ _ _ _ => true
  | .linkUp _ _ => true
  | .linkDown _ _ => true
  | .frameReceive _ _ _ => true
  | .gainStepUpdate _ => true
  | .ethTxTailWrite _ _ _ => true
  | .ethRxTailWrite _ _ _ => true
  | .bucketRefill => true
  | .shpWrite _ _ _ _ => true
  | .shpReadBack _ _ _ _ => true
  | .class0DropAfter _ _ => true
  | .strmCfgWrite _ _ _ _ => true
  | .fapiTailWrite _ _ _ => true
  | .fapiHeadWrite _ _ => true
  | .paramRequest _ _ => true
  | .configRequest _ _ _ => true
  | .startRequest _ _ => true
  | .stopRequest _ _ => true
  | .dlTtiRequest _ _ _ sl _ => decide (sl < 65536)
  | .ulTtiRequest _ _ _ sl _ => decide (sl < 65536)
  | .ulDciRequest _ _ _ sl _ => decide (sl < 65536)
  | .txDataRequest _ _ _ sl _ => decide (sl < 65536)
  | .codingJobStart _ _ => true
  | .codingJobComplete _ _ => true
  | .stripEngineError _ _ => true
  | .floorCfgWrite _ _ _ _ => true
  | .class0TaskPlace _ => true
  | .capacityRecompute => true
  | .coolingShed => true
  | .standbyRequest _ _ _ _ => true
  | .standbyRetry _ => true
  | .mirrorRecordSend _ => true
  | .mirrorRecordReceive _ _ _ sl _ => decide (sl < 65536)
  | .heartbeatSend => true
  | .heartbeatReceive _ _ _ => true
  | .homeLossDetect _ _ => true
  | .handover _ => true
  | .handoverMessage _ _ _ _ => true
  | .cellRelease _ => true
  | .linkHoExpiry _ => true
  | .takeoverBoundary _ => true
  | .missHiRead _ => true
  | .missLoRead _ => true
  | .rope _ _ => true
  | .walkBegin _ _ => true
  | .walkStep _ _ => true
  | .walkEnd _ _ => true
  | .pageFetch _ _ => true
  | .sample _ _ => true
  | .verify _ _ => true
  | .seqAppend _ => true
  | .prefixPublish _ => true
  | .prefixAttach _ => true
  | .seqRelease _ => true
  | .weightRegister _ => true
  | .digestComplete _ _ => true
  | .map _ => true
  | .unmap _ => true
  | .protect _ => true
  | .mapSeal _ => true
  | .mapUnseal _ => true
  | .pin _ => true
  | .unpin _ => true
  | .mapRead _ => true
  | .mappingChangeComplete => true
  | .mappingChangeTimeout => true
  | .tierSeal _ => true
  | .tierUnseal _ => true
  | .tierHint _ => true
  | .migrationInterval => true
  | .pageMigrationComplete _ va _ => decide (va < 2 ^ 57)
  | .hostPoolWrite _ _ _ _ => true
  | .hostPoolRelease _ => true
  | .tierCfgWrite _ _ _ => true
  | .lendWinEnable _ _ => true
  | .borrowConnect _ _ => true
  | .borrowRelease _ _ => true
  | .lendRequest _ _ _ _ => true
  | .lendRecall _ _ => true
  | .recallReceive _ deadline => decide (deadline < 2 ^ 64)
  | .evacuationDone _ => true
  | .doneReceive _ => true
  | .recallDeadline _ _ => true
  | .requestAgeForce _ => true
  | .slotEnable _ _ => true
  | .slotRelease _ _ => true
  | .slotDrainComplete _ => true
  | .deckleWrite _ _ _ _ _ _ _ => true
  | .keyLoad _ _ => true
  | .keyGenerate _ _ => true
  | .sliceWrite _ _ _ _ => true
  | .ringCreate _ => true
  | .ringDelete _ => true
  | .ringReadBack _ => true
  | .sqDeleteComplete _ _ => true
  | .dirtySwap _ _ => true
  | .dirtySwapComplete _ => true
  | .mbxOutWrite _ _ _ => true
  | .mbxInRead _ _ => true
  | .firmwareMbxTake _ _ => true
  | .ping _ _ => true
  | .useQuery _ _ => true
  | .firmwareMbxStore _ _ => true
  | .shmbxWrite _ _ _ => true
  | .shmbxRead _ _ => true
  | .lockRead _ _ => true
  | .lockRelease _ _ _ => true
  | .lockForce _ _ => true
  | .flitReceive _ _ => true
  | .nakReceive _ _ => true
  | .linkRetrainComplete _ peerChip peerPort _ => decide (peerChip < 65536) && decide (peerPort < 16)
  | .routeWrite _ _ => true
  | .windowWrite _ _ => true
  | .rxqWrite _ _ => true
  | .jobWrite _ _ => true
  | .tabReadBack _ _ _ => true
  | .remoteRead _ _ => true
  | .remoteGather _ _ => true
  | .rxqPeek _ _ => true
  | .fabricRequestReceive _ => true
  | .readResponseReceive _ _ _ => true
  | .fabricRecordSend _ _ => true
  | .fabricStore _ => true
  | .fabricAtomic _ => true
  | .messageReservation _ => true
  | .messagePayload _ _ _ => true
  | .fabricFence _ _ => true
  | .fabricPop _ _ => true
  | .recordAckReceive _ _ _ => true
  | .notReadyReceive _ _ => true
  | .reservationRetry _ _ => true
  | .deadTargetTimeout _ => true
  | .storedComplementMismatch _ => true
  | .complementRewrite _ => true
  | .sheetSelfTestComplete _ _ => true
  | .quireIsolate _ => true
  | .quireTest _ => true
  | .quireTestComplete _ _ => true
  | .hardEvidence _ => true
  | .quireSleep _ => true
  | .quireWake _ => true
  | .healthWindowEnd => true
  | .errHiRead _ => true
  | .errLoRead _ => true
  | .mirWrite _ index => decide (index < 64)
  | .mirReadBack _ index => decide (index < 64)
  | .mirrorCopyComplete _ _ => true
  | .recoveryBegin => true
  | .pull => true
  | .pullSealed => true
  | .loadCheckpoint => true
  | .recoveryEnable => true
  | .recoveryEnd => true
  | .recoveryStepComplete _ => true
  | .recoveryAbort _ => true
  | .pwrokRise _ _ => true
  | .pwrokFall => true
  | .resetNAssert => true
  | .resetNRelease => true
  | .perstNAssert => true
  | .furnishVerify a b _ _ => copyOk a && copyOk b
  | .recordsApply recs => decide (recs.length ≤ 65536) && recs.all recordOk
  | .hbmTrained cxl => decide (cxl.length ≤ 2) && decide (cxl.sum ≤ 4096)
  | .linksUp => true
  | .furnishCellAdmit => true
  | .startSlow => true
  | .flashErase _ => true
  | .flashProgram _ => true
  | .flashRead _ => true
  | .flashOpComplete _ => true
  | .logFetch _ _ => true
  | .monId => true
  | .monCaps => true
  | .monLinks => true
  | .monCells => true
  | .monTenants => true
  | .monTemps => true
  | .monCounters _ => true
  | .monLog n => decide (n < 2 ^ 32)
  | .monSelftest => true
  | .monBaud rate => decide (rate < 2 ^ 32)
  | .monUnlock => true
  | .monUnlockResponse _ => true
  | .monLock => true
  | .monitorIdleLock => true
  | .monPeek addr n => decide (addr < 2 ^ 32) && decide (n < 2 ^ 32)
  | .monPoke addr _ => decide (addr < 2 ^ 32)
  | .monFlash _ _ => true
  | .counterCfgWrite _ unit n _ => decide (n < counters unit)
  | .counterValueWrite _ unit n _ => decide (n < counters unit)
  | .counterOverflow unit n inc _ => decide (n < counters unit) && decide (inc < 65536)
  | .cntFreeze _ _ => true
  | .irqMaskWrite _ _ => true
  | .gpioOutWrite _ _ => true
  | .throttleNAssert => true
  | .throttleHoldExpiry => true
  | .powerMeasure watts => decide (watts ≤ 4095)
  | .junctionAlert celsius => decide (celsius ≤ 150)
  | .coolingFault => true
  | .thermtrip => true
  | .avsNoAck _ => true
  | .smbusBlockRead => true
  | .smbusAlertResponse => true
  | .fabricLinkDown _ => true
  | .perstNRelease => true
  | .throttleNRelease => true
  | .radioPoolReloadComplete _ => true
  | .memoryPatrolPass _ _ _ => true
  | .engineResultBlockWrite _ _ => true
  | .logFetchComplete => true
  | .cellBoundaryStop _ => true
  | .borrowWinInUse _ => true
  | .stripEngineWatchdog _ _ => true

end Sys2Proof
end

