-- ==== Sys2Proof/Machine/Lift.lean ====
section
/-! DEFINITION. Commands as steps of the state: an effect on the part, where it reaches the part, with the queue as it is. -/

namespace Sys2Proof.Machine

/-- Put the part. -/
def State.withChip (s : State) (c : Chip) : State := { s with chip := c }

/-- The step of an effect that acts where a condition on the part holds, and otherwise changes nothing. -/
def State.onlyIf (s : State) (ok : Bool) (f : Chip → Chip) : Host.Outcome State Fault Refusal :=
  .next (s.withChip (if ok then f s.chip else s.chip))

/-- The step of an effect that always acts: a pin moves. -/
def State.onAny (s : State) (f : Chip → Chip) : Host.Outcome State Fault Refusal := .next (s.withChip (f s.chip))

/-- The step of an effect that needs the part to run. -/
def State.onRunning (s : State) (f : Chip → Chip) : Host.Outcome State Fault Refusal := s.onlyIf s.chip.running f

/-- The step of an effect through BAR0, which answers from stage 1 on, and in recovery mode (R361, R367). -/
def State.onAnswering (s : State) (f : Chip → Chip) : Host.Outcome State Fault Refusal := s.onlyIf (s.chip.running && s.chip.stage != 0) f

/-- The step of an effect that needs firmware to have started the part. -/
def State.onLive (s : State) (f : Chip → Chip) : Host.Outcome State Fault Refusal := s.onlyIf s.chip.live f

/-- A command that is not well-formed stops. -/
def State.guarded (_ : State) (ok : Bool) (r : Host.Outcome State Fault Refusal) : Host.Outcome State Fault Refusal :=
  if ok then r else .fault .illFormed

end Sys2Proof.Machine
end

