-- ==== Sys2Proof/Machine/ExecCommand.lean ====
section
/-! DEFINITION. The meanings of the commands of commands, scheduling and couching: one for each row, each a lift of its effect on the part. -/

namespace Sys2Proof.Machine

/-- SQ_TAIL_WRITE (R114, 06_commands.md): A doorbell write of a new SQ tail makes the part fetch entries up to it, or is ignored as bad. -/
def execSqTailWrite (slice : Fin 1024) (q : Fin 64) (v : W32) (s : State) : Host.Outcome State Fault Refusal :=
  s.onLive (fun c => c.access (.slice slice) (sqTailWrite slice q v))

/-- COMMAND_FETCH (R118, 06_commands.md): The intake fetches an SQ entry and its descriptor and applies the intake checks in order. -/
def execCommandFetch (slot : Fin 64) (q : Fin 64) (s : State) : Host.Outcome State Fault Refusal :=
  s.onLive (commandFetch slot q)

/-- FETCH_ABORT (R114, 06_commands.md): A host-aborted fetch of an SQ entry stops fetching from that SQ until the next accepted doorbell. -/
def execFetchAbort (slot : Fin 64) (q : Fin 64) (s : State) : Host.Outcome State Fault Refusal :=
  s.onLive (fetchAbort slot q)

/-- CQ_HEAD_WRITE (R123, 06_commands.md): A write of a new CQ head frees entries and releases held completions, or is ignored as bad. -/
def execCqHeadWrite (slice : Fin 1024) (q : Fin 64) (v : W32) (s : State) : Host.Outcome State Fault Refusal :=
  s.onLive (fun c => c.access (.slice slice) (cqHeadWrite slice q v))

/-- TASK_PLACE (R126, 06_commands.md): A ream places a command's tasks on per-sheet queues, honouring BARRIER and WAIT_TOKEN. -/
def execTaskPlace (cmd : Nat) (s : State) : Host.Outcome State Fault Refusal :=
  s.onLive (taskPlace cmd)

/-- TASK_STEAL (R127, 06_commands.md): An idle sheet with an empty queue steals the tail half of the longest queue of its gang. -/
def execTaskSteal (sheet : SheetAt) (s : State) : Host.Outcome State Fault Refusal :=
  s.onLive (taskSteal sheet)

/-- LOAD_BALANCE_CHECK (R128, 06_commands.md): Once per microsecond the ream scheduler moves queued tasks to an empty quire of the gang. -/
def execLoadBalanceCheck (ream : Fin 4) (s : State) : Host.Outcome State Fault Refusal :=
  s.onLive (loadBalanceCheck ream)

/-- DEADLINE_EXPIRY (R131, 06_commands.md): A class 1 to 3 command's deadline passes; LATE is set and with ABORT_LATE the command is killed and ends in TIMEOUT. -/
def execDeadlineExpiry (cmd : Nat) (s : State) : Host.Outcome State Fault Refusal :=
  s.onLive (deadlineExpiry cmd)

/-- COMMAND_COMPLETE (R112, 06_commands.md): When every task has committed and drained, the command completes and applies its deferred requests. -/
def execCommandComplete (cmd : Nat) (s : State) : Host.Outcome State Fault Refusal :=
  s.onLive (commandComplete cmd)

/-- PROGRAM_LOAD (R124, 06_commands.md): Built-in command that verifies and loads a program image and returns its handle and digest. -/
def execProgramLoad (cmd : Nat) (s : State) : Host.Outcome State Fault Refusal :=
  s.onLive (programLoad cmd)

/-- PROGRAM_UNLOAD (R124, 06_commands.md): Built-in command that unloads a program handle not in use. -/
def execProgramUnload (cmd : Nat) (s : State) : Host.Outcome State Fault Refusal :=
  s.onLive (programUnload cmd)

/-- CONTEXT_CREATE (R431, 06_commands.md): Built-in command that creates a context and reserves its couch area against the T2 quota. -/
def execContextCreate (cmd : Nat) (s : State) : Host.Outcome State Fault Refusal :=
  s.onLive (contextCreate cmd)

/-- CONTEXT_DESTROY (R124, 06_commands.md): Built-in command that waits for a context's commands and frees its state and couch area. -/
def execContextDestroy (cmd : Nat) (s : State) : Host.Outcome State Fault Refusal :=
  s.onLive (contextDestroy cmd)

/-- CONTEXT_EXPORT (R124, 06_commands.md): Built-in command that couches a context out and copies its image to an output slot. -/
def execContextExport (cmd : Nat) (s : State) : Host.Outcome State Fault Refusal :=
  s.onLive (contextExport cmd)

/-- CONTEXT_IMPORT (R142, 06_commands.md): Built-in command that creates a context from an image, checking SHAPE, AIC and CRCs. -/
def execContextImport (cmd : Nat) (s : State) : Host.Outcome State Fault Refusal :=
  s.onLive (contextImport cmd)

/-- BLOCKED_SWAP_CHECK (R137, 06_commands.md): Once per microsecond the ream scheduler swaps blocked contexts out for a runnable off-chip context. -/
def execBlockedSwapCheck (ream : Fin 4) (s : State) : Host.Outcome State Fault Refusal :=
  s.onLive (blockedSwapCheck ream)

/-- COUCH_OUT_COMPLETE (R136, 06_commands.md): A context's couch-out to its T2 couch area completes. -/
def execCouchOutComplete (ctx : Nat) (s : State) : Host.Outcome State Fault Refusal :=
  s.onLive (couchOutComplete ctx)

/-- COUCH_IN_COMPLETE (R140, 06_commands.md): A context's couch-in from its couch area completes and its tasks may run. -/
def execCouchInComplete (ctx : Nat) (s : State) : Host.Outcome State Fault Refusal :=
  s.onLive (couchInComplete ctx)

end Sys2Proof.Machine
end

