-- ==== Sys2Proof/Machine/ExecFabric.lean ====
section
/-! DEFINITION. The meanings of the commands of the memory fabric: one for each row, each a lift of its effect on the part. -/

namespace Sys2Proof.Machine

/-- FX_STMSG (R320, 13_fabric.md): Creates a fabric record of a STORE, ATOMIC, MESSAGE, FENCE or POP from a felt descriptor. -/
def execFxStmsg (sheet : SheetAt) (o : FxOps) (s : State) : Host.Outcome State Fault Refusal :=
  s.onLive (fun c => c.submit sheet (.fxStmsg sheet o))

/-- JOB_TEARDOWN (R329, 13_fabric.md): Built-in command that marks a job torn, disables its windows and queues, ends its commands and abandons its fabric work. -/
def execJobTeardown (cmd : Nat) (s : State) : Host.Outcome State Fault Refusal :=
  s.onLive (jobTeardown cmd)

/-- FLIT_RECEIVE (R312, 13_fabric.md): A received flit is checked, acknowledged and its credits returned, or a NAK is sent. -/
def execFlitReceive (port : Fin 6) (f : Flit) (s : State) : Host.Outcome State Fault Refusal :=
  s.onLive (flitReceive port f)

/-- NAK_RECEIVE (R312, 13_fabric.md): A link-control NAK makes the sender replay from the named flit, retraining after 8 replays. -/
def execNakReceive (port : Fin 6) (seq : Fin 4096) (s : State) : Host.Outcome State Fault Refusal :=
  s.onLive (nakReceive port seq)

/-- LINK_RETRAIN_COMPLETE (R312, 13_fabric.md): A fabric port finishes retraining and its link is up. -/
def execLinkRetrainComplete (port : Fin 6) (peerChip peerPort : Nat) (peerSwitch : Bool) (s : State) : Host.Outcome State Fault Refusal :=
  s.guarded (decide (peerChip < 65536) && decide (peerPort < 16)) (s.onLive (linkRetrainComplete port peerChip peerPort peerSwitch))

/-- ROUTE_WRITE (R314, 13_fabric.md): TAB_CMD write of a route entry, refused for the own chip, domain limit or absent ports. -/
def execRouteWrite (r : Requester) (index : Fin 65536) (s : State) : Host.Outcome State Fault Refusal :=
  s.onLive (fun d => d.access r (routeWrite r index))

/-- WINDOW_WRITE (R317, 13_fabric.md): TAB_CMD write of a fabric window entry within the slot's device windows. -/
def execWindowWrite (r : Requester) (index : Fin 65536) (s : State) : Host.Outcome State Fault Refusal :=
  s.onLive (fun d => d.access r (windowWrite r index))

/-- RXQ_WRITE (R325, 13_fabric.md): TAB_CMD write of a receive queue entry over mapped writable memory. -/
def execRxqWrite (r : Requester) (index : Fin 65536) (s : State) : Host.Outcome State Fault Refusal :=
  s.onLive (fun d => d.access r (rxqWrite r index))

/-- JOB_WRITE (R316, 13_fabric.md): TAB_CMD write of a job table entry, clearing TORN. -/
def execJobWrite (r : Requester) (index : Fin 65536) (s : State) : Host.Outcome State Fault Refusal :=
  s.onLive (fun d => d.access r (jobWrite r index))

/-- TAB_READ_BACK (R332, 13_fabric.md): TAB_CMD read-back copies a fabric table entry into staging and TAB_INFO. -/
def execTabReadBack (r : Requester) (table : Fin 4) (index : Fin 65536) (s : State) : Host.Outcome State Fault Refusal :=
  s.onLive (fun d => d.access r (tabReadBack r table index))

/-- REMOTE_READ (R318, 13_fabric.md): Fabric read kind that reads a remote window range into felt. -/
def execRemoteRead (sheet : SheetAt) (tag : Nat) (s : State) : Host.Outcome State Fault Refusal :=
  s.onLive (remoteRead sheet tag)

/-- REMOTE_GATHER (R318, 13_fabric.md): Fabric read kind that gathers listed remote lines into felt. -/
def execRemoteGather (sheet : SheetAt) (tag : Nat) (s : State) : Host.Outcome State Fault Refusal :=
  s.onLive (remoteGather sheet tag)

/-- RXQ_PEEK (R326, 13_fabric.md): Fabric kind that copies a receive queue entry's header and payload into felt. -/
def execRxqPeek (sheet : SheetAt) (tag : Nat) (s : State) : Host.Outcome State Fault Refusal :=
  s.onLive (rxqPeek sheet tag)

/-- FABRIC_REQUEST_RECEIVE (R317, 13_fabric.md): A fabric request arriving at the receiver is checked for job, window, key, range, mapping and seal. -/
def execFabricRequestReceive (req : FabricRequest) (s : State) : Host.Outcome State Fault Refusal :=
  s.onLive (fabricRequestReceive req)

/-- READ_RESPONSE_RECEIVE (R318, 13_fabric.md): Remote read data arrives and fills the task's felt destination. -/
def execReadResponseReceive (sheet : SheetAt) (tag : Nat) (reply : ReadReply) (s : State) : Host.Outcome State Fault Refusal :=
  s.onLive (fun c => (readResponseReceive sheet tag reply c).pump (sheetKey sheet))

/-- FABRIC_RECORD_SEND (R321, 13_fabric.md): The ream send engine sends a drained fabric record in packets, in source order. -/
def execFabricRecordSend (ream : Fin 4) (rec : Nat) (s : State) : Host.Outcome State Fault Refusal :=
  s.onLive (fabricRecordSend ream rec)

/-- STORE (R324, 13_fabric.md): A received fabric STORE enters the ingress buffer, merges by line and is applied. -/
def execFabricStore (ream : Fin 4) (s : State) : Host.Outcome State Fault Refusal :=
  s.onLive (fabricStore ream)

/-- ATOMIC (R323, 13_fabric.md): A received fabric ATOMIC is applied as one indivisible read-modify-write. -/
def execFabricAtomic (ream : Fin 4) (s : State) : Host.Outcome State Fault Refusal :=
  s.onLive (fabricAtomic ream)

/-- MESSAGE_RESERVATION (R325, 13_fabric.md): A message reservation is answered READY with a reserved slot, NOT_READY or DENIED. -/
def execMessageReservation (req : FabricRequest) (s : State) : Host.Outcome State Fault Refusal :=
  s.onLive (messageReservation req)

/-- MESSAGE_PAYLOAD (R325, 13_fabric.md): A message payload is written, then its header, and TAIL advances. -/
def execMessagePayload (queue : Fin 4096) (src : W16) (data : List Byte) (s : State) : Host.Outcome State Fault Refusal :=
  s.onLive (messagePayload queue src data)

/-- FENCE (R322, 13_fabric.md): A FENCE record holds its source's later records until earlier ones complete. -/
def execFabricFence (ream : Fin 4) (rec : Nat) (s : State) : Host.Outcome State Fault Refusal :=
  s.onLive (fabricFence ream rec)

/-- POP (R326, 13_fabric.md): A POP record advances its receive queue's HEAD when it drains. -/
def execFabricPop (ream : Fin 4) (rec : Nat) (s : State) : Host.Outcome State Fault Refusal :=
  s.onLive (fabricPop ream rec)

/-- RECORD_ACK_RECEIVE (R321, 13_fabric.md): An acknowledgement completes a fabric record at the sender. -/
def execRecordAckReceive (ream : Fin 4) (rec : Nat) (reply : RecordReply) (s : State) : Host.Outcome State Fault Refusal :=
  s.onLive (recordAckReceive ream rec reply)

/-- NOT_READY_RECEIVE (R327, 13_fabric.md): A NOT_READY reply schedules a retry after the backoff, or fails the record at RETRY_LIMIT. -/
def execNotReadyReceive (ream : Fin 4) (rec : Nat) (s : State) : Host.Outcome State Fault Refusal :=
  s.onLive (notReadyReceive ream rec)

/-- RESERVATION_RETRY (R327, 13_fabric.md): After the backoff wait the sender sends the reservation again. -/
def execReservationRetry (ream : Fin 4) (rec : Nat) (s : State) : Host.Outcome State Fault Refusal :=
  s.onLive (reservationRetry ream rec)

/-- DEAD_TARGET_TIMEOUT (R328, 13_fabric.md): A read or record with no reply for DEAD_TIMEOUT fails with FABRIC_DEAD_TARGET. -/
def execDeadTargetTimeout (target : DeadTarget) (s : State) : Host.Outcome State Fault Refusal :=
  s.onLive (deadTargetTimeout target)

/-- FABRIC_LINK_DOWN (R314, 13_fabric.md): A fabric port's link goes down, so traffic for its destinations is held and moved to the next port up, or fails when none comes up. -/
def execFabricLinkDown (port : Fin 6) (s : State) : Host.Outcome State Fault Refusal :=
  s.onLive (fabricLinkDown port)

end Sys2Proof.Machine
end

