-- ==== Sys2Proof/Machine/ExecFault.lean ====
section
/-! DEFINITION. The meanings of the commands of integrity, faults and recovery: one for each row, each a lift of its effect on the part. -/

namespace Sys2Proof.Machine

/-- LOSS_OF_REAM (R13, 01_architecture.md): A lost ream is isolated, its cells move to shadows, and the chip declares itself failed. -/
def execLossOfReam (ream : Fin 4) (s : State) : Host.Outcome State Fault Refusal :=
  s.onLive (lossOfReam ream)

/-- STORED_COMPLEMENT_MISMATCH (R334, 14_fault_recovery.md): A use that finds a complement-carried value mismatched raises INTEGRITY and fails the use. -/
def execStoredComplementMismatch (obj : CompObject) (s : State) : Host.Outcome State Fault Refusal :=
  s.onLive (storedComplementMismatch obj)

/-- COMPLEMENT_REWRITE (R335, 14_fault_recovery.md): Within 1 ms firmware rewrites a mismatched pair from its source and logs it. -/
def execComplementRewrite (obj : CompObject) (s : State) : Host.Outcome State Fault Refusal :=
  s.onLive (complementRewrite obj)

/-- SHEET_SELF_TEST_COMPLETE (R339, 14_fault_recovery.md): A sheet's self-test ends and it becomes a spare, returns, or is retired. -/
def execSheetSelfTestComplete (sheet : SheetAt) (pass : Bool) (s : State) : Host.Outcome State Fault Refusal :=
  s.onLive (sheetSelfTestComplete sheet pass)

/-- QUIRE_ISOLATE (R340, 14_fault_recovery.md): A quire is isolated on error code 0x05, its tasks killed and re-placed and its cells re-admitted or shed. -/
def execQuireIsolate (q : QuireAt) (s : State) : Host.Outcome State Fault Refusal :=
  s.onLive (quireIsolate q)

/-- QUIRE_TEST (R340, 14_fault_recovery.md): Firmware tests an isolated quire after 10 minutes. -/
def execQuireTest (q : QuireAt) (s : State) : Host.Outcome State Fault Refusal :=
  s.onLive (quireTest q)

/-- QUIRE_TEST_COMPLETE (R340, 14_fault_recovery.md): A quire test ends and the quire returns or stays isolated. -/
def execQuireTestComplete (q : QuireAt) (pass : Bool) (s : State) : Host.Outcome State Fault Refusal :=
  s.onLive (quireTestComplete q pass)

/-- HARD_EVIDENCE (R341, 14_fault_recovery.md): Hard evidence puts the part in the failed state, zeroes the score and asserts FAULT_N. -/
def execHardEvidence (cause : HardCause) (s : State) : Host.Outcome State Fault Refusal :=
  s.onLive (hardEvidence cause)

/-- QUIRE_SLEEP (R343, 14_fault_recovery.md): Firmware puts an uncovered, empty quire to sleep. -/
def execQuireSleep (q : QuireAt) (s : State) : Host.Outcome State Fault Refusal :=
  s.onLive (quireSleep q)

/-- QUIRE_WAKE (R342, 14_fault_recovery.md): A sleeping or isolated quire is scrubbed and returns with a new incarnation. -/
def execQuireWake (q : QuireAt) (s : State) : Host.Outcome State Fault Refusal :=
  s.onLive (quireWake q)

/-- HEALTH_WINDOW_END (R346, 14_fault_recovery.md): At each 600 s window boundary debt is applied or the score rises by 10. -/
def execHealthWindowEnd (s : State) : Host.Outcome State Fault Refusal :=
  s.onLive (healthWindowEnd)

/-- ERR_HI_READ (R358, 14_fault_recovery.md): A read of ERR_HI latches the head error-ring entry. -/
def execErrHiRead (r : Requester) (s : State) : Host.Outcome State Fault Refusal :=
  s.onLive (fun d => d.access r (errHiRead r))

/-- ERR_LO_READ (R358, 14_fault_recovery.md): A read of ERR_LO returns the rest of the entry and pops it. -/
def execErrLoRead (r : Requester) (s : State) : Host.Outcome State Fault Refusal :=
  s.onLive (fun d => d.access r (errLoRead r))

/-- MIR_WRITE (R347, 14_fault_recovery.md): MIR_CMD write stores a staged mirror entry. -/
def execMirWrite (r : Requester) (index : Nat) (s : State) : Host.Outcome State Fault Refusal :=
  s.guarded (decide (index < 64)) (s.onLive (fun d => d.access r (mirWrite r index)))

/-- MIR_READ_BACK (R358, 14_fault_recovery.md): MIR_CMD read-back copies a mirror entry into staging. -/
def execMirReadBack (r : Requester) (index : Nat) (s : State) : Host.Outcome State Fault Refusal :=
  s.guarded (decide (index < 64)) (s.onLive (fun d => d.access r (mirReadBack r index)))

/-- MIRROR_COPY_COMPLETE (R348, 14_fault_recovery.md): A REGION copy finishes and its header acknowledgement mirrors the step, or the entry fails. -/
def execMirrorCopyComplete (index : Fin 64) (ok : Bool) (s : State) : Host.Outcome State Fault Refusal :=
  s.onLive (mirrorCopyComplete index ok)

/-- BEGIN (R352, 14_fault_recovery.md): Recovery step BEGIN opens an epoch and holds the job's commands. -/
def execRecoveryBegin (s : State) : Host.Outcome State Fault Refusal :=
  s.onLive (recoveryBegin)

/-- PULL (R352, 14_fault_recovery.md): Recovery step PULL fills a range from a spare-side copy or the buddy's live half. -/
def execPull (s : State) : Host.Outcome State Fault Refusal :=
  s.onLive (pull)

/-- PULL_SEALED (R352, 14_fault_recovery.md): Recovery step PULL_SEALED copies valid stamped pages from the buddy and seals them. -/
def execPullSealed (s : State) : Host.Outcome State Fault Refusal :=
  s.onLive (pullSealed)

/-- LOAD_CHECKPOINT (R352, 14_fault_recovery.md): Recovery step LOAD_CHECKPOINT fills a range from a checkpoint and checks its digest. -/
def execLoadCheckpoint (s : State) : Host.Outcome State Fault Refusal :=
  s.onLive (loadCheckpoint)

/-- RECOVERY_ENABLE (R352, 14_fault_recovery.md): Recovery step ENABLE re-enables the job's windows, queues and mirror entries. -/
def execRecoveryEnable (s : State) : Host.Outcome State Fault Refusal :=
  s.onLive (recoveryEnable)

/-- END (R352, 14_fault_recovery.md): Recovery step END closes the epoch and lets the job's commands place tasks. -/
def execRecoveryEnd (s : State) : Host.Outcome State Fault Refusal :=
  s.onLive (recoveryEnd)

/-- RECOVERY_STEP_COMPLETE (R353, 14_fault_recovery.md): A running recovery step ends with its result and clears BUSY. -/
def execRecoveryStepComplete (outcome : RcvOutcome) (s : State) : Host.Outcome State Fault Refusal :=
  s.onLive (recoveryStepComplete outcome)

/-- RECOVERY_ABORT (R354, 14_fault_recovery.md): RCV_CMD abort ends the running recovery step with RESULT 6. -/
def execRecoveryAbort (r : Requester) (s : State) : Host.Outcome State Fault Refusal :=
  s.onLive (fun d => d.access r (recoveryAbort r))

/-- MEMORY_PATROL_PASS (R336, 14_fault_recovery.md): The patrol of the quire pools every 100 ms and of HBM once in 24 h reads lines, corrects single errors and poisons uncorrectable ones. -/
def execMemoryPatrolPass (target : PatrolTarget) (corrected : Nat) (poisoned : List Nat) (s : State) : Host.Outcome State Fault Refusal :=
  s.onLive (memoryPatrolPass target corrected poisoned)

end Sys2Proof.Machine
end

