-- ==== Sys2Proof/Machine/ExecGeneration.lean ====
section
/-! DEFINITION. The meanings of the commands of the generation engines: one for each row, each a lift of its effect on the part. -/

namespace Sys2Proof.Machine

/-- ROPE (R229, 10_generation_engines.md): Engine request that writes exact-turn rotary cos and sin values for positions. -/
def execRope (sheet : SheetAt) (tag : Nat) (s : State) : Host.Outcome State Fault Refusal :=
  s.onLive (rope sheet tag)

/-- WALK_BEGIN (R233, 10_generation_engines.md): Engine request that snapshots a sequence into a walk slot and lists its sink and window pages. -/
def execWalkBegin (sheet : SheetAt) (tag : Nat) (s : State) : Host.Outcome State Fault Refusal :=
  s.onLive (walkBegin sheet tag)

/-- WALK_STEP (R234, 10_generation_engines.md): Engine request that bounds unselected pages, checks the skipped mass and lists more pages or finishes. -/
def execWalkStep (sheet : SheetAt) (tag : Nat) (s : State) : Host.Outcome State Fault Refusal :=
  s.onLive (walkStep sheet tag)

/-- WALK_END (R232, 10_generation_engines.md): Engine request that frees a walk slot. -/
def execWalkEnd (sheet : SheetAt) (tag : Nat) (s : State) : Host.Outcome State Fault Refusal :=
  s.onLive (walkEnd sheet tag)

/-- PAGE_FETCH (R236, 10_generation_engines.md): Engine request that fills felt with one page's keys and values. -/
def execPageFetch (sheet : SheetAt) (tag : Nat) (s : State) : Host.Outcome State Fault Refusal :=
  s.onLive (pageFetch sheet tag)

/-- SAMPLE (R240, 10_generation_engines.md): Sampler request that draws a token from a score row under top-k, min-p and top-p. -/
def execSample (sheet : SheetAt) (tag : Nat) (s : State) : Host.Outcome State Fault Refusal :=
  s.onLive (sampleDo sheet tag)

/-- VERIFY (R241, 10_generation_engines.md): Sampler request that checks speculative draft tokens and draws the next token. -/
def execVerify (sheet : SheetAt) (tag : Nat) (s : State) : Host.Outcome State Fault Refusal :=
  s.onLive (verifyDo sheet tag)

/-- APPEND (R226, 10_generation_engines.md): Deferred request that adds tokens to a sequence and seals full pages at command completion. -/
def execSeqAppend (cmd : Nat) (s : State) : Host.Outcome State Fault Refusal :=
  s.onLive (seqAppend cmd)

/-- PREFIX_PUBLISH (R244, 10_generation_engines.md): Deferred request that moves sealed pages into the prefix-cache pool. -/
def execPrefixPublish (cmd : Nat) (s : State) : Host.Outcome State Fault Refusal :=
  s.onLive (prefixPublish cmd)

/-- PREFIX_ATTACH (R245, 10_generation_engines.md): Deferred request that attaches matching pool pages to an empty sequence. -/
def execPrefixAttach (cmd : Nat) (s : State) : Host.Outcome State Fault Refusal :=
  s.onLive (prefixAttach cmd)

/-- SEQ_RELEASE (R246, 10_generation_engines.md): Deferred request that dereferences a sequence's shared pages and resets its counts. -/
def execSeqRelease (cmd : Nat) (s : State) : Host.Outcome State Fault Refusal :=
  s.onLive (seqRelease cmd)

/-- WEIGHT_REGISTER (R249, 10_generation_engines.md): Deferred request that digests and seals a weight object and enters it in the weight table. -/
def execWeightRegister (cmd : Nat) (s : State) : Host.Outcome State Fault Refusal :=
  s.onLive (weightRegister cmd)

/-- DIGEST_COMPLETE (R250, 10_generation_engines.md): A SHA-256 engine finishes digesting an input slot of a watermarked command. -/
def execDigestComplete (cmd : Nat) (slotIx : Fin 8) (s : State) : Host.Outcome State Fault Refusal :=
  s.onLive (digestComplete cmd slotIx)

/-- ENGINE_RESULT_BLOCK_WRITE (R221, 10_generation_engines.md): A queued walker or sampler request is served and its result block is written and becomes ready. -/
def execEngineResultBlockWrite (sheet : SheetAt) (tag : Nat) (s : State) : Host.Outcome State Fault Refusal :=
  s.onLive (fun c => (engineResultBlockWrite sheet tag c).pump (sheetKey sheet))

end Sys2Proof.Machine
end

