-- ==== Sys2Proof/Machine/ExecMemory.lean ====
section
/-! DEFINITION. The meanings of the commands of memory tiers and DMA: one for each row, each a lift of its effect on the part. -/

namespace Sys2Proof.Machine

/-- FX_DMA (R278, 11_memory_tiers.md): Issues the transfer or engine request described by a felt descriptor of the named KIND. -/
def execFxDma (sheet : SheetAt) (o : FxOps) (s : State) : Host.Outcome State Fault Refusal :=
  s.onLive (fun c => c.submit sheet (.fxDma sheet o))

/-- FX_PREF (R281, 11_memory_tiers.md): Issues a prefetch with snapshot semantics that drops, rather than faults on, unreadable lines. -/
def execFxPref (sheet : SheetAt) (o : FxOps) (s : State) : Host.Outcome State Fault Refusal :=
  s.onLive (fun c => c.submit sheet (.fxPref sheet o))

/-- COPY_IN (R279, 11_memory_tiers.md): Copies strided rows from an input slot into felt, optionally with run-ahead. -/
def execCopyIn (sheet : SheetAt) (tag : Nat) (s : State) : Host.Outcome State Fault Refusal :=
  s.onLive (copyIn sheet tag)

/-- GATHER_IN (R279, 11_memory_tiers.md): Gathers listed 64-byte lines from an input slot into felt. -/
def execGatherIn (sheet : SheetAt) (tag : Nat) (s : State) : Host.Outcome State Fault Refusal :=
  s.onLive (gatherIn sheet tag)

/-- POOL_IN (R279, 11_memory_tiers.md): Copies bytes from the context's pool space into felt, waiting for earlier PREF_POOL fills. -/
def execPoolIn (sheet : SheetAt) (tag : Nat) (s : State) : Host.Outcome State Fault Refusal :=
  s.onLive (poolIn sheet tag)

/-- PREF_POOL (R279, 11_memory_tiers.md): Prefetches strided rows from an input slot into the context's pool space. -/
def execPrefPool (sheet : SheetAt) (tag : Nat) (s : State) : Host.Outcome State Fault Refusal :=
  s.onLive (prefPool sheet tag)

/-- MAP (R259, 11_memory_tiers.md): MAP_CMD MAP allocates zeroed T2 pages at an unmapped range. -/
def execMap (r : Requester) (s : State) : Host.Outcome State Fault Refusal :=
  s.onLive (fun d => d.access r (mapMap r))

/-- UNMAP (R259, 11_memory_tiers.md): MAP_CMD UNMAP frees pages in any tier once no command uses them. -/
def execUnmap (r : Requester) (s : State) : Host.Outcome State Fault Refusal :=
  s.onLive (fun d => d.access r (mapUnmap r))

/-- PROTECT (R259, 11_memory_tiers.md): MAP_CMD PROTECT sets READ and WRITE on pages. -/
def execProtect (r : Requester) (s : State) : Host.Outcome State Fault Refusal :=
  s.onLive (fun d => d.access r (mapProtect r))

/-- MAP_SEAL (R263, 11_memory_tiers.md): MAP_CMD SEAL seals pages read-only. -/
def execMapSeal (r : Requester) (s : State) : Host.Outcome State Fault Refusal :=
  s.onLive (fun d => d.access r (mapSeal r))

/-- MAP_UNSEAL (R264, 11_memory_tiers.md): MAP_CMD UNSEAL promotes pages to T2 and clears SEALED unless refused. -/
def execMapUnseal (r : Requester) (s : State) : Host.Outcome State Fault Refusal :=
  s.onLive (fun d => d.access r (mapUnseal r))

/-- PIN (R259, 11_memory_tiers.md): MAP_CMD PIN sets PIN on pages. -/
def execPin (r : Requester) (s : State) : Host.Outcome State Fault Refusal :=
  s.onLive (fun d => d.access r (mapPinOp r))

/-- UNPIN (R259, 11_memory_tiers.md): MAP_CMD UNPIN clears PIN on pages. -/
def execUnpin (r : Requester) (s : State) : Host.Outcome State Fault Refusal :=
  s.onLive (fun d => d.access r (mapUnpin r))

/-- MAP_READ (R259, 11_memory_tiers.md): MAP_CMD READ writes the mapping of the first page back into staging. -/
def execMapRead (r : Requester) (s : State) : Host.Outcome State Fault Refusal :=
  s.onLive (fun d => d.access r (mapRead r))

/-- MAPPING_CHANGE_COMPLETE (R261, 11_memory_tiers.md): An access-removing mapping change completes once caches, requests and covering commands have finished. -/
def execMappingChangeComplete (s : State) : Host.Outcome State Fault Refusal :=
  s.onLive (mappingChangeComplete)

/-- MAPPING_CHANGE_TIMEOUT (R261, 11_memory_tiers.md): A mapping change whose commands have not completed within 10 ms changes nothing and sets ERR 4. -/
def execMappingChangeTimeout (s : State) : Host.Outcome State Fault Refusal :=
  s.onLive (mappingChangeTimeout)

/-- SEAL (R265, 11_memory_tiers.md): Deferred tier request that seals a page range. -/
def execTierSeal (cmd : Nat) (s : State) : Host.Outcome State Fault Refusal :=
  s.onLive (tierSealDo cmd)

/-- UNSEAL (R265, 11_memory_tiers.md): Deferred tier request that unseals a page range. -/
def execTierUnseal (cmd : Nat) (s : State) : Host.Outcome State Fault Refusal :=
  s.onLive (tierUnsealDo cmd)

/-- HINT (R265, 11_memory_tiers.md): Deferred tier request that demotes, promotes, pins or unpins a page range. -/
def execTierHint (cmd : Nat) (s : State) : Host.Outcome State Fault Refusal :=
  s.onLive (tierHintDo cmd)

/-- MIGRATION_INTERVAL (R269, 11_memory_tiers.md): At each migration interval the engine demotes and promotes pages by read counts and quota use. -/
def execMigrationInterval (s : State) : Host.Outcome State Fault Refusal :=
  s.onLive (migrationInterval)

/-- PAGE_MIGRATION_COMPLETE (R270, 11_memory_tiers.md): A page copy completes, the translation switches and the old frame is freed. -/
def execPageMigrationComplete (slot : Fin 64) (va : Nat) (ok : Bool) (s : State) : Host.Outcome State Fault Refusal :=
  s.guarded (decide (va < 2 ^ 57)) (s.onLive (pageMigrationComplete slot va ok))

/-- HOST_POOL_WRITE (R257, 11_memory_tiers.md): A HOST_POOL write donates a host region as T3 or starts draining it. -/
def execHostPoolWrite (r : Requester) (h : Fin 8) (v c : W64) (s : State) : Host.Outcome State Fault Refusal :=
  s.onLive (fun d => d.access r (fun d => (hostPoolWrite r h v c d).mendWritten r (c == ~~~ v) (R.HOST_POOL h.val).addr v))

/-- HOST_POOL_RELEASE (R257, 11_memory_tiers.md): A draining host pool region holds no pages and is released. -/
def execHostPoolRelease (h : Fin 8) (s : State) : Host.Outcome State Fault Refusal :=
  s.onLive (hostPoolRelease h)

/-- TIER_CFG_WRITE (R267, 11_memory_tiers.md): A TIER_CFG write is refused when it lowers the radio reservation below admitted need. -/
def execTierCfgWrite (r : Requester) (v c : W64) (s : State) : Host.Outcome State Fault Refusal :=
  s.onLive (fun d => d.access r (fun d => (tierCfgWrite r v c d).mendWritten r (c == ~~~ v) R.TIER_CFG.addr v))

/-- LEND_WIN_ENABLE (R271, 11_memory_tiers.md): Setting LEND_WIN.ENABLE takes the window's size from free T2, or is refused. -/
def execLendWinEnable (r : Requester) (w : Fin 16) (s : State) : Host.Outcome State Fault Refusal :=
  s.onLive (fun d => d.access r (fun d => (lendWinEnable r w d).mendWritten r true (R.LEND_WIN0 w.val).addr (fput (d.reg (R.LEND_WIN0 w.val)) F.LEND_WIN0.ENABLE 1)))

/-- BORROW_CONNECT (R271, 11_memory_tiers.md): Setting BORROW_WIN.ENABLE connects to the lender, which checks chip identifier and key. -/
def execBorrowConnect (r : Requester) (w : Fin 16) (s : State) : Host.Outcome State Fault Refusal :=
  s.onLive (fun d => d.access r (fun d => (borrowConnect r w d).mendWritten r true (R.BORROW_WIN0 w.val).addr (fput (d.reg (R.BORROW_WIN0 w.val)) F.BORROW_WIN0.ENABLE 1)))

/-- BORROW_RELEASE (R284, 11_memory_tiers.md): Clearing BORROW_WIN.ENABLE evacuates the window without deadline and releases it when empty. -/
def execBorrowRelease (r : Requester) (w : Fin 16) (s : State) : Host.Outcome State Fault Refusal :=
  s.onLive (fun d => d.access r (fun d => (borrowRelease r w d).mendWritten r true (R.BORROW_WIN0 w.val).addr (fput (d.reg (R.BORROW_WIN0 w.val)) F.BORROW_WIN0.ENABLE 0)))

/-- LEND_REQUEST (R272, 11_memory_tiers.md): The lender accepts or refuses a request into a lent window by source and key. -/
def execLendRequest (w : Fin 16) (src : W16) (key : W32) (kind : LendKind) (s : State) : Host.Outcome State Fault Refusal :=
  s.onLive (lendRequest w src key kind)

/-- LEND_RECALL (R273, 11_memory_tiers.md): LEND_WIN.RECALL sends a recall with a 100 ms deadline. -/
def execLendRecall (r : Requester) (w : Fin 16) (s : State) : Host.Outcome State Fault Refusal :=
  s.onLive (fun d => d.access r (fun d => (lendRecall r w d).mendWritten r true (R.LEND_WIN0 w.val).addr (fput (d.reg (R.LEND_WIN0 w.val)) F.LEND_WIN0.RECALL 1)))

/-- RECALL_RECEIVE (R273, 11_memory_tiers.md): The borrower receives a recall and starts evacuating the window. -/
def execRecallReceive (w : Fin 16) (deadline : Nat) (s : State) : Host.Outcome State Fault Refusal :=
  s.guarded (decide (deadline < 2 ^ 64)) (s.onLive (recallReceive w deadline))

/-- EVACUATION_DONE (R273, 11_memory_tiers.md): The borrower empties the window and sends a done message. -/
def execEvacuationDone (w : Fin 16) (s : State) : Host.Outcome State Fault Refusal :=
  s.onLive (evacuationDone w)

/-- DONE_RECEIVE (R273, 11_memory_tiers.md): The lender receives the done message and returns the window to free T2. -/
def execDoneReceive (w : Fin 16) (s : State) : Host.Outcome State Fault Refusal :=
  s.onLive (doneReceive w)

/-- RECALL_DEADLINE (R274, 11_memory_tiers.md): At the recall deadline the lender frees the window and the borrower revokes its remaining pages. -/
def execRecallDeadline (side : LendSide) (w : Fin 16) (s : State) : Host.Outcome State Fault Refusal :=
  s.onLive (recallDeadline side w)

/-- REQUEST_AGE_FORCE (R277, 11_memory_tiers.md): A memory request held for 2 µs goes next in its pseudo-channel. -/
def execRequestAgeForce (ream : Fin 4) (s : State) : Host.Outcome State Fault Refusal :=
  s.onLive (requestAgeForce ream)

/-- HBM_TRAINED (R256, 11_memory_tiers.md): HBM training ends and CXL devices are enumerated, reaching stage 3. -/
def execHbmTrained (cxl : List Nat) (s : State) : Host.Outcome State Fault Refusal :=
  s.guarded (decide (cxl.length ≤ 2) && decide (cxl.sum ≤ 4096)) (s.onRunning (hbmTrained cxl))

/-- BORROW_WIN_IN_USE (R271, 11_memory_tiers.md): The lender's acceptance of a borrower's connection arrives and the borrowed window moves from connecting to in use. -/
def execBorrowWinInUse (w : Fin 16) (s : State) : Host.Outcome State Fault Refusal :=
  s.onLive (borrowWinInUse w)

end Sys2Proof.Machine
end

