-- ==== Sys2Proof/Machine/ExecRadio.lean ====
section
/-! DEFINITION. The meanings of the commands of the Ethernet ports, fronthaul, FAPI, coding and the slot guarantee: one for each row, each a lift of its effect on the part. -/

namespace Sys2Proof.Machine

/-- FRAME_TRANSMIT (R164, 07_fronthaul_ports.md): When a sub-port may send, the egress scheduler sends a frame from the first class holding an eligible frame. -/
def execFrameTransmit (port : Fin 4) (sub : Fin 4) (placed : List (Nat × List Byte)) (s : State) : Host.Outcome State Fault Refusal :=
  s.onLive (frameTransmit port sub placed)

/-- WINDOW_FINALISE (R156, 07_fronthaul_ports.md): Within 1 µs after a window closes, the unit zero-fills missing PRBs, writes the bitmap and marks the window's radio token complete. -/
def execWindowFinalise (stream : Fin 4096) (w : Fin 4) (s : State) : Host.Outcome State Fault Refusal :=
  s.onLive (windowFinalise stream w)

/-- PORT_CFG_WRITE (R147, 07_fronthaul_ports.md): A PORT_CFG write that changes MODE or ENABLE is refused while in use, or retrains the port and discards queued frames. -/
def execPortCfgWrite (r : Requester) (port : Fin 4) (v c : W32) (s : State) : Host.Outcome State Fault Refusal :=
  s.onLive (fun d => d.access r (fun d => (portCfgWrite r port v c d).mendWritten r (c == ~~~ v) (R.PORT_CFG port.val).addr (v.setWidth 64)))

/-- LINK_UP (R147, 07_fronthaul_ports.md): A sub-port's Ethernet link comes up after training. -/
def execLinkUp (port : Fin 4) (sub : Fin 4) (s : State) : Host.Outcome State Fault Refusal :=
  s.onLive (linkUp port sub)

/-- LINK_DOWN (R160, 07_fronthaul_ports.md): A sub-port's link goes down; its class 0 frames drop, windows zero-fill and L2 gets ERROR.indication. -/
def execLinkDown (port : Fin 4) (sub : Fin 4) (s : State) : Host.Outcome State Fault Refusal :=
  s.onLive (linkDown port sub)

/-- FRAME_RECEIVE (R149, 07_fronthaul_ports.md): A received Ethernet frame is checked and classified to the PTP slave, the fronthaul unit, a steered ring or host ring 0. -/
def execFrameReceive (port : Fin 4) (sub : Fin 4) (f : RxFrame) (s : State) : Host.Outcome State Fault Refusal :=
  s.onLive (frameReceive port sub f)

/-- GAIN_STEP_UPDATE (R158, 07_fronthaul_ports.md): At the end of each symbol the AGC adjusts each gain group's step for the next symbol. -/
def execGainStepUpdate (stream : Fin 4096) (s : State) : Host.Outcome State Fault Refusal :=
  s.onLive (gainStepUpdate stream)

/-- ETH_TX_TAIL_WRITE (R150, 07_fronthaul_ports.md): A transmit ring doorbell makes the part fetch descriptors and queue or discard their frames. -/
def execEthTxTailWrite (slice : Fin 1024) (q : Fin 64) (v : W32) (s : State) : Host.Outcome State Fault Refusal :=
  s.onLive (fun c => c.access (.slice slice) (ethTxTailWrite slice q v))

/-- ETH_RX_TAIL_WRITE (R151, 07_fronthaul_ports.md): A receive ring doorbell posts buffers for received frames. -/
def execEthRxTailWrite (slice : Fin 1024) (q : Fin 64) (v : W32) (s : State) : Host.Outcome State Fault Refusal :=
  s.onLive (fun c => c.access (.slice slice) (ethRxTailWrite slice q v))

/-- BUCKET_REFILL (R166, 07_fronthaul_ports.md): Every 1.024 µs each token bucket gains REFILL and is capped at BURST, applying pending changes. -/
def execBucketRefill (s : State) : Host.Outcome State Fault Refusal :=
  s.onLive (bucketRefill)

/-- SHP_WRITE (R167, 07_fronthaul_ports.md): SHP_CMD write stores a staged shaper entry after the complement and value checks. -/
def execShpWrite (r : Requester) (port : Fin 10) (kind : Fin 4) (index : Fin 1024) (s : State) : Host.Outcome State Fault Refusal :=
  s.onLive (fun d => d.access r (shpWrite r port kind index))

/-- SHP_READ_BACK (R168, 07_fronthaul_ports.md): SHP_CMD read-back copies a shaper entry into staging. -/
def execShpReadBack (r : Requester) (port : Fin 10) (kind : Fin 4) (index : Fin 1024) (s : State) : Host.Outcome State Fault Refusal :=
  s.onLive (fun d => d.access r (shpReadBack r port kind index))

/-- CLASS0_DROP_AFTER (R159, 07_fronthaul_ports.md): A released class 0 frame still unsent DROP_AFTER ticks after release is dropped and counted. -/
def execClass0DropAfter (port : Fin 4) (queue : Fin 1024) (s : State) : Host.Outcome State Fault Refusal :=
  s.onLive (class0DropAfter port queue)

/-- STRM_CFG_WRITE (R153, 07_fronthaul_ports.md): A stream table write is refused on a duplicate stream or too many gain groups, else configures the stream. -/
def execStrmCfgWrite (r : Requester) (stream : Fin 4096) (v c : W64) (s : State) : Host.Outcome State Fault Refusal :=
  s.onLive (fun d => d.access r (fun d => (strmCfgWrite r stream v c d).mendWritten r (c == ~~~ v) (R.STRM_CFG stream.val).addr v))

/-- FAPI_TAIL_WRITE (R161, 07_fronthaul_ports.md): Host L2 advances the L2-to-PHY ring tail and the part reads the messages. -/
def execFapiTailWrite (slice : Fin 1024) (v : W32) (unsupported : List (Fin 1024)) (s : State) : Host.Outcome State Fault Refusal :=
  s.onLive (fun c => c.access (.slice slice) (fapiTailWrite slice v unsupported))

/-- FAPI_HEAD_WRITE (R161, 07_fronthaul_ports.md): Host L2 posts PHY-to-L2 buffers, releasing held messages. -/
def execFapiHeadWrite (slice : Fin 1024) (v : W32) (s : State) : Host.Outcome State Fault Refusal :=
  s.onLive (fun c => c.access (.slice slice) (fapiHeadWrite slice v))

/-- PARAM_REQUEST (R162, 07_fronthaul_ports.md): FAPI PARAM.request is answered with PARAM.response. -/
def execParamRequest (slot : Fin 64) (last : Bool) (s : State) : Host.Outcome State Fault Refusal :=
  s.onLive (paramRequest slot last)

/-- CONFIG_REQUEST (R195, 08_high_phy.md): FAPI CONFIG.request checks TLVs and runs the admission test for a down cell. -/
def execConfigRequest (slot : Fin 64) (last : Bool) (cfg : CellConfig) (s : State) : Host.Outcome State Fault Refusal :=
  s.onLive (configRequest slot last cfg)

/-- START_REQUEST (R162, 07_fronthaul_ports.md): FAPI START.request starts a configured cell. -/
def execStartRequest (slot : Fin 64) (last : Bool) (s : State) : Host.Outcome State Fault Refusal :=
  s.onLive (startRequest slot last)

/-- STOP_REQUEST (R162, 07_fronthaul_ports.md): FAPI STOP.request stops a cell and answers with STOP.indication. -/
def execStopRequest (slot : Fin 64) (last : Bool) (s : State) : Host.Outcome State Fault Refusal :=
  s.onLive (stopRequest slot last)

/-- DL_TTI_REQUEST (R182, 08_high_phy.md): FAPI DL_TTI.request schedules downlink, charging the encoder budget per PDU. -/
def execDlTtiRequest (slot : Fin 64) (last : Bool) (frame : Fin 1024) (sl : Nat) (pdus : List DlPdu) (s : State) : Host.Outcome State Fault Refusal :=
  s.guarded (decide (sl < 65536)) (s.onLive (dlTtiRequest slot last frame sl pdus))

/-- UL_TTI_REQUEST (R181, 08_high_phy.md): FAPI UL_TTI.request schedules uplink, charging the decoder budget and capping iterations. -/
def execUlTtiRequest (slot : Fin 64) (last : Bool) (frame : Fin 1024) (sl : Nat) (pdus : List UlPdu) (s : State) : Host.Outcome State Fault Refusal :=
  s.guarded (decide (sl < 65536)) (s.onLive (ulTtiRequest slot last frame sl pdus))

/-- UL_DCI_REQUEST (R162, 07_fronthaul_ports.md): FAPI UL_DCI.request schedules uplink DCI on PDCCH. -/
def execUlDciRequest (slot : Fin 64) (last : Bool) (frame : Fin 1024) (sl : Nat) (candidates : Nat) (s : State) : Host.Outcome State Fault Refusal :=
  s.guarded (decide (sl < 65536)) (s.onLive (ulDciRequest slot last frame sl candidates))

/-- TX_DATA_REQUEST (R162, 07_fronthaul_ports.md): FAPI TX_Data.request supplies downlink transport-block data. -/
def execTxDataRequest (slot : Fin 64) (last : Bool) (frame : Fin 1024) (sl : Nat) (blocks : List (Nat × List Byte)) (s : State) : Host.Outcome State Fault Refusal :=
  s.guarded (decide (sl < 65536)) (s.onLive (txDataRequest slot last frame sl blocks))

/-- CODING_JOB_START (R184, 08_high_phy.md): A free coding-strip engine takes the earliest-deadline job of its queue. -/
def execCodingJobStart (ream : Fin 4) (engine : Fin 36) (s : State) : Host.Outcome State Fault Refusal :=
  s.onLive (codingJobStart ream engine)

/-- CODING_JOB_COMPLETE (R180, 08_high_phy.md): A coding-strip job ends, for a decode on syndrome, CRC or iteration limit with HARQ write-back. -/
def execCodingJobComplete (ream : Fin 4) (result : JobResult) (s : State) : Host.Outcome State Fault Refusal :=
  s.onLive (codingJobComplete ream result)

/-- STRIP_ENGINE_ERROR (R184, 08_high_phy.md): An engine's uncorrectable memory error re-runs its job on another engine and retires the engine. -/
def execStripEngineError (ream : Fin 4) (engine : Fin 36) (s : State) : Host.Outcome State Fault Refusal :=
  s.onLive (stripEngineError ream engine)

/-- FLOOR_CFG_WRITE (R204, 09_slot_guarantee.md): A FLOOR_CFG write changes the radio floor or pool region, or is refused. -/
def execFloorCfgWrite (r : Requester) (ream : Fin 4) (v c : W64) (s : State) : Host.Outcome State Fault Refusal :=
  s.onLive (fun d => d.access r (fun d => (floorCfgWrite r ream v c d).mendWritten r (c == ~~~ v) (R.FLOOR_CFG ream.val).addr v))

/-- CLASS0_TASK_PLACE (R205, 09_slot_guarantee.md): A ready class 0 task takes a sheet of its home ream, issuing a kill where needed. -/
def execClass0TaskPlace (ream : Fin 4) (s : State) : Host.Outcome State Fault Refusal :=
  s.onLive (class0TaskPlace ream)

/-- CAPACITY_RECOMPUTE (R211, 09_slot_guarantee.md): After a capacity loss, firmware recomputes ream capacities before the next window and enters emergency or sheds. -/
def execCapacityRecompute (s : State) : Host.Outcome State Fault Refusal :=
  s.onLive (capacityRecompute)

/-- COOLING_SHED (R208, 09_slot_guarantee.md): Under a cooling fault, one cell is shed every THERM_STEP until the junction falls below 100 °C. -/
def execCoolingShed (s : State) : Host.Outcome State Fault Refusal :=
  s.onLive (coolingShed)

/-- STANDBY_REQUEST (R213, 09_slot_guarantee.md): A shadow chip receives a standby request and admits the cell in standby or refuses it. -/
def execStandbyRequest (src : W16) (cell : Fin 1024) (slot : Fin 64) (cfg : CellConfig) (s : State) : Host.Outcome State Fault Refusal :=
  s.onLive (standbyRequest src cell slot cfg)

/-- STANDBY_RETRY (R213, 09_slot_guarantee.md): A home with a refused or lost shadow repeats the standby request every 10 s. -/
def execStandbyRetry (cell : Fin 1024) (s : State) : Host.Outcome State Fault Refusal :=
  s.onLive (standbyRetry cell)

/-- MIRROR_RECORD_SEND (R214, 09_slot_guarantee.md): For each slot the home sends the shadow a mirror record set within the MIRROR_KIB limit. -/
def execMirrorRecordSend (cell : Fin 1024) (s : State) : Host.Outcome State Fault Refusal :=
  s.onLive (mirrorRecordSend cell)

/-- MIRROR_RECORD_RECEIVE (R214, 09_slot_guarantee.md): The shadow applies and acknowledges a mirror record set. -/
def execMirrorRecordReceive (src : W16) (cell : Fin 1024) (frame : Fin 1024) (sl : Nat) (items : List MirrorItem) (s : State) : Host.Outcome State Fault Refusal :=
  s.guarded (decide (sl < 65536)) (s.onLive (mirrorRecordReceive src cell frame sl items))

/-- HEARTBEAT_SEND (R215, 09_slot_guarantee.md): The home sends a heartbeat every HB_PERIOD on each HB_PATHS port. -/
def execHeartbeatSend (s : State) : Host.Outcome State Fault Refusal :=
  s.onLive (heartbeatSend)

/-- HEARTBEAT_RECEIVE (R218, 09_slot_guarantee.md): A heartbeat or acknowledgement is received, and a home finding a higher epoch stops the cell. -/
def execHeartbeatReceive (port : Fin 6) (src : W16) (msg : PeerMsg) (s : State) : Host.Outcome State Fault Refusal :=
  s.onLive (heartbeatReceive port src msg)

/-- HOME_LOSS_DETECT (R215, 09_slot_guarantee.md): After HB_MISS missed periods on every path, the peer is declared lost and takeover begins. -/
def execHomeLossDetect (peer : W16) (events : List ArmedEvent) (s : State) : Host.Outcome State Fault Refusal :=
  s.onLive (homeLossDetect peer events)

/-- HANDOVER (R216, 09_slot_guarantee.md): CELL_CTL.HANDOVER begins a handover of the cell to its shadow at frame boundary T. -/
def execHandover (cell : Fin 1024) (s : State) : Host.Outcome State Fault Refusal :=
  s.onLive (handover cell)

/-- HANDOVER_MESSAGE (R216, 09_slot_guarantee.md): A shadow receives a handover message and prepares to take the cell at T. -/
def execHandoverMessage (src : W16) (cell : Fin 1024) (boundary : Int) (events : List ArmedEvent) (s : State) : Host.Outcome State Fault Refusal :=
  s.onLive (handoverMessage src cell boundary events)

/-- CELL_RELEASE (R218, 09_slot_guarantee.md): CELL_CTL.RELEASE stops the cell at its next frame boundary. -/
def execCellRelease (cell : Fin 1024) (s : State) : Host.Outcome State Fault Refusal :=
  s.onLive (cellRelease cell)

/-- LINK_HO_EXPIRY (R216, 09_slot_guarantee.md): A sub-port link-down lasting LINK_HO triggers a handover. -/
def execLinkHoExpiry (cell : Fin 1024) (s : State) : Host.Outcome State Fault Refusal :=
  s.onLive (linkHoExpiry cell)

/-- TAKEOVER_BOUNDARY (R216, 09_slot_guarantee.md): At frame boundary T the taking-over cell becomes active with a new epoch, or down without valid radio time. -/
def execTakeoverBoundary (cell : Fin 1024) (s : State) : Host.Outcome State Fault Refusal :=
  s.onLive (takeoverBoundary cell)

/-- MISS_HI_READ (R219, 09_slot_guarantee.md): A read of MISS_HI latches the head miss-ring entry. -/
def execMissHiRead (r : Requester) (s : State) : Host.Outcome State Fault Refusal :=
  s.onLive (fun d => d.access r (missHiRead r))

/-- MISS_LO_READ (R219, 09_slot_guarantee.md): A read of MISS_LO returns the rest of the entry and pops it. -/
def execMissLoRead (r : Requester) (s : State) : Host.Outcome State Fault Refusal :=
  s.onLive (fun d => d.access r (missLoRead r))

/-- COOLING_FAULT (R208, 09_slot_guarantee.md): The junction reaching 105 °C with nothing left to throttle starts cooling-fault shedding. -/
def execCoolingFault (s : State) : Host.Outcome State Fault Refusal :=
  s.onRunning (coolingFault)

/-- RADIO_POOL_RELOAD_COMPLETE (R200, 09_slot_guarantee.md): Firmware finishes reloading radio programs and hot state into a newly designated radio-home quire pool, and the ream's pool capacity returns. -/
def execRadioPoolReloadComplete (ream : Fin 4) (s : State) : Host.Outcome State Fault Refusal :=
  s.onLive (radioPoolReloadComplete ream)

/-- CELL_BOUNDARY_STOP (R212, 09_slot_guarantee.md): A cell under RELEASE, shed or handover stops at its next slot or frame boundary and goes to down or shed. -/
def execCellBoundaryStop (cell : Fin 1024) (s : State) : Host.Outcome State Fault Refusal :=
  s.onLive (cellBoundaryStop cell)

/-- STRIP_ENGINE_WATCHDOG (R198, 08_high_phy.md): A coding-strip engine's watchdog expires and the engine is reported with cause engine watchdog. -/
def execStripEngineWatchdog (ream : Fin 4) (engine : Fin 36) (s : State) : Host.Outcome State Fault Refusal :=
  s.onLive (stripEngineWatchdog ream engine)

end Sys2Proof.Machine
end

