-- ==== Sys2Proof/Machine/ExecSheet.lean ====
section
/-! DEFINITION. The meanings of the commands of sheets and their instructions: one for each row, each a lift of its effect on the part. -/

namespace Sys2Proof.Machine

/-- SPLIT_REDUCTION_COMBINE (R64, 03_arithmetic.md): When every task of a command has committed, the held partials of each destination are combined in the fixed tree and converted. -/
def execSplitReductionCombine (cmd : Nat) (s : State) : Host.Outcome State Fault Refusal :=
  s.onLive (splitReductionCombine cmd)

/-- SCALAR_INSTRUCTION (R70, 04_sheet_core.md): An RV32IMC instruction executes on the control core, with scalar felt accesses ordered against FX instructions. -/
def execScalarInstruction (sheet : SheetAt) (word : W32) (s : State) : Host.Outcome State Fault Refusal :=
  s.onLive (fun c => c.submit sheet (.scalarInstruction sheet word))

/-- CSR_WRITE (R76, 04_sheet_core.md): A write to an FX control and status register takes effect for later instructions in program order. -/
def execCsrWrite (sheet : SheetAt) (csr : BitVec 12) (v : W32) (s : State) : Host.Outcome State Fault Refusal :=
  s.onLive (fun c => c.submit sheet (.csrWrite sheet csr v))

/-- FX_VADD (R78, 04_sheet_core.md): Lane-wise sum of two vector registers, rounded once. -/
def execFxVadd (sheet : SheetAt) (o : FxOps) (s : State) : Host.Outcome State Fault Refusal :=
  s.onLive (fun c => c.submit sheet (.fxVadd sheet o))

/-- FX_VSUB (R78, 04_sheet_core.md): Lane-wise difference of two vector registers. -/
def execFxVsub (sheet : SheetAt) (o : FxOps) (s : State) : Host.Outcome State Fault Refusal :=
  s.onLive (fun c => c.submit sheet (.fxVsub sheet o))

/-- FX_VMUL (R78, 04_sheet_core.md): Lane-wise product of two vector registers. -/
def execFxVmul (sheet : SheetAt) (o : FxOps) (s : State) : Host.Outcome State Fault Refusal :=
  s.onLive (fun c => c.submit sheet (.fxVmul sheet o))

/-- FX_VFMA (R78, 04_sheet_core.md): Lane-wise fused multiply-add into vd, rounded once. -/
def execFxVfma (sheet : SheetAt) (o : FxOps) (s : State) : Host.Outcome State Fault Refusal :=
  s.onLive (fun c => c.submit sheet (.fxVfma sheet o))

/-- FX_VMIN (R78, 04_sheet_core.md): Lane-wise IEEE minimumNumber. -/
def execFxVmin (sheet : SheetAt) (o : FxOps) (s : State) : Host.Outcome State Fault Refusal :=
  s.onLive (fun c => c.submit sheet (.fxVmin sheet o))

/-- FX_VMAX (R78, 04_sheet_core.md): Lane-wise IEEE maximumNumber. -/
def execFxVmax (sheet : SheetAt) (o : FxOps) (s : State) : Host.Outcome State Fault Refusal :=
  s.onLive (fun c => c.submit sheet (.fxVmax sheet o))

/-- FX_VCMPLT (R78, 04_sheet_core.md): Lane-wise less-than comparison into all-ones or zero. -/
def execFxVcmplt (sheet : SheetAt) (o : FxOps) (s : State) : Host.Outcome State Fault Refusal :=
  s.onLive (fun c => c.submit sheet (.fxVcmplt sheet o))

/-- FX_VCMPEQ (R78, 04_sheet_core.md): Lane-wise equality comparison into all-ones or zero. -/
def execFxVcmpeq (sheet : SheetAt) (o : FxOps) (s : State) : Host.Outcome State Fault Refusal :=
  s.onLive (fun c => c.submit sheet (.fxVcmpeq sheet o))

/-- FX_VSEL (R78, 04_sheet_core.md): Lane-wise select by v0. -/
def execFxVsel (sheet : SheetAt) (o : FxOps) (s : State) : Host.Outcome State Fault Refusal :=
  s.onLive (fun c => c.submit sheet (.fxVsel sheet o))

/-- FX_VAND (R78, 04_sheet_core.md): Lane-wise bitwise AND. -/
def execFxVand (sheet : SheetAt) (o : FxOps) (s : State) : Host.Outcome State Fault Refusal :=
  s.onLive (fun c => c.submit sheet (.fxVand sheet o))

/-- FX_VOR (R78, 04_sheet_core.md): Lane-wise bitwise OR. -/
def execFxVor (sheet : SheetAt) (o : FxOps) (s : State) : Host.Outcome State Fault Refusal :=
  s.onLive (fun c => c.submit sheet (.fxVor sheet o))

/-- FX_VXOR (R78, 04_sheet_core.md): Lane-wise bitwise XOR. -/
def execFxVxor (sheet : SheetAt) (o : FxOps) (s : State) : Host.Outcome State Fault Refusal :=
  s.onLive (fun c => c.submit sheet (.fxVxor sheet o))

/-- FX_VSHL (R78, 04_sheet_core.md): Lane-wise left shift. -/
def execFxVshl (sheet : SheetAt) (o : FxOps) (s : State) : Host.Outcome State Fault Refusal :=
  s.onLive (fun c => c.submit sheet (.fxVshl sheet o))

/-- FX_VSHRA (R78, 04_sheet_core.md): Lane-wise arithmetic right shift. -/
def execFxVshra (sheet : SheetAt) (o : FxOps) (s : State) : Host.Outcome State Fault Refusal :=
  s.onLive (fun c => c.submit sheet (.fxVshra sheet o))

/-- FX_VCVT (R56, 03_arithmetic.md): Lane-wise conversion between FP32 and INT32. -/
def execFxVcvt (sheet : SheetAt) (o : FxOps) (s : State) : Host.Outcome State Fault Refusal :=
  s.onLive (fun c => c.submit sheet (.fxVcvt sheet o))

/-- FX_VRSUM (R78, 04_sheet_core.md): Sum of the 64 lanes in the fixed tree into lane 0. -/
def execFxVrsum (sheet : SheetAt) (o : FxOps) (s : State) : Host.Outcome State Fault Refusal :=
  s.onLive (fun c => c.submit sheet (.fxVrsum sheet o))

/-- FX_VRMAX (R78, 04_sheet_core.md): Largest lane into lane 0. -/
def execFxVrmax (sheet : SheetAt) (o : FxOps) (s : State) : Host.Outcome State Fault Refusal :=
  s.onLive (fun c => c.submit sheet (.fxVrmax sheet o))

/-- FX_VPERM (R78, 04_sheet_core.md): Lane permutation by index vector. -/
def execFxVperm (sheet : SheetAt) (o : FxOps) (s : State) : Host.Outcome State Fault Refusal :=
  s.onLive (fun c => c.submit sheet (.fxVperm sheet o))

/-- FX_VFN (R58, 03_arithmetic.md): Function-unit evaluation of exp, reciprocal, activations and the like per lane. -/
def execFxVfn (sheet : SheetAt) (o : FxOps) (s : State) : Host.Outcome State Fault Refusal :=
  s.onLive (fun c => c.submit sheet (.fxVfn sheet o))

/-- FX_VCMUL (R87, 04_sheet_core.md): Lane-wise CI16 complex product scaled by 2^-15. -/
def execFxVcmul (sheet : SheetAt) (o : FxOps) (s : State) : Host.Outcome State Fault Refusal :=
  s.onLive (fun c => c.submit sheet (.fxVcmul sheet o))

/-- FX_VCMULC (R87, 04_sheet_core.md): Lane-wise CI16 product with the conjugate of vs2. -/
def execFxVcmulc (sheet : SheetAt) (o : FxOps) (s : State) : Host.Outcome State Fault Refusal :=
  s.onLive (fun c => c.submit sheet (.fxVcmulc sheet o))

/-- FX_VCMAG (R87, 04_sheet_core.md): Lane-wise I squared plus Q squared into INT32. -/
def execFxVcmag (sheet : SheetAt) (o : FxOps) (s : State) : Host.Outcome State Fault Refusal :=
  s.onLive (fun c => c.submit sheet (.fxVcmag sheet o))

/-- FX_VSCALE (R78, 04_sheet_core.md): Lane-wise scaling by a power of two. -/
def execFxVscale (sheet : SheetAt) (o : FxOps) (s : State) : Host.Outcome State Fault Refusal :=
  s.onLive (fun c => c.submit sheet (.fxVscale sheet o))

/-- FX_VMVXS (R78, 04_sheet_core.md): Moves lane 0 into a scalar register. -/
def execFxVmvxs (sheet : SheetAt) (o : FxOps) (s : State) : Host.Outcome State Fault Refusal :=
  s.onLive (fun c => c.submit sheet (.fxVmvxs sheet o))

/-- FX_VLD (R78, 04_sheet_core.md): Loads one felt line into a vector register. -/
def execFxVld (sheet : SheetAt) (o : FxOps) (found : FeltRead) (s : State) : Host.Outcome State Fault Refusal :=
  s.onLive (fun c => c.submit sheet (.fxVld sheet o found))

/-- FX_VST (R78, 04_sheet_core.md): Stores one vector register into a felt line. -/
def execFxVst (sheet : SheetAt) (o : FxOps) (s : State) : Host.Outcome State Fault Refusal :=
  s.onLive (fun c => c.submit sheet (.fxVst sheet o))

/-- FX_VLD2 (R78, 04_sheet_core.md): Loads two felt lines into an even register pair in one cycle. -/
def execFxVld2 (sheet : SheetAt) (o : FxOps) (s : State) : Host.Outcome State Fault Refusal :=
  s.onLive (fun c => c.submit sheet (.fxVld2 sheet o))

/-- FX_VLDX (R78, 04_sheet_core.md): Converting load of 64 elements of FMT_A into lane type FMT_D. -/
def execFxVldx (sheet : SheetAt) (o : FxOps) (s : State) : Host.Outcome State Fault Refusal :=
  s.onLive (fun c => c.submit sheet (.fxVldx sheet o))

/-- FX_VSTX (R49, 03_arithmetic.md): Converting store of 64 lanes into FMT_D, with MX scale computation. -/
def execFxVstx (sheet : SheetAt) (o : FxOps) (s : State) : Host.Outcome State Fault Refusal :=
  s.onLive (fun c => c.submit sheet (.fxVstx sheet o))

/-- FX_VGATH (R78, 04_sheet_core.md): Gathers 32-bit felt words at per-lane offsets. -/
def execFxVgath (sheet : SheetAt) (o : FxOps) (s : State) : Host.Outcome State Fault Refusal :=
  s.onLive (fun c => c.submit sheet (.fxVgath sheet o))

/-- FX_VSCAT (R78, 04_sheet_core.md): Scatters 32-bit lanes to felt at per-lane offsets, the highest lane winning. -/
def execFxVscat (sheet : SheetAt) (o : FxOps) (s : State) : Host.Outcome State Fault Refusal :=
  s.onLive (fun c => c.submit sheet (.fxVscat sheet o))

/-- FELT_FORM (R77, 04_sheet_core.md): A custom-1 felt form performs a custom-0 vector operation with source lines read from felt addresses. -/
def execFeltForm (sheet : SheetAt) (f : Fin 32) (o : FxOps) (s : State) : Host.Outcome State Fault Refusal :=
  s.onLive (fun c => c.submit sheet (.feltForm sheet f o))

/-- FX_TAPLD (R78, 04_sheet_core.md): Loads 16 filter taps from felt into a tap bank. -/
def execFxTapld (sheet : SheetAt) (o : FxOps) (s : State) : Host.Outcome State Fault Refusal :=
  s.onLive (fun c => c.submit sheet (.fxTapld sheet o))

/-- FX_TAPMV (R86, 04_sheet_core.md): Applies a polyphase FIR filter to the window and moves it forward, refilling from felt. -/
def execFxTapmv (sheet : SheetAt) (o : FxOps) (s : State) : Host.Outcome State Fault Refusal :=
  s.onLive (fun c => c.submit sheet (.fxTapmv sheet o))

/-- FX_DEMAP (R87, 04_sheet_core.md): Computes scaled max-log LLRs of 64 symbols and writes them to felt. -/
def execFxDemap (sheet : SheetAt) (o : FxOps) (s : State) : Host.Outcome State Fault Refusal :=
  s.onLive (fun c => c.submit sheet (.fxDemap sheet o))

/-- FX_CBXUPK (R87, 04_sheet_core.md): Unpacks five CBX12 PRBs into CI16 lanes with their GAIN fields. -/
def execFxCbxupk (sheet : SheetAt) (o : FxOps) (s : State) : Host.Outcome State Fault Refusal :=
  s.onLive (fun c => c.submit sheet (.fxCbxupk sheet o))

/-- FX_CBXPK (R87, 04_sheet_core.md): Packs 60 CI16 lanes into five CBX12 PRBs. -/
def execFxCbxpk (sheet : SheetAt) (o : FxOps) (s : State) : Host.Outcome State Fault Refusal :=
  s.onLive (fun c => c.submit sheet (.fxCbxpk sheet o))

/-- FX_MMA (R81, 04_sheet_core.md): Matrix multiply-accumulate of STEPS groups into an accumulator bank in packed, sheet or joined mode. -/
def execFxMma (sheet : SheetAt) (o : FxOps) (residue : Fin 3) (s : State) : Host.Outcome State Fault Refusal :=
  s.onLive (fun c => c.submit sheet (.fxMma sheet o residue))

/-- FX_ACCRD (R84, 04_sheet_core.md): Writes an accumulator bank to felt converted to FMT_D. -/
def execFxAccrd (sheet : SheetAt) (o : FxOps) (s : State) : Host.Outcome State Fault Refusal :=
  s.onLive (fun c => c.submit sheet (.fxAccrd sheet o))

/-- FX_ACCLD (R84, 04_sheet_core.md): Loads an accumulator bank from felt and sets its type. -/
def execFxAccld (sheet : SheetAt) (o : FxOps) (s : State) : Host.Outcome State Fault Refusal :=
  s.onLive (fun c => c.submit sheet (.fxAccld sheet o))

/-- FX_ACCZ (R84, 04_sheet_core.md): Zeroes an accumulator bank. -/
def execFxAccz (sheet : SheetAt) (o : FxOps) (s : State) : Host.Outcome State Fault Refusal :=
  s.onLive (fun c => c.submit sheet (.fxAccz sheet o))

/-- FX_ACCMV (R84, 04_sheet_core.md): Moves four bank rows into a vector register. -/
def execFxAccmv (sheet : SheetAt) (o : FxOps) (s : State) : Host.Outcome State Fault Refusal :=
  s.onLive (fun c => c.submit sheet (.fxAccmv sheet o))

/-- MATRIX_DRAIN_COMPLETE (R109, 05_cube_array.md): A matrix instruction's drain ends and its bank or felt destination becomes ready. -/
def execMatrixDrainComplete (sheet : SheetAt) (target : DrainTarget) (s : State) : Host.Outcome State Fault Refusal :=
  s.onLive (matrixDrainComplete sheet target)

/-- JOINED_STEP_FIRE (R105, 05_cube_array.md): The quire fires a joined step once all 64 sheets have issued their n-th joined instruction and the held tiles are ready. -/
def execJoinedStepFire (q : QuireAt) (mismatches : Fin 3) (s : State) : Host.Outcome State Fault Refusal :=
  s.onLive (joinedStepFire q mismatches)

/-- DMA_FILL_COMPLETE (R80, 04_sheet_core.md): A transfer's fill of a destination line completes and marks it ready, or holds 0 after a drop. -/
def execDmaFillComplete (sheet : SheetAt) (tag line inc : Nat) (s : State) : Host.Outcome State Fault Refusal :=
  s.onLive (fun c => (dmaFillComplete sheet tag line inc c).pump (sheetKey sheet))

/-- FX_TFENCE (R88, 04_sheet_core.md): Orders earlier committed drains of the context before the task's later reads. -/
def execFxTfence (sheet : SheetAt) (o : FxOps) (s : State) : Host.Outcome State Fault Refusal :=
  s.onLive (fun c => c.submit sheet (.fxTfence sheet o))

/-- FX_FENCE (R88, 04_sheet_core.md): Waits for every older FX instruction, fills included, to complete. -/
def execFxFence (sheet : SheetAt) (o : FxOps) (s : State) : Host.Outcome State Fault Refusal :=
  s.onLive (fun c => c.submit sheet (.fxFence sheet o))

/-- FX_WAITRDY (R80, 04_sheet_core.md): Waits until every line of a felt range is ready. -/
def execFxWaitrdy (sheet : SheetAt) (o : FxOps) (s : State) : Host.Outcome State Fault Refusal :=
  s.onLive (fun c => c.submit sheet (.fxWaitrdy sheet o))

/-- FX_MKRDY (R80, 04_sheet_core.md): Marks a felt range ready. -/
def execFxMkrdy (sheet : SheetAt) (o : FxOps) (s : State) : Host.Outcome State Fault Refusal :=
  s.onLive (fun c => c.submit sheet (.fxMkrdy sheet o))

/-- FX_CLRRDY (R80, 04_sheet_core.md): Marks a felt range not ready. -/
def execFxClrrdy (sheet : SheetAt) (o : FxOps) (s : State) : Host.Outcome State Fault Refusal :=
  s.onLive (fun c => c.submit sheet (.fxClrrdy sheet o))

/-- FX_WAITEV (R88, 04_sheet_core.md): Begins a wait for a message, a nonzero input word or a completion token. -/
def execFxWaitev (sheet : SheetAt) (o : FxOps) (s : State) : Host.Outcome State Fault Refusal :=
  s.onLive (fun c => c.submit sheet (.fxWaitev sheet o))

/-- WAITEV_COMPLETE (R88, 04_sheet_core.md): The awaited event occurs and FX.WAITEV completes with rd set to 0. -/
def execWaitevComplete (sheet : SheetAt) (s : State) : Host.Outcome State Fault Refusal :=
  s.onLive (waitevComplete sheet)

/-- FX_STREC (R90, 04_sheet_core.md): Creates a commit record placing stager bytes into an output slot. -/
def execFxStrec (sheet : SheetAt) (o : FxOps) (s : State) : Host.Outcome State Fault Refusal :=
  s.onLive (fun c => c.submit sheet (.fxStrec sheet o))

/-- FX_STRED (R90, 04_sheet_core.md): Creates a split-reduction partial for a reduction slot and destination. -/
def execFxStred (sheet : SheetAt) (o : FxOps) (s : State) : Host.Outcome State Fault Refusal :=
  s.onLive (fun c => c.submit sheet (.fxStred sheet o))

/-- FX_COMMIT (R91, 04_sheet_core.md): Ends the task and waits for older instructions and a free commit slot. -/
def execFxCommit (sheet : SheetAt) (o : FxOps) (s : State) : Host.Outcome State Fault Refusal :=
  s.onLive (fun c => c.submit sheet (.fxCommit sheet o))

/-- COMMIT_BEGIN (R91, 04_sheet_core.md): The commit copies records and stager bytes into the slot, ORs flags and writes the commit record. -/
def execCommitBegin (sheet : SheetAt) (s : State) : Host.Outcome State Fault Refusal :=
  s.onLive (commitBegin sheet)

/-- COMMIT_DRAIN_COMPLETE (R91, 04_sheet_core.md): The quire finishes draining a committed slot to its destinations and frees it. -/
def execCommitDrainComplete (sheet : SheetAt) (s : State) : Host.Outcome State Fault Refusal :=
  s.onLive (commitDrainComplete sheet)

/-- FX_RTWAIT (R89, 04_sheet_core.md): A radio task begins waiting for a radio-time instant, or completes at once when due or past. -/
def execFxRtwait (sheet : SheetAt) (o : FxOps) (s : State) : Host.Outcome State Fault Refusal :=
  s.onLive (fun c => c.submit sheet (.fxRtwait sheet o))

/-- RTWAIT_COMPLETE (R89, 04_sheet_core.md): The awaited radio-time instant arrives and FX.RTWAIT completes. -/
def execRtwaitComplete (sheet : SheetAt) (s : State) : Host.Outcome State Fault Refusal :=
  s.onLive (rtwaitComplete sheet)

/-- FX_RAND (R78, 04_sheet_core.md): Fills lanes with generator words for a non-rounding purpose. -/
def execFxRand (sheet : SheetAt) (o : FxOps) (s : State) : Host.Outcome State Fault Refusal :=
  s.onLive (fun c => c.submit sheet (.fxRand sheet o))

/-- KILL_REQUEST (R92, 04_sheet_core.md): A kill request stops a task that has not begun its commit and starts the sheet's release. -/
def execKillRequest (sheet : SheetAt) (s : State) : Host.Outcome State Fault Refusal :=
  s.onLive (killRequest sheet)

/-- SHEET_RELEASE_COMPLETE (R92, 04_sheet_core.md): The sheet finishes its release and reports itself free. -/
def execSheetReleaseComplete (sheet : SheetAt) (s : State) : Host.Outcome State Fault Refusal :=
  s.onLive (sheetReleaseComplete sheet)

/-- FELT_UNCORRECTABLE_ERROR (R95, 04_sheet_core.md): An uncorrectable felt, parity or repeated residue error makes the sheet kill its task and report to its quire. -/
def execFeltUncorrectableError (sheet : SheetAt) (cause : SheetCause) (s : State) : Host.Outcome State Fault Refusal :=
  s.onLive (feltUncorrectableError sheet cause)

/-- PATROL_SCRUB (R73, 04_sheet_core.md): The patrol scrubber reads one felt ECC word every 256 cycles. -/
def execPatrolScrub (sheet : SheetAt) (found : FeltRead) (s : State) : Host.Outcome State Fault Refusal :=
  s.onLive (patrolScrub sheet found)

/-- SCRUB_NOW (R97, 04_sheet_core.md): SHEET_CTL.SCRUB_NOW starts a patrol pass at once. -/
def execScrubNow (r : Requester) (sheet : SheetAt) (s : State) : Host.Outcome State Fault Refusal :=
  s.onLive (fun d => d.access r (scrubNow r sheet))

/-- SHEET_RETIRE (R97, 04_sheet_core.md): SHEET_CTL.RETIRE retires the sheet at its next task boundary and maps a spare when free. -/
def execSheetRetire (sheet : SheetAt) (s : State) : Host.Outcome State Fault Refusal :=
  s.onLive (sheetRetire sheet)

/-- SHEET_RETURN (R96, 04_sheet_core.md): A returning sheet zeroes its state, clears tags, increments its incarnation and runs self-test. -/
def execSheetReturn (sheet : SheetAt) (s : State) : Host.Outcome State Fault Refusal :=
  s.onLive (sheetReturn sheet)

end Sys2Proof.Machine
end

