-- ==== Sys2Proof/Machine/ExecSystem.lean ====
section
/-! DEFINITION. The meanings of the commands of accesses, counters, start-up, the monitor, power and heat: one for each row, each a lift of its effect on the part. -/

namespace Sys2Proof.Machine

/-- REGISTER_WRITE (R6, 00_scope.md): A host, firmware or monitor write to a register that has no row of its own updates its fields under the access words. -/
def execRegisterWrite (r : Requester) (addr : Nat) (size8 : Bool) (v : W64) (s : State) : Host.Outcome State Fault Refusal :=
  s.guarded (decide (addr < addressSpan)) (s.onRunning (fun c => c.onPort r (registerWrite r addr size8 v)))

/-- VALUE_WORD_WRITE (R7, 00_scope.md): A write to the value word of a complemented pair is held for the requester until the complement arrives. -/
def execValueWordWrite (r : Requester) (addr : Nat) (v : W64) (s : State) : Host.Outcome State Fault Refusal :=
  s.guarded (decide (addr < addressSpan)) (s.onRunning (fun c => c.onPort r (valueWordWrite r addr v)))

/-- COMPLEMENT_WORD_WRITE (R7, 00_scope.md): A write to the complement word compares the pair and either applies the new value or keeps the old one and raises INTEGRITY. -/
def execComplementWordWrite (r : Requester) (addr : Nat) (v : W64) (s : State) : Host.Outcome State Fault Refusal :=
  s.guarded (decide (addr < addressSpan)) (s.onRunning (fun c => c.onPort r (complementWordWrite r addr v)))

/-- LOW_HALF_READ (R397, 17_register_map.md): A 32-bit read of the low half of a 64-bit register reads it in full and latches the high half for the requester. -/
def execLowHalfRead (r : Requester) (addr : Nat) (s : State) : Host.Outcome State Fault Refusal :=
  s.guarded (decide (addr < addressSpan)) (s.onRunning (fun c => c.onPort r (lowHalfRead r addr)))

/-- HIGH_HALF_READ (R397, 17_register_map.md): A 32-bit read of the high half returns the latched half, or otherwise reads the register in full. -/
def execHighHalfRead (r : Requester) (addr : Nat) (s : State) : Host.Outcome State Fault Refusal :=
  s.guarded (decide (addr < addressSpan)) (s.onRunning (fun c => c.onPort r (highHalfRead r addr)))

/-- LOW_HALF_WRITE (R397, 17_register_map.md): A 32-bit write of the low half is held until the matching high-half write. -/
def execLowHalfWrite (r : Requester) (addr : Nat) (v : W32) (s : State) : Host.Outcome State Fault Refusal :=
  s.guarded (decide (addr < addressSpan)) (s.onRunning (fun c => c.onPort r (lowHalfWrite r addr v)))

/-- HIGH_HALF_WRITE (R397, 17_register_map.md): A 32-bit write of the high half writes both halves together, or writes with a low half of 0. -/
def execHighHalfWrite (r : Requester) (addr : Nat) (v : W32) (s : State) : Host.Outcome State Fault Refusal :=
  s.guarded (decide (addr < addressSpan)) (s.onRunning (fun c => c.onPort r (highHalfWrite r addr v)))

/-- UNSUPPORTED_REQUEST (R397, 17_register_map.md): A BAR access that is not 4 or 8 bytes and naturally aligned completes with Unsupported Request and has no effect. -/
def execUnsupportedRequest (r : Requester) (addr : Nat) (size : Nat) (s : State) : Host.Outcome State Fault Refusal :=
  s.guarded (decide (addr < addressSpan)) (s.onRunning (fun c => c.onPort r (unsupportedRequest r addr size)))

/-- UNASSIGNED_ACCESS (R398, 17_register_map.md): An access to an unassigned BAR offset reads 0 or is ignored and is counted in UNMAPPED_CNT. -/
def execUnassignedAccess (r : Requester) (addr : Nat) (isWrite : Bool) (s : State) : Host.Outcome State Fault Refusal :=
  s.guarded (decide (addr < addressSpan)) (s.onRunning (fun c => c.onPort r (unassignedAccess r addr isWrite)))

/-- CHANGE_LOG_SPILL (R375, 15_start_image_monitor.md): Firmware spills change-log entries in order from the on-chip ring to the HBM ring. -/
def execChangeLogSpill (s : State) : Host.Outcome State Fault Refusal :=
  s.onRunning (changeLogSpill)

/-- FX_CNTRD (R390, 16_counters.md): Reads half of a sheet performance counter when the deckle and counter permit. -/
def execFxCntrd (sheet : SheetAt) (o : FxOps) (s : State) : Host.Outcome State Fault Refusal :=
  s.onLive (fun c => c.submit sheet (.fxCntrd sheet o))

/-- PWROK_RISE (R418, 18_package_power.md): PWROK rising starts the boot ROM, samples CARD_ID and starts UPTIME. -/
def execPwrokRise (cardId : BitVec 4) (failed : List SheetAt) (s : State) : Host.Outcome State Fault Refusal :=
  s.onAny (pwrokRise cardId failed)

/-- PWROK_FALL (R359, 15_start_image_monitor.md): PWROK low resets the whole part except OTP and flash. -/
def execPwrokFall (s : State) : Host.Outcome State Fault Refusal :=
  s.onAny (pwrokFall)

/-- RESET_N_ASSERT (R359, 15_start_image_monitor.md): RESET_N low resets all logic while keeping retirements, health, log and incarnation sectors. -/
def execResetNAssert (s : State) : Host.Outcome State Fault Refusal :=
  s.onAny (resetNAssert)

/-- RESET_N_RELEASE (R361, 15_start_image_monitor.md): RESET_N rising with PWROK high starts the boot sequence. -/
def execResetNRelease (s : State) : Host.Outcome State Fault Refusal :=
  s.onAny (resetNRelease)

/-- PERST_N_ASSERT (R360, 15_start_image_monitor.md): PERST_N resets the host port and deletes every ring in host windows. -/
def execPerstNAssert (s : State) : Host.Outcome State Fault Refusal :=
  s.onAny (perstNAssert)

/-- FURNISH_VERIFY (R366, 15_start_image_monitor.md): The boot ROM verifies both furnish copies, advances CHIP_INC and starts firmware, or enters recovery mode. -/
def execFurnishVerify (a b : FurnishCopy) (readError : Bool) (inc : IncarnationOutcome) (s : State) : Host.Outcome State Fault Refusal :=
  s.guarded (copyOk a && copyOk b) (s.onRunning (furnishVerify a b readError inc))

/-- RECORDS_APPLY (R370, 15_start_image_monitor.md): At stage 2 firmware applies configuration records in image order, rejecting and logging bad ones. -/
def execRecordsApply (recs : List FurnishRecord) (s : State) : Host.Outcome State Fault Refusal :=
  s.guarded (decide (recs.length ≤ 65536) && recs.all recordOk) (s.onRunning (recordsApply recs))

/-- LINKS_UP (R361, 15_start_image_monitor.md): Ethernet and fabric links come up, reaching stage 4. -/
def execLinksUp (s : State) : Host.Outcome State Fault Refusal :=
  s.onRunning (linksUp)

/-- FURNISH_CELL_ADMIT (R362, 15_start_image_monitor.md): When radio time is first valid, firmware admits the furnish cells in order and reaches stage 5. -/
def execFurnishCellAdmit (s : State) : Host.Outcome State Fault Refusal :=
  s.onRunning (furnishCellAdmit)

/-- START_SLOW (R362, 15_start_image_monitor.md): Radio time still not valid 120 s after start sets STICKY_SLOW. -/
def execStartSlow (s : State) : Host.Outcome State Fault Refusal :=
  s.onRunning (startSlow)

/-- FLASH_ERASE (R368, 15_start_image_monitor.md): FLASH_CMD erase clears 64 KiB of flash unless it touches the copy in use or an incarnation sector. -/
def execFlashErase (r : Requester) (s : State) : Host.Outcome State Fault Refusal :=
  s.onAnswering (fun d => d.access r (flashErase r))

/-- FLASH_PROGRAM (R368, 15_start_image_monitor.md): FLASH_CMD program writes 256 bytes from FLASH_BUF to flash. -/
def execFlashProgram (r : Requester) (s : State) : Host.Outcome State Fault Refusal :=
  s.onAnswering (fun d => d.access r (flashProgram r))

/-- FLASH_READ (R381, 15_start_image_monitor.md): FLASH_CMD read copies 256 bytes of flash into FLASH_BUF. -/
def execFlashRead (r : Requester) (s : State) : Host.Outcome State Fault Refusal :=
  s.onAnswering (fun d => d.access r (flashRead r))

/-- FLASH_OP_COMPLETE (R381, 15_start_image_monitor.md): A flash operation ends and FLASH_STAT.BUSY clears. -/
def execFlashOpComplete (ok : Bool) (s : State) : Host.Outcome State Fault Refusal :=
  s.onRunning (flashOpComplete ok)

/-- LOG_FETCH (R381, 15_start_image_monitor.md): A LOG_SEL write fetches that change-log entry into LOG_ENT with its result. -/
def execLogFetch (r : Requester) (seq : W64) (s : State) : Host.Outcome State Fault Refusal :=
  s.onLive (fun d => d.access r (logFetch r seq))

/-- ID (R378, 15_start_image_monitor.md): Monitor command that prints identity, incarnation, furnish copy and stage. -/
def execMonId (s : State) : Host.Outcome State Fault Refusal :=
  s.onRunning (monId)

/-- CAPS (R378, 15_start_image_monitor.md): Monitor command that walks the capability list. -/
def execMonCaps (s : State) : Host.Outcome State Fault Refusal :=
  s.onRunning (monCaps)

/-- LINKS (R378, 15_start_image_monitor.md): Monitor command that prints port and CXL state and counters. -/
def execMonLinks (s : State) : Host.Outcome State Fault Refusal :=
  s.onRunning (monLinks)

/-- CELLS (R378, 15_start_image_monitor.md): Monitor command that prints cell states, admission and timing state. -/
def execMonCells (s : State) : Host.Outcome State Fault Refusal :=
  s.onRunning (monCells)

/-- TENANTS (R378, 15_start_image_monitor.md): Monitor command that prints slot status and use. -/
def execMonTenants (s : State) : Host.Outcome State Fault Refusal :=
  s.onRunning (monTenants)

/-- TEMPS (R378, 15_start_image_monitor.md): Monitor command that prints junction temperatures and throttle state. -/
def execMonTemps (s : State) : Host.Outcome State Fault Refusal :=
  s.onRunning (monTemps)

/-- COUNTERS (R378, 15_start_image_monitor.md): Monitor command that prints chip or block counters. -/
def execMonCounters (block : CounterBlock) (s : State) : Host.Outcome State Fault Refusal :=
  s.onRunning (monCounters block)

/-- LOG (R378, 15_start_image_monitor.md): Monitor command that prints the newest change-log entries decoded. -/
def execMonLog (n : Nat) (s : State) : Host.Outcome State Fault Refusal :=
  s.guarded (decide (n < 2 ^ 32)) (s.onRunning (monLog n))

/-- SELFTEST (R378, 15_start_image_monitor.md): Monitor command that runs the sheet self-test on idle quires. -/
def execMonSelftest (s : State) : Host.Outcome State Fault Refusal :=
  s.onRunning (monSelftest)

/-- BAUD (R377, 15_start_image_monitor.md): Monitor command that changes the UART rate after its reply. -/
def execMonBaud (rate : Nat) (s : State) : Host.Outcome State Fault Refusal :=
  s.guarded (decide (rate < 2 ^ 32)) (s.onRunning (monBaud rate))

/-- UNLOCK (R379, 15_start_image_monitor.md): Monitor command that prints a fresh unlock challenge. -/
def execMonUnlock (s : State) : Host.Outcome State Fault Refusal :=
  s.onRunning (monUnlock)

/-- UNLOCK_RESPONSE (R379, 15_start_image_monitor.md): Monitor command that unlocks on a matching HMAC response, with back-off after wrong ones. -/
def execMonUnlockResponse (resp : W32) (s : State) : Host.Outcome State Fault Refusal :=
  s.onRunning (monUnlockResponse resp)

/-- LOCK (R379, 15_start_image_monitor.md): Monitor command that locks the monitor. -/
def execMonLock (s : State) : Host.Outcome State Fault Refusal :=
  s.onRunning (monLock)

/-- MONITOR_IDLE_LOCK (R379, 15_start_image_monitor.md): After 15 minutes without a command the monitor locks. -/
def execMonitorIdleLock (s : State) : Host.Outcome State Fault Refusal :=
  s.onRunning (monitorIdleLock)

/-- PEEK (R380, 15_start_image_monitor.md): Monitor command that reads BAR0 words without side effects. -/
def execMonPeek (addr n : Nat) (s : State) : Host.Outcome State Fault Refusal :=
  s.guarded (decide (addr < 2 ^ 32) && decide (n < 2 ^ 32)) (s.onRunning (monPeek addr n))

/-- POKE (R380, 15_start_image_monitor.md): Monitor command that writes one BAR0 word as owner 0xF1. -/
def execMonPoke (addr : Nat) (v : W32) (s : State) : Host.Outcome State Fault Refusal :=
  s.guarded (decide (addr < 2 ^ 32)) (s.onRunning (monPoke addr v))

/-- FLASH (R378, 15_start_image_monitor.md): Monitor command that runs a FLASH_CMD operation. -/
def execMonFlash (op : Fin 4) (addr : W32) (s : State) : Host.Outcome State Fault Refusal :=
  s.onRunning (monFlash op addr)

/-- COUNTER_CFG_WRITE (R384, 16_counters.md): A counter configuration write is applied or refused for reserved codes and invalid combinations. -/
def execCounterCfgWrite (r : Requester) (unit : CounterUnit) (n : Nat) (v : W64) (s : State) : Host.Outcome State Fault Refusal :=
  s.guarded (decide (n < counters unit)) (s.onLive (fun d => d.access r (counterCfgWrite r unit n v)))

/-- COUNTER_VALUE_WRITE (R388, 16_counters.md): A counter VALUE write is refused while enabled, else sets VALUE and clears STOPPED. -/
def execCounterValueWrite (r : Requester) (unit : CounterUnit) (n : Nat) (v : W64) (s : State) : Host.Outcome State Fault Refusal :=
  s.guarded (decide (n < counters unit)) (s.onLive (fun d => d.access r (counterValueWrite r unit n v)))

/-- COUNTER_OVERFLOW (R387, 16_counters.md): An increment past the largest value chains into the next counter or stops the counter, sampling and interrupting. -/
def execCounterOverflow (unit : CounterUnit) (n : Nat) (inc : Nat) (pc : W32) (s : State) : Host.Outcome State Fault Refusal :=
  s.guarded (decide (n < counters unit) && decide (inc < 65536)) (s.onLive (fun c => counterOverflow unit n inc pc (c.unitCtx unit) c))

/-- CNT_FREEZE (R388, 16_counters.md): CNT_CTL.FREEZE stops or resumes every counter of the chip. -/
def execCntFreeze (r : Requester) (freeze : Bool) (s : State) : Host.Outcome State Fault Refusal :=
  s.onLive (fun d => d.access r (cntFreeze r freeze))

/-- IRQ_MASK_WRITE (R403, 17_register_map.md): A write to GLB_IRQ_MASK or IRQ_EN that enables an entry with its bit set signals it. -/
def execIrqMaskWrite (r : Requester) (target : IrqTarget) (s : State) : Host.Outcome State Fault Refusal :=
  s.onLive (fun d => d.access r (irqMaskWrite r target))

/-- GPIO_OUT_WRITE (R404, 17_register_map.md): A host write to GPIO_OUT drives output pins, an event on the same pin winning. -/
def execGpioOutWrite (r : Requester) (v : W32) (s : State) : Host.Outcome State Fault Refusal :=
  s.onLive (fun d => d.access r (gpioOutWrite r v))

/-- THROTTLE_N_ASSERT (R422, 18_package_power.md): THROTTLE_N low brings package power within 20 µs to 70% of TDP or the radio floor level. -/
def execThrottleNAssert (s : State) : Host.Outcome State Fault Refusal :=
  s.onAny (throttleNAssert)

/-- THROTTLE_HOLD_EXPIRY (R422, 18_package_power.md): 1 ms after THROTTLE_N rises the throttle is lifted. -/
def execThrottleHoldExpiry (s : State) : Host.Outcome State Fault Refusal :=
  s.onRunning (throttleHoldExpiry)

/-- POWER_MEASURE (R421, 18_package_power.md): Every 10 µs the part measures package power and throttles to hold its limits. -/
def execPowerMeasure (watts : Nat) (s : State) : Host.Outcome State Fault Refusal :=
  s.guarded (decide (watts ≤ 4095)) (s.onRunning (powerMeasure watts))

/-- JUNCTION_ALERT (R423, 18_package_power.md): The junction reaching 95 °C asserts THERM_ALERT_N and throttles, released below 92 °C. -/
def execJunctionAlert (celsius : Nat) (s : State) : Host.Outcome State Fault Refusal :=
  s.guarded (decide (celsius ≤ 150)) (s.onRunning (junctionAlert celsius))

/-- THERMTRIP (R423, 18_package_power.md): The junction reaching 115 °C asserts THERMTRIP_N and stops every clock within 1 ms. -/
def execThermtrip (s : State) : Host.Outcome State Fault Refusal :=
  s.onRunning (thermtrip)

/-- AVS_NO_ACK (R419, 18_package_power.md): A regulator failing three AVSBus attempts keeps its last voltage and limits that die's clock. -/
def execAvsNoAck (bus : AvsBus) (s : State) : Host.Outcome State Fault Refusal :=
  s.onRunning (avsNoAck bus)

/-- SMBUS_BLOCK_READ (R416, 18_package_power.md): SMBus Block Read 0x01 returns identity, health, temperature and power. -/
def execSmbusBlockRead (s : State) : Host.Outcome State Fault Refusal :=
  s.onRunning (smbusBlockRead)

/-- SMBUS_ALERT_RESPONSE (R416, 18_package_power.md): The Alert Response Address cycle that reads the part's address releases MG_ALERT_N. -/
def execSmbusAlertResponse (s : State) : Host.Outcome State Fault Refusal :=
  s.onRunning (smbusAlertResponse)

/-- PERST_N_RELEASE (R360, 15_start_image_monitor.md): PERST_N rises and the host port comes up again, so host-window accesses are no longer aborted. -/
def execPerstNRelease (s : State) : Host.Outcome State Fault Refusal :=
  s.onAny (perstNRelease)

/-- THROTTLE_N_RELEASE (R422, 18_package_power.md): THROTTLE_N rises and starts the 1 ms hold after which the throttle is lifted. -/
def execThrottleNRelease (s : State) : Host.Outcome State Fault Refusal :=
  s.onAny (throttleNRelease)

/-- LOG_FETCH_COMPLETE (R381, 15_start_image_monitor.md): A change-log fetch started by LOG_SEL ends within 2 µs, filling LOG_ENT and setting RESULT while LOG_RD.BUSY clears. -/
def execLogFetchComplete (s : State) : Host.Outcome State Fault Refusal :=
  s.onLive (logFetchComplete)

end Sys2Proof.Machine
end

