-- ==== Sys2Proof/Machine/ExecTenant.lean ====
section
/-! DEFINITION. The meanings of the commands of tenants, slices, mailboxes and locks: one for each row, each a lift of its effect on the part. -/

namespace Sys2Proof.Machine

/-- SLOT_ENABLE (R286, 12_tenants.md): DCK_CTL.ENABLE activates a free slot, generating a key when none is loaded. -/
def execSlotEnable (r : Requester) (slot : Fin 64) (s : State) : Host.Outcome State Fault Refusal :=
  s.onLive (fun d => d.access r (fun d => (slotEnable r slot d).mendWritten r true (R.DCK_CTL slot.val).addr (fput (d.reg (R.DCK_CTL slot.val)) F.DCK_CTL.ENABLE 1)))

/-- SLOT_RELEASE (R287, 12_tenants.md): DCK_CTL.RELEASE moves an active slot to draining and starts emptying it. -/
def execSlotRelease (r : Requester) (slot : Fin 64) (s : State) : Host.Outcome State Fault Refusal :=
  s.onLive (fun d => d.access r (fun d => (slotRelease r slot d).mendWritten r true (R.DCK_CTL slot.val).addr (fput (d.reg (R.DCK_CTL slot.val)) F.DCK_CTL.RELEASE 1)))

/-- SLOT_DRAIN_COMPLETE (R432, 12_tenants.md): Every drain step is done and the slot becomes free. -/
def execSlotDrainComplete (slot : Fin 64) (s : State) : Host.Outcome State Fault Refusal :=
  s.onLive (slotDrainComplete slot)

/-- DECKLE_WRITE (R289, 12_tenants.md): A write to a deckle register is checked against slot conflicts and use, and applied or refused. -/
def execDeckleWrite (r : Requester) (slot : Fin 64) (reg : DeckleReg) (v0 v1 c0 c1 : W64) (s : State) : Host.Outcome State Fault Refusal :=
  s.onLive (fun d => d.access r (fun d => (deckleWrite r slot reg v0 v1 c0 c1 d).mendWritten r (c0 == ~~~ v0) (deckleAddr slot.val reg) v0))

/-- KEY_LOAD (R293, 12_tenants.md): KEY_CMD load sets a free slot's key from the staged value and complement words. -/
def execKeyLoad (r : Requester) (slot : Fin 64) (s : State) : Host.Outcome State Fault Refusal :=
  s.onLive (fun d => d.access r (keyLoad r slot))

/-- KEY_GENERATE (R293, 12_tenants.md): KEY_CMD generate fills a free slot's key from the DRBG. -/
def execKeyGenerate (r : Requester) (slot : Fin 64) (s : State) : Host.Outcome State Fault Refusal :=
  s.onLive (fun d => d.access r (keyGenerate r slot))

/-- SLICE_WRITE (R295, 12_tenants.md): A slice table write binds a doorbell page to a slot and PASID, or is refused. -/
def execSliceWrite (r : Requester) (i : Fin 1024) (v c : W64) (s : State) : Host.Outcome State Fault Refusal :=
  s.onLive (fun d => d.access r (fun d => (sliceWrite r i v c d).mendWritten r (c == ~~~ v) (R.SLICE i.val).addr v))

/-- RING_CREATE (R296, 12_tenants.md): RING_CMD create makes a ring of the staged kind after deckle and window checks. -/
def execRingCreate (slice : Fin 1024) (s : State) : Host.Outcome State Fault Refusal :=
  s.onLive (fun c => c.access (.slice slice) (ringCreate slice))

/-- RING_DELETE (R297, 12_tenants.md): RING_CMD delete removes a ring under the deletion rules of its kind. -/
def execRingDelete (slice : Fin 1024) (s : State) : Host.Outcome State Fault Refusal :=
  s.onLive (fun c => c.access (.slice slice) (ringDelete slice))

/-- RING_READ_BACK (R307, 12_tenants.md): RING_CMD read-back copies a ring's settings into staging. -/
def execRingReadBack (slice : Fin 1024) (s : State) : Host.Outcome State Fault Refusal :=
  s.onLive (fun c => c.access (.slice slice) (ringReadBack slice))

/-- SQ_DELETE_COMPLETE (R297, 12_tenants.md): A deleted SQ's fetched commands have all completed and RING_STAT.BUSY falls. -/
def execSqDeleteComplete (slot : Fin 64) (q : Fin 64) (s : State) : Host.Outcome State Fault Refusal :=
  s.onLive (sqDeleteComplete slot q)

/-- DIRTY_SWAP (R301, 12_tenants.md): DIRTY_CMD swap redirects dirty logging to the other bank and flushes the old one. -/
def execDirtySwap (r : Requester) (slot : Fin 64) (s : State) : Host.Outcome State Fault Refusal :=
  s.onLive (fun d => d.access r (dirtySwap r slot))

/-- DIRTY_SWAP_COMPLETE (R301, 12_tenants.md): The flush into the old bank ends and BUSY clears. -/
def execDirtySwapComplete (slot : Fin 64) (s : State) : Host.Outcome State Fault Refusal :=
  s.onLive (dirtySwapComplete slot)

/-- MBX_OUT_WRITE (R302, 12_tenants.md): A sender's write to MBX_OUT stores a word or counts an overrun. -/
def execMbxOutWrite (r : Requester) (n : Fin 4) (v : W32) (s : State) : Host.Outcome State Fault Refusal :=
  s.onLive (fun d => d.access r (mbxOutWrite r n v))

/-- MBX_IN_READ (R302, 12_tenants.md): The receiver's read of MBX_IN returns the word and clears FULL. -/
def execMbxInRead (r : Requester) (n : Fin 4) (s : State) : Host.Outcome State Fault Refusal :=
  s.onLive (fun d => d.access r (mbxInRead r n))

/-- FIRMWARE_MBX_TAKE (R304, 12_tenants.md): Firmware takes a word toward it within 1 ms and answers it. -/
def execFirmwareMbxTake (side : MbxSide) (n : Fin 4) (s : State) : Host.Outcome State Fault Refusal :=
  s.onLive (firmwareMbxTake side n)

/-- PING (R304, 12_tenants.md): Mailbox word type PING is echoed in a reply. -/
def execPing (side : MbxSide) (n : Fin 4) (s : State) : Host.Outcome State Fault Refusal :=
  s.onLive (mbxPing side n)

/-- USE_QUERY (R304, 12_tenants.md): Mailbox word type USE_QUERY is answered with the tier use in GiB. -/
def execUseQuery (side : MbxSide) (n : Fin 4) (s : State) : Host.Outcome State Fault Refusal :=
  s.onLive (mbxUseQuery side n)

/-- FIRMWARE_MBX_STORE (R302, 12_tenants.md): Firmware stores a queued word into MBX_IN when FULL clears, signalling MBX_VEC. -/
def execFirmwareMbxStore (side : MbxSide) (n : Fin 4) (s : State) : Host.Outcome State Fault Refusal :=
  s.onLive (firmwareMbxStore side n)

/-- SHMBX_WRITE (R303, 12_tenants.md): A write to a shared mailbox by a permitted path behaves as a mailbox send. -/
def execShmbxWrite (r : Requester) (n : Fin 16) (v : W32) (s : State) : Host.Outcome State Fault Refusal :=
  s.onLive (fun d => d.access r (shmbxWrite r n v))

/-- SHMBX_READ (R303, 12_tenants.md): A read of a shared mailbox by a permitted path behaves as a mailbox receive. -/
def execShmbxRead (r : Requester) (n : Fin 16) (s : State) : Host.Outcome State Fault Refusal :=
  s.onLive (fun d => d.access r (shmbxRead r n))

/-- LOCK_READ (R303, 12_tenants.md): A read of a lock takes it when free or returns the owner's number. -/
def execLockRead (r : Requester) (n : Fin 16) (s : State) : Host.Outcome State Fault Refusal :=
  s.onLive (fun d => d.access r (lockRead r n))

/-- LOCK_RELEASE (R303, 12_tenants.md): A write of the owner's number from the owner's path releases the lock. -/
def execLockRelease (r : Requester) (n : Fin 16) (v : W32) (s : State) : Host.Outcome State Fault Refusal :=
  s.onLive (fun d => d.access r (lockRelease r n v))

/-- LOCK_FORCE (R303, 12_tenants.md): A LOCK_FORCE bit write frees a lock and is logged. -/
def execLockForce (r : Requester) (mask : W16) (s : State) : Host.Outcome State Fault Refusal :=
  s.onLive (fun d => d.access r (lockForce r mask))

end Sys2Proof.Machine
end

