-- ==== Sys2Proof/Machine/ExecTime.lean ====
section
/-! DEFINITION. The meanings of the commands of radio time and events: one for each row, each a lift of its effect on the part. -/

namespace Sys2Proof.Machine

/-- RT_OFFSET_WRITE (R27, 02_radio_time.md): A complemented write to RT_OFFSET is ignored while cells are admitted, refused out of range, or else steps radio time. -/
def execRtOffsetWrite (r : Requester) (v c : W32) (s : State) : Host.Outcome State Fault Refusal :=
  s.onLive (fun d => d.access r (fun d => (rtOffsetWrite r v c d).mendWritten r (c == ~~~ v) R.RT_OFFSET.addr (v.setWidth 64)))

/-- CHIP_TIME_SLEW (R28, 02_radio_time.md): Each phase-accumulator step slews chip time by at most 1 ns toward the servo's estimate. -/
def execChipTimeSlew (corr : Int) (s : State) : Host.Outcome State Fault Refusal :=
  s.onLive (chipTimeSlew corr)

/-- CT_SEC_READ (R43, 02_radio_time.md): A read of CT_SEC latches CT_NS, RT_NOW and RT_VIEW for that requester. -/
def execCtSecRead (r : Requester) (s : State) : Host.Outcome State Fault Refusal :=
  s.onLive (fun d => d.access r (ctSecRead r))

/-- DELAY_REQ_SEND (R29, 02_radio_time.md): The PTP slave sends a Delay_Req at 16 per second in egress class 1. -/
def execDelayReqSend (d : Fin 2) (s : State) : Host.Outcome State Fault Refusal :=
  s.onLive (delayReqSend d)

/-- DOMAIN_GOOD (R30, 02_radio_time.md): A domain becomes good after its conditions have held for 16 consecutive Sync intervals, driving timing-state transitions. -/
def execDomainGood (d : Fin 2) (s : State) : Host.Outcome State Fault Refusal :=
  s.onLive (domainGood d)

/-- DOMAIN_LOST (R30, 02_radio_time.md): A domain is lost after LOSS_INTERVALS missed Syncs, an Announce timeout or a clock class above CLASS_MAX, driving timing-state transitions. -/
def execDomainLost (d : Fin 2) (why : DomainLoss) (s : State) : Host.Outcome State Fault Refusal :=
  s.onLive (domainLost d why)

/-- ACQUIRE_LOCK (R31, 02_radio_time.md): After the servo phase error has stayed within 100 ns for 64 s, ACQUIRING moves to LOCKED_A or LOCKED_B and radio time becomes valid. -/
def execAcquireLock (s : State) : Host.Outcome State Fault Refusal :=
  s.onLive (acquireLock)

/-- WTR_EXPIRY (R31, 02_radio_time.md): When domain A has been good for WTR seconds with REVERT set, LOCKED_B moves hitlessly to LOCKED_A. -/
def execWtrExpiry (s : State) : Host.Outcome State Fault Refusal :=
  s.onLive (wtrExpiry)

/-- PPS_IN_EDGE (R29, 02_radio_time.md): A rising edge on PPS_IN is time-stamped into PPS_IN_STAMP and serves as a phase source. -/
def execPpsInEdge (s : State) : Host.Outcome State Fault Refusal :=
  s.onLive (ppsInEdge)

/-- PPS_IN_MISSING (R31, 02_radio_time.md): When PPS_IN has been missing for 3 s, the PPS state moves to HOLDOVER. -/
def execPpsInMissing (s : State) : Host.Outcome State Fault Refusal :=
  s.onLive (ppsInMissing)

/-- HOLDOVER_LIMIT_EXPIRY (R32, 02_radio_time.md): When the applicable holdover limit expires, the timing state moves to FREERUN. -/
def execHoldoverLimitExpiry (s : State) : Host.Outcome State Fault Refusal :=
  s.onLive (holdoverLimitExpiry)

/-- FREQUENCY_SOURCE_CHANGE (R32, 02_radio_time.md): A change in the validity of the selected SyncE or REF_10M_IN source changes frequency steering and the holdover limit. -/
def execFrequencySourceChange (src : FreqSource) (valid : Bool) (s : State) : Host.Outcome State Fault Refusal :=
  s.onLive (frequencySourceChange src valid)

/-- PPS_OUT_PULSE (R29, 02_radio_time.md): At each chip-time second the part drives a PPS_OUT pulse of the configured width. -/
def execPpsOutPulse (s : State) : Host.Outcome State Fault Refusal :=
  s.onLive (ppsOutPulse)

/-- TSQ_HI_READ (R44, 02_radio_time.md): A read of TSQ_HI latches the head entry of the transmit time-stamp queue. -/
def execTsqHiRead (r : Requester) (port : Fin 4) (s : State) : Host.Outcome State Fault Refusal :=
  s.onLive (fun d => d.access r (tsqHiRead r port))

/-- TSQ_LO_READ (R44, 02_radio_time.md): A read of TSQ_LO returns the rest of the latched entry and pops it. -/
def execTsqLoRead (r : Requester) (port : Fin 4) (s : State) : Host.Outcome State Fault Refusal :=
  s.onLive (fun d => d.access r (tsqLoRead r port))

/-- EVT_WRITE_ENTRY (R37, 02_radio_time.md): EVT_CMD write copies the staged words into an event entry after the range, action and complement checks. -/
def execEvtWriteEntry (r : Requester) (index : Fin 4096) (s : State) : Host.Outcome State Fault Refusal :=
  s.onLive (fun d => d.access r (evtWriteEntry r index))

/-- EVT_READ_ENTRY (R44, 02_radio_time.md): EVT_CMD read-back copies an event entry into the staging registers. -/
def execEvtReadEntry (r : Requester) (index : Fin 4096) (s : State) : Host.Outcome State Fault Refusal :=
  s.onLive (fun d => d.access r (evtReadEntry r index))

/-- EVT_DISARM (R44, 02_radio_time.md): EVT_CMD disarm stops an event entry from firing. -/
def execEvtDisarm (r : Requester) (index : Fin 4096) (s : State) : Host.Outcome State Fault Refusal :=
  s.onLive (fun d => d.access r (evtDisarm r index))

/-- EVENT_FIRE (R39, 02_radio_time.md): An armed event entry whose instant is reached fires its action, in index order and at most 32 per fine tick. -/
def execEventFire (s : State) : Host.Outcome State Fault Refusal :=
  s.onLive (eventFire)

end Sys2Proof.Machine
end

