-- ==== Sys2Proof/Machine/Dispatch.lean ====
section
/-! DEFINITION. Every command with its meaning, one arm a row. -/

namespace Sys2Proof.Machine

/-- The effect of a command on the part (the rows of spec/opcode_table.json, in its order). -/
def exec (i : Instr) (s : State) : Host.Outcome State Fault Refusal :=
  match i with
  | .registerWrite r addr size8 v => Sys2Proof.Machine.execRegisterWrite r addr size8 v s
  | .valueWordWrite r addr v => Sys2Proof.Machine.execValueWordWrite r addr v s
  | .complementWordWrite r addr v => Sys2Proof.Machine.execComplementWordWrite r addr v s
  | .lowHalfRead r addr => Sys2Proof.Machine.execLowHalfRead r addr s
  | .highHalfRead r addr => Sys2Proof.Machine.execHighHalfRead r addr s
  | .lowHalfWrite r addr v => Sys2Proof.Machine.execLowHalfWrite r addr v s
  | .highHalfWrite r addr v => Sys2Proof.Machine.execHighHalfWrite r addr v s
  | .unsupportedRequest r addr size => Sys2Proof.Machine.execUnsupportedRequest r addr size s
  | .unassignedAccess r addr isWrite => Sys2Proof.Machine.execUnassignedAccess r addr isWrite s
  | .changeLogSpill => Sys2Proof.Machine.execChangeLogSpill s
  | .lossOfReam ream => Sys2Proof.Machine.execLossOfReam ream s
  | .rtOffsetWrite r v c => Sys2Proof.Machine.execRtOffsetWrite r v c s
  | .chipTimeSlew corr => Sys2Proof.Machine.execChipTimeSlew corr s
  | .ctSecRead r => Sys2Proof.Machine.execCtSecRead r s
  | .delayReqSend d => Sys2Proof.Machine.execDelayReqSend d s
  | .domainGood d => Sys2Proof.Machine.execDomainGood d s
  | .domainLost d why => Sys2Proof.Machine.execDomainLost d why s
  | .acquireLock => Sys2Proof.Machine.execAcquireLock s
  | .wtrExpiry => Sys2Proof.Machine.execWtrExpiry s
  | .ppsInEdge => Sys2Proof.Machine.execPpsInEdge s
  | .ppsInMissing => Sys2Proof.Machine.execPpsInMissing s
  | .holdoverLimitExpiry => Sys2Proof.Machine.execHoldoverLimitExpiry s
  | .frequencySourceChange src valid => Sys2Proof.Machine.execFrequencySourceChange src valid s
  | .ppsOutPulse => Sys2Proof.Machine.execPpsOutPulse s
  | .frameTransmit port sub placed => Sys2Proof.Machine.execFrameTransmit port sub placed s
  | .tsqHiRead r port => Sys2Proof.Machine.execTsqHiRead r port s
  | .tsqLoRead r port => Sys2Proof.Machine.execTsqLoRead r port s
  | .evtWriteEntry r index => Sys2Proof.Machine.execEvtWriteEntry r index s
  | .evtReadEntry r index => Sys2Proof.Machine.execEvtReadEntry r index s
  | .evtDisarm r index => Sys2Proof.Machine.execEvtDisarm r index s
  | .eventFire => Sys2Proof.Machine.execEventFire s
  | .windowFinalise stream w => Sys2Proof.Machine.execWindowFinalise stream w s
  | .splitReductionCombine cmd => Sys2Proof.Machine.execSplitReductionCombine cmd s
  | .scalarInstruction sheet word => Sys2Proof.Machine.execScalarInstruction sheet word s
  | .csrWrite sheet csr v => Sys2Proof.Machine.execCsrWrite sheet csr v s
  | .fxVadd sheet o => Sys2Proof.Machine.execFxVadd sheet o s
  | .fxVsub sheet o => Sys2Proof.Machine.execFxVsub sheet o s
  | .fxVmul sheet o => Sys2Proof.Machine.execFxVmul sheet o s
  | .fxVfma sheet o => Sys2Proof.Machine.execFxVfma sheet o s
  | .fxVmin sheet o => Sys2Proof.Machine.execFxVmin sheet o s
  | .fxVmax sheet o => Sys2Proof.Machine.execFxVmax sheet o s
  | .fxVcmplt sheet o => Sys2Proof.Machine.execFxVcmplt sheet o s
  | .fxVcmpeq sheet o => Sys2Proof.Machine.execFxVcmpeq sheet o s
  | .fxVsel sheet o => Sys2Proof.Machine.execFxVsel sheet o s
  | .fxVand sheet o => Sys2Proof.Machine.execFxVand sheet o s
  | .fxVor sheet o => Sys2Proof.Machine.execFxVor sheet o s
  | .fxVxor sheet o => Sys2Proof.Machine.execFxVxor sheet o s
  | .fxVshl sheet o => Sys2Proof.Machine.execFxVshl sheet o s
  | .fxVshra sheet o => Sys2Proof.Machine.execFxVshra sheet o s
  | .fxVcvt sheet o => Sys2Proof.Machine.execFxVcvt sheet o s
  | .fxVrsum sheet o => Sys2Proof.Machine.execFxVrsum sheet o s
  | .fxVrmax sheet o => Sys2Proof.Machine.execFxVrmax sheet o s
  | .fxVperm sheet o => Sys2Proof.Machine.execFxVperm sheet o s
  | .fxVfn sheet o => Sys2Proof.Machine.execFxVfn sheet o s
  | .fxVcmul sheet o => Sys2Proof.Machine.execFxVcmul sheet o s
  | .fxVcmulc sheet o => Sys2Proof.Machine.execFxVcmulc sheet o s
  | .fxVcmag sheet o => Sys2Proof.Machine.execFxVcmag sheet o s
  | .fxVscale sheet o => Sys2Proof.Machine.execFxVscale sheet o s
  | .fxVmvxs sheet o => Sys2Proof.Machine.execFxVmvxs sheet o s
  | .fxVld sheet o found => Sys2Proof.Machine.execFxVld sheet o found s
  | .fxVst sheet o => Sys2Proof.Machine.execFxVst sheet o s
  | .fxVld2 sheet o => Sys2Proof.Machine.execFxVld2 sheet o s
  | .fxVldx sheet o => Sys2Proof.Machine.execFxVldx sheet o s
  | .fxVstx sheet o => Sys2Proof.Machine.execFxVstx sheet o s
  | .fxVgath sheet o => Sys2Proof.Machine.execFxVgath sheet o s
  | .fxVscat sheet o => Sys2Proof.Machine.execFxVscat sheet o s
  | .feltForm sheet f o => Sys2Proof.Machine.execFeltForm sheet f o s
  | .fxTapld sheet o => Sys2Proof.Machine.execFxTapld sheet o s
  | .fxTapmv sheet o => Sys2Proof.Machine.execFxTapmv sheet o s
  | .fxDemap sheet o => Sys2Proof.Machine.execFxDemap sheet o s
  | .fxCbxupk sheet o => Sys2Proof.Machine.execFxCbxupk sheet o s
  | .fxCbxpk sheet o => Sys2Proof.Machine.execFxCbxpk sheet o s
  | .fxMma sheet o residue => Sys2Proof.Machine.execFxMma sheet o residue s
  | .fxAccrd sheet o => Sys2Proof.Machine.execFxAccrd sheet o s
  | .fxAccld sheet o => Sys2Proof.Machine.execFxAccld sheet o s
  | .fxAccz sheet o => Sys2Proof.Machine.execFxAccz sheet o s
  | .fxAccmv sheet o => Sys2Proof.Machine.execFxAccmv sheet o s
  | .matrixDrainComplete sheet target => Sys2Proof.Machine.execMatrixDrainComplete sheet target s
  | .joinedStepFire q mismatches => Sys2Proof.Machine.execJoinedStepFire q mismatches s
  | .fxDma sheet o => Sys2Proof.Machine.execFxDma sheet o s
  | .fxPref sheet o => Sys2Proof.Machine.execFxPref sheet o s
  | .copyIn sheet tag => Sys2Proof.Machine.execCopyIn sheet tag s
  | .gatherIn sheet tag => Sys2Proof.Machine.execGatherIn sheet tag s
  | .poolIn sheet tag => Sys2Proof.Machine.execPoolIn sheet tag s
  | .prefPool sheet tag => Sys2Proof.Machine.execPrefPool sheet tag s
  | .dmaFillComplete sheet tag line inc => Sys2Proof.Machine.execDmaFillComplete sheet tag line inc s
  | .fxTfence sheet o => Sys2Proof.Machine.execFxTfence sheet o s
  | .fxFence sheet o => Sys2Proof.Machine.execFxFence sheet o s
  | .fxWaitrdy sheet o => Sys2Proof.Machine.execFxWaitrdy sheet o s
  | .fxMkrdy sheet o => Sys2Proof.Machine.execFxMkrdy sheet o s
  | .fxClrrdy sheet o => Sys2Proof.Machine.execFxClrrdy sheet o s
  | .fxWaitev sheet o => Sys2Proof.Machine.execFxWaitev sheet o s
  | .waitevComplete sheet => Sys2Proof.Machine.execWaitevComplete sheet s
  | .fxStrec sheet o => Sys2Proof.Machine.execFxStrec sheet o s
  | .fxStred sheet o => Sys2Proof.Machine.execFxStred sheet o s
  | .fxCommit sheet o => Sys2Proof.Machine.execFxCommit sheet o s
  | .commitBegin sheet => Sys2Proof.Machine.execCommitBegin sheet s
  | .commitDrainComplete sheet => Sys2Proof.Machine.execCommitDrainComplete sheet s
  | .fxRtwait sheet o => Sys2Proof.Machine.execFxRtwait sheet o s
  | .rtwaitComplete sheet => Sys2Proof.Machine.execRtwaitComplete sheet s
  | .fxRand sheet o => Sys2Proof.Machine.execFxRand sheet o s
  | .fxCntrd sheet o => Sys2Proof.Machine.execFxCntrd sheet o s
  | .fxStmsg sheet o => Sys2Proof.Machine.execFxStmsg sheet o s
  | .killRequest sheet => Sys2Proof.Machine.execKillRequest sheet s
  | .sheetReleaseComplete sheet => Sys2Proof.Machine.execSheetReleaseComplete sheet s
  | .feltUncorrectableError sheet cause => Sys2Proof.Machine.execFeltUncorrectableError sheet cause s
  | .patrolScrub sheet found => Sys2Proof.Machine.execPatrolScrub sheet found s
  | .scrubNow r sheet => Sys2Proof.Machine.execScrubNow r sheet s
  | .sheetRetire sheet => Sys2Proof.Machine.execSheetRetire sheet s
  | .sheetReturn sheet => Sys2Proof.Machine.execSheetReturn sheet s
  | .sqTailWrite slice q v => Sys2Proof.Machine.execSqTailWrite slice q v s
  | .commandFetch slot q => Sys2Proof.Machine.execCommandFetch slot q s
  | .fetchAbort slot q => Sys2Proof.Machine.execFetchAbort slot q s
  | .cqHeadWrite slice q v => Sys2Proof.Machine.execCqHeadWrite slice q v s
  | .taskPlace cmd => Sys2Proof.Machine.execTaskPlace cmd s
  | .taskSteal sheet => Sys2Proof.Machine.execTaskSteal sheet s
  | .loadBalanceCheck ream => Sys2Proof.Machine.execLoadBalanceCheck ream s
  | .deadlineExpiry cmd => Sys2Proof.Machine.execDeadlineExpiry cmd s
  | .commandComplete cmd => Sys2Proof.Machine.execCommandComplete cmd s
  | .programLoad cmd => Sys2Proof.Machine.execProgramLoad cmd s
  | .programUnload cmd => Sys2Proof.Machine.execProgramUnload cmd s
  | .contextCreate cmd => Sys2Proof.Machine.execContextCreate cmd s
  | .contextDestroy cmd => Sys2Proof.Machine.execContextDestroy cmd s
  | .contextExport cmd => Sys2Proof.Machine.execContextExport cmd s
  | .contextImport cmd => Sys2Proof.Machine.execContextImport cmd s
  | .jobTeardown cmd => Sys2Proof.Machine.execJobTeardown cmd s
  | .blockedSwapCheck ream => Sys2Proof.Machine.execBlockedSwapCheck ream s
  | .couchOutComplete ctx => Sys2Proof.Machine.execCouchOutComplete ctx s
  | .couchInComplete ctx => Sys2Proof.Machine.execCouchInComplete ctx s
  | .portCfgWrite r port v c => Sys2Proof.Machine.execPortCfgWrite r port v c s
  | .linkUp port sub => Sys2Proof.Machine.execLinkUp port sub s
  | .linkDown port sub => Sys2Proof.Machine.execLinkDown port sub s
  | .frameReceive port sub f => Sys2Proof.Machine.execFrameReceive port sub f s
  | .gainStepUpdate stream => Sys2Proof.Machine.execGainStepUpdate stream s
  | .ethTxTailWrite slice q v => Sys2Proof.Machine.execEthTxTailWrite slice q v s
  | .ethRxTailWrite slice q v => Sys2Proof.Machine.execEthRxTailWrite slice q v s
  | .bucketRefill => Sys2Proof.Machine.execBucketRefill s
  | .shpWrite r port kind index => Sys2Proof.Machine.execShpWrite r port kind index s
  | .shpReadBack r port kind index => Sys2Proof.Machine.execShpReadBack r port kind index s
  | .class0DropAfter port queue => Sys2Proof.Machine.execClass0DropAfter port queue s
  | .strmCfgWrite r stream v c => Sys2Proof.Machine.execStrmCfgWrite r stream v c s
  | .fapiTailWrite slice v unsupported => Sys2Proof.Machine.execFapiTailWrite slice v unsupported s
  | .fapiHeadWrite slice v => Sys2Proof.Machine.execFapiHeadWrite slice v s
  | .paramRequest slot last => Sys2Proof.Machine.execParamRequest slot last s
  | .configRequest slot last cfg => Sys2Proof.Machine.execConfigRequest slot last cfg s
  | .startRequest slot last => Sys2Proof.Machine.execStartRequest slot last s
  | .stopRequest slot last => Sys2Proof.Machine.execStopRequest slot last s
  | .dlTtiRequest slot last frame sl pdus => Sys2Proof.Machine.execDlTtiRequest slot last frame sl pdus s
  | .ulTtiRequest slot last frame sl pdus => Sys2Proof.Machine.execUlTtiRequest slot last frame sl pdus s
  | .ulDciRequest slot last frame sl candidates => Sys2Proof.Machine.execUlDciRequest slot last frame sl candidates s
  | .txDataRequest slot last frame sl blocks => Sys2Proof.Machine.execTxDataRequest slot last frame sl blocks s
  | .codingJobStart ream engine => Sys2Proof.Machine.execCodingJobStart ream engine s
  | .codingJobComplete ream result => Sys2Proof.Machine.execCodingJobComplete ream result s
  | .stripEngineError ream engine => Sys2Proof.Machine.execStripEngineError ream engine s
  | .floorCfgWrite r ream v c => Sys2Proof.Machine.execFloorCfgWrite r ream v c s
  | .class0TaskPlace ream => Sys2Proof.Machine.execClass0TaskPlace ream s
  | .capacityRecompute => Sys2Proof.Machine.execCapacityRecompute s
  | .coolingShed => Sys2Proof.Machine.execCoolingShed s
  | .standbyRequest src cell slot cfg => Sys2Proof.Machine.execStandbyRequest src cell slot cfg s
  | .standbyRetry cell => Sys2Proof.Machine.execStandbyRetry cell s
  | .mirrorRecordSend cell => Sys2Proof.Machine.execMirrorRecordSend cell s
  | .mirrorRecordReceive src cell frame sl items => Sys2Proof.Machine.execMirrorRecordReceive src cell frame sl items s
  | .heartbeatSend => Sys2Proof.Machine.execHeartbeatSend s
  | .heartbeatReceive port src msg => Sys2Proof.Machine.execHeartbeatReceive port src msg s
  | .homeLossDetect peer events => Sys2Proof.Machine.execHomeLossDetect peer events s
  | .handover cell => Sys2Proof.Machine.execHandover cell s
  | .handoverMessage src cell boundary events => Sys2Proof.Machine.execHandoverMessage src cell boundary events s
  | .cellRelease cell => Sys2Proof.Machine.execCellRelease cell s
  | .linkHoExpiry cell => Sys2Proof.Machine.execLinkHoExpiry cell s
  | .takeoverBoundary cell => Sys2Proof.Machine.execTakeoverBoundary cell s
  | .missHiRead r => Sys2Proof.Machine.execMissHiRead r s
  | .missLoRead r => Sys2Proof.Machine.execMissLoRead r s
  | .rope sheet tag => Sys2Proof.Machine.execRope sheet tag s
  | .walkBegin sheet tag => Sys2Proof.Machine.execWalkBegin sheet tag s
  | .walkStep sheet tag => Sys2Proof.Machine.execWalkStep sheet tag s
  | .walkEnd sheet tag => Sys2Proof.Machine.execWalkEnd sheet tag s
  | .pageFetch sheet tag => Sys2Proof.Machine.execPageFetch sheet tag s
  | .sample sheet tag => Sys2Proof.Machine.execSample sheet tag s
  | .verify sheet tag => Sys2Proof.Machine.execVerify sheet tag s
  | .seqAppend cmd => Sys2Proof.Machine.execSeqAppend cmd s
  | .prefixPublish cmd => Sys2Proof.Machine.execPrefixPublish cmd s
  | .prefixAttach cmd => Sys2Proof.Machine.execPrefixAttach cmd s
  | .seqRelease cmd => Sys2Proof.Machine.execSeqRelease cmd s
  | .weightRegister cmd => Sys2Proof.Machine.execWeightRegister cmd s
  | .digestComplete cmd slotIx => Sys2Proof.Machine.execDigestComplete cmd slotIx s
  | .map r => Sys2Proof.Machine.execMap r s
  | .unmap r => Sys2Proof.Machine.execUnmap r s
  | .protect r => Sys2Proof.Machine.execProtect r s
  | .mapSeal r => Sys2Proof.Machine.execMapSeal r s
  | .mapUnseal r => Sys2Proof.Machine.execMapUnseal r s
  | .pin r => Sys2Proof.Machine.execPin r s
  | .unpin r => Sys2Proof.Machine.execUnpin r s
  | .mapRead r => Sys2Proof.Machine.execMapRead r s
  | .mappingChangeComplete => Sys2Proof.Machine.execMappingChangeComplete s
  | .mappingChangeTimeout => Sys2Proof.Machine.execMappingChangeTimeout s
  | .tierSeal cmd => Sys2Proof.Machine.execTierSeal cmd s
  | .tierUnseal cmd => Sys2Proof.Machine.execTierUnseal cmd s
  | .tierHint cmd => Sys2Proof.Machine.execTierHint cmd s
  | .migrationInterval => Sys2Proof.Machine.execMigrationInterval s
  | .pageMigrationComplete slot va ok => Sys2Proof.Machine.execPageMigrationComplete slot va ok s
  | .hostPoolWrite r h v c => Sys2Proof.Machine.execHostPoolWrite r h v c s
  | .hostPoolRelease h => Sys2Proof.Machine.execHostPoolRelease h s
  | .tierCfgWrite r v c => Sys2Proof.Machine.execTierCfgWrite r v c s
  | .lendWinEnable r w => Sys2Proof.Machine.execLendWinEnable r w s
  | .borrowConnect r w => Sys2Proof.Machine.execBorrowConnect r w s
  | .borrowRelease r w => Sys2Proof.Machine.execBorrowRelease r w s
  | .lendRequest w src key kind => Sys2Proof.Machine.execLendRequest w src key kind s
  | .lendRecall r w => Sys2Proof.Machine.execLendRecall r w s
  | .recallReceive w deadline => Sys2Proof.Machine.execRecallReceive w deadline s
  | .evacuationDone w => Sys2Proof.Machine.execEvacuationDone w s
  | .doneReceive w => Sys2Proof.Machine.execDoneReceive w s
  | .recallDeadline side w => Sys2Proof.Machine.execRecallDeadline side w s
  | .requestAgeForce ream => Sys2Proof.Machine.execRequestAgeForce ream s
  | .slotEnable r slot => Sys2Proof.Machine.execSlotEnable r slot s
  | .slotRelease r slot => Sys2Proof.Machine.execSlotRelease r slot s
  | .slotDrainComplete slot => Sys2Proof.Machine.execSlotDrainComplete slot s
  | .deckleWrite r slot reg v0 v1 c0 c1 => Sys2Proof.Machine.execDeckleWrite r slot reg v0 v1 c0 c1 s
  | .keyLoad r slot => Sys2Proof.Machine.execKeyLoad r slot s
  | .keyGenerate r slot => Sys2Proof.Machine.execKeyGenerate r slot s
  | .sliceWrite r j v c => Sys2Proof.Machine.execSliceWrite r j v c s
  | .ringCreate slice => Sys2Proof.Machine.execRingCreate slice s
  | .ringDelete slice => Sys2Proof.Machine.execRingDelete slice s
  | .ringReadBack slice => Sys2Proof.Machine.execRingReadBack slice s
  | .sqDeleteComplete slot q => Sys2Proof.Machine.execSqDeleteComplete slot q s
  | .dirtySwap r slot => Sys2Proof.Machine.execDirtySwap r slot s
  | .dirtySwapComplete slot => Sys2Proof.Machine.execDirtySwapComplete slot s
  | .mbxOutWrite r n v => Sys2Proof.Machine.execMbxOutWrite r n v s
  | .mbxInRead r n => Sys2Proof.Machine.execMbxInRead r n s
  | .firmwareMbxTake side n => Sys2Proof.Machine.execFirmwareMbxTake side n s
  | .ping side n => Sys2Proof.Machine.execPing side n s
  | .useQuery side n => Sys2Proof.Machine.execUseQuery side n s
  | .firmwareMbxStore side n => Sys2Proof.Machine.execFirmwareMbxStore side n s
  | .shmbxWrite r n v => Sys2Proof.Machine.execShmbxWrite r n v s
  | .shmbxRead r n => Sys2Proof.Machine.execShmbxRead r n s
  | .lockRead r n => Sys2Proof.Machine.execLockRead r n s
  | .lockRelease r n v => Sys2Proof.Machine.execLockRelease r n v s
  | .lockForce r mask => Sys2Proof.Machine.execLockForce r mask s
  | .flitReceive port f => Sys2Proof.Machine.execFlitReceive port f s
  | .nakReceive port seq => Sys2Proof.Machine.execNakReceive port seq s
  | .linkRetrainComplete port peerChip peerPort peerSwitch => Sys2Proof.Machine.execLinkRetrainComplete port peerChip peerPort peerSwitch s
  | .routeWrite r index => Sys2Proof.Machine.execRouteWrite r index s
  | .windowWrite r index => Sys2Proof.Machine.execWindowWrite r index s
  | .rxqWrite r index => Sys2Proof.Machine.execRxqWrite r index s
  | .jobWrite r index => Sys2Proof.Machine.execJobWrite r index s
  | .tabReadBack r table index => Sys2Proof.Machine.execTabReadBack r table index s
  | .remoteRead sheet tag => Sys2Proof.Machine.execRemoteRead sheet tag s
  | .remoteGather sheet tag => Sys2Proof.Machine.execRemoteGather sheet tag s
  | .rxqPeek sheet tag => Sys2Proof.Machine.execRxqPeek sheet tag s
  | .fabricRequestReceive req => Sys2Proof.Machine.execFabricRequestReceive req s
  | .readResponseReceive sheet tag reply => Sys2Proof.Machine.execReadResponseReceive sheet tag reply s
  | .fabricRecordSend ream rec => Sys2Proof.Machine.execFabricRecordSend ream rec s
  | .fabricStore ream => Sys2Proof.Machine.execFabricStore ream s
  | .fabricAtomic ream => Sys2Proof.Machine.execFabricAtomic ream s
  | .messageReservation req => Sys2Proof.Machine.execMessageReservation req s
  | .messagePayload queue src data => Sys2Proof.Machine.execMessagePayload queue src data s
  | .fabricFence ream rec => Sys2Proof.Machine.execFabricFence ream rec s
  | .fabricPop ream rec => Sys2Proof.Machine.execFabricPop ream rec s
  | .recordAckReceive ream rec reply => Sys2Proof.Machine.execRecordAckReceive ream rec reply s
  | .notReadyReceive ream rec => Sys2Proof.Machine.execNotReadyReceive ream rec s
  | .reservationRetry ream rec => Sys2Proof.Machine.execReservationRetry ream rec s
  | .deadTargetTimeout target => Sys2Proof.Machine.execDeadTargetTimeout target s
  | .storedComplementMismatch obj => Sys2Proof.Machine.execStoredComplementMismatch obj s
  | .complementRewrite obj => Sys2Proof.Machine.execComplementRewrite obj s
  | .sheetSelfTestComplete sheet pass => Sys2Proof.Machine.execSheetSelfTestComplete sheet pass s
  | .quireIsolate q => Sys2Proof.Machine.execQuireIsolate q s
  | .quireTest q => Sys2Proof.Machine.execQuireTest q s
  | .quireTestComplete q pass => Sys2Proof.Machine.execQuireTestComplete q pass s
  | .hardEvidence cause => Sys2Proof.Machine.execHardEvidence cause s
  | .quireSleep q => Sys2Proof.Machine.execQuireSleep q s
  | .quireWake q => Sys2Proof.Machine.execQuireWake q s
  | .healthWindowEnd => Sys2Proof.Machine.execHealthWindowEnd s
  | .errHiRead r => Sys2Proof.Machine.execErrHiRead r s
  | .errLoRead r => Sys2Proof.Machine.execErrLoRead r s
  | .mirWrite r index => Sys2Proof.Machine.execMirWrite r index s
  | .mirReadBack r index => Sys2Proof.Machine.execMirReadBack r index s
  | .mirrorCopyComplete index ok => Sys2Proof.Machine.execMirrorCopyComplete index ok s
  | .recoveryBegin => Sys2Proof.Machine.execRecoveryBegin s
  | .pull => Sys2Proof.Machine.execPull s
  | .pullSealed => Sys2Proof.Machine.execPullSealed s
  | .loadCheckpoint => Sys2Proof.Machine.execLoadCheckpoint s
  | .recoveryEnable => Sys2Proof.Machine.execRecoveryEnable s
  | .recoveryEnd => Sys2Proof.Machine.execRecoveryEnd s
  | .recoveryStepComplete outcome => Sys2Proof.Machine.execRecoveryStepComplete outcome s
  | .recoveryAbort r => Sys2Proof.Machine.execRecoveryAbort r s
  | .pwrokRise cardId failed => Sys2Proof.Machine.execPwrokRise cardId failed s
  | .pwrokFall => Sys2Proof.Machine.execPwrokFall s
  | .resetNAssert => Sys2Proof.Machine.execResetNAssert s
  | .resetNRelease => Sys2Proof.Machine.execResetNRelease s
  | .perstNAssert => Sys2Proof.Machine.execPerstNAssert s
  | .furnishVerify a b readError inc => Sys2Proof.Machine.execFurnishVerify a b readError inc s
  | .recordsApply recs => Sys2Proof.Machine.execRecordsApply recs s
  | .hbmTrained cxl => Sys2Proof.Machine.execHbmTrained cxl s
  | .linksUp => Sys2Proof.Machine.execLinksUp s
  | .furnishCellAdmit => Sys2Proof.Machine.execFurnishCellAdmit s
  | .startSlow => Sys2Proof.Machine.execStartSlow s
  | .flashErase r => Sys2Proof.Machine.execFlashErase r s
  | .flashProgram r => Sys2Proof.Machine.execFlashProgram r s
  | .flashRead r => Sys2Proof.Machine.execFlashRead r s
  | .flashOpComplete ok => Sys2Proof.Machine.execFlashOpComplete ok s
  | .logFetch r seq => Sys2Proof.Machine.execLogFetch r seq s
  | .monId => Sys2Proof.Machine.execMonId s
  | .monCaps => Sys2Proof.Machine.execMonCaps s
  | .monLinks => Sys2Proof.Machine.execMonLinks s
  | .monCells => Sys2Proof.Machine.execMonCells s
  | .monTenants => Sys2Proof.Machine.execMonTenants s
  | .monTemps => Sys2Proof.Machine.execMonTemps s
  | .monCounters block => Sys2Proof.Machine.execMonCounters block s
  | .monLog n => Sys2Proof.Machine.execMonLog n s
  | .monSelftest => Sys2Proof.Machine.execMonSelftest s
  | .monBaud rate => Sys2Proof.Machine.execMonBaud rate s
  | .monUnlock => Sys2Proof.Machine.execMonUnlock s
  | .monUnlockResponse resp => Sys2Proof.Machine.execMonUnlockResponse resp s
  | .monLock => Sys2Proof.Machine.execMonLock s
  | .monitorIdleLock => Sys2Proof.Machine.execMonitorIdleLock s
  | .monPeek addr n => Sys2Proof.Machine.execMonPeek addr n s
  | .monPoke addr v => Sys2Proof.Machine.execMonPoke addr v s
  | .monFlash op addr => Sys2Proof.Machine.execMonFlash op addr s
  | .counterCfgWrite r unit n v => Sys2Proof.Machine.execCounterCfgWrite r unit n v s
  | .counterValueWrite r unit n v => Sys2Proof.Machine.execCounterValueWrite r unit n v s
  | .counterOverflow unit n inc pc => Sys2Proof.Machine.execCounterOverflow unit n inc pc s
  | .cntFreeze r freeze => Sys2Proof.Machine.execCntFreeze r freeze s
  | .irqMaskWrite r target => Sys2Proof.Machine.execIrqMaskWrite r target s
  | .gpioOutWrite r v => Sys2Proof.Machine.execGpioOutWrite r v s
  | .throttleNAssert => Sys2Proof.Machine.execThrottleNAssert s
  | .throttleHoldExpiry => Sys2Proof.Machine.execThrottleHoldExpiry s
  | .powerMeasure watts => Sys2Proof.Machine.execPowerMeasure watts s
  | .junctionAlert celsius => Sys2Proof.Machine.execJunctionAlert celsius s
  | .coolingFault => Sys2Proof.Machine.execCoolingFault s
  | .thermtrip => Sys2Proof.Machine.execThermtrip s
  | .avsNoAck bus => Sys2Proof.Machine.execAvsNoAck bus s
  | .smbusBlockRead => Sys2Proof.Machine.execSmbusBlockRead s
  | .smbusAlertResponse => Sys2Proof.Machine.execSmbusAlertResponse s
  | .fabricLinkDown port => Sys2Proof.Machine.execFabricLinkDown port s
  | .perstNRelease => Sys2Proof.Machine.execPerstNRelease s
  | .throttleNRelease => Sys2Proof.Machine.execThrottleNRelease s
  | .radioPoolReloadComplete ream => Sys2Proof.Machine.execRadioPoolReloadComplete ream s
  | .memoryPatrolPass target corrected poisoned => Sys2Proof.Machine.execMemoryPatrolPass target corrected poisoned s
  | .engineResultBlockWrite sheet tag => Sys2Proof.Machine.execEngineResultBlockWrite sheet tag s
  | .logFetchComplete => Sys2Proof.Machine.execLogFetchComplete s
  | .cellBoundaryStop cell => Sys2Proof.Machine.execCellBoundaryStop cell s
  | .borrowWinInUse w => Sys2Proof.Machine.execBorrowWinInUse w s
  | .stripEngineWatchdog ream engine => Sys2Proof.Machine.execStripEngineWatchdog ream engine s

end Sys2Proof.Machine
end

