-- ==== Sys2Proof/Machine/Step.lean ====
section
/-! DEFINITION. One step: the command at the front of the queue, or on an empty queue one cycle of the control clock (log entry 2). -/

namespace Sys2Proof.Machine

/-- The state with its queue put. -/
def State.withPending (s : State) (l : List Instr) : State := { s with pending := l }

/-- One step: the front command acts on the part with the queue's rest; an empty queue lets one cycle of the 1.0 GHz control clock
pass. -/
def step (s : State) : Host.Outcome State Fault Refusal :=
  match s.pending with
  | [] => .next (s.withChip s.chip.idle)
  | c :: rest => exec c (s.withPending rest)

/-- The state with the command that a table word spells at the front of its queue; unchanged where it spells none. -/
def State.withFetchWord (s : State) (nbits w : Nat) : State :=
  match decodeTableWord nbits w with
  | some c => s.withPending (c :: s.pending)
  | none => s

end Sys2Proof.Machine
end

