-- ==== Sys2Proof/Safety.lean ====
section
/-! DEFINITION. The terms in which claims speak of a run: which steps answer, which rows move a pin, and what a row makes of the part. -/

namespace Sys2Proof

/-- The rows that move an input pin or the power: they act whether or not the part runs (R359, R360, R418, R422). -/
def Instr.movesPin : Instr → Bool
  | .pwrokRise _ _ => true
  | .pwrokFall => true
  | .resetNAssert => true
  | .resetNRelease => true
  | .perstNAssert => true
  | .perstNRelease => true
  | .throttleNAssert => true
  | .throttleNRelease => true
  | _ => false

/-- The rows that act on a part that is not in operation: the pins and the power (R359, R360, R418, R422), register accesses (R361), the
start-up (R362), the flash and recovery mode (R367), the monitor (R378), and power, heat and the management bus (R421, R423). -/
def Instr.beforeOperation : Instr → Bool
  | .registerWrite _ _ _ _ => true
  | .valueWordWrite _ _ _ => true
  | .complementWordWrite _ _ _ => true
  | .lowHalfRead _ _ => true
  | .highHalfRead _ _ => true
  | .lowHalfWrite _ _ _ => true
  | .highHalfWrite _ _ _ => true
  | .unsupportedRequest _ _ _ => true
  | .unassignedAccess _ _ _ => true
  | .changeLogSpill => true
  | .pwrokRise _ _ => true
  | .pwrokFall => true
  | .resetNAssert => true
  | .resetNRelease => true
  | .perstNAssert => true
  | .furnishVerify _ _ _ _ => true
  | .recordsApply _ => true
  | .hbmTrained _ => true
  | .linksUp => true
  | .furnishCellAdmit => true
  | .startSlow => true
  | .flashErase _ => true
  | .flashProgram _ => true
  | .flashRead _ => true
  | .flashOpComplete _ => true
  | .monId => true
  | .monCaps => true
  | .monLinks => true
  | .monCells => true
  | .monTenants => true
  | .monTemps => true
  | .monCounters _ => true
  | .monLog _ => true
  | .monSelftest => true
  | .monBaud _ => true
  | .monUnlock => true
  | .monUnlockResponse _ => true
  | .monLock => true
  | .monitorIdleLock => true
  | .monPeek _ _ => true
  | .monPoke _ _ => true
  | .monFlash _ _ => true
  | .throttleNAssert => true
  | .throttleHoldExpiry => true
  | .powerMeasure _ => true
  | .junctionAlert _ => true
  | .coolingFault => true
  | .thermtrip => true
  | .avsNoAck _ => true
  | .smbusBlockRead => true
  | .smbusAlertResponse => true
  | .perstNRelease => true
  | .throttleNRelease => true
  | _ => false

namespace Machine

/-- The step answers a next state. -/
def Answers (s : State) : Prop := ∃ t, step s = .next t

/-- The command answers a next state: its part is this one, its queue is untouched. -/
def Becomes (i : Instr) (s : State) (c : Chip) : Prop := exec i s = .next { s with chip := c }

/-- The command answers a next state: its part has this property, its queue is untouched. -/
def Yields (i : Instr) (s : State) (p : Chip → Prop) : Prop := ∃ c : Chip, exec i s = .next { s with chip := c } ∧ p c

/-- Memory, the host's memory, the flash, the part's identity, its time and its keys are as they were. -/
def SameStore (a b : Chip) : Prop :=
  b.mem = a.mem ∧ b.host = a.host ∧ b.flash = a.flash ∧ b.ident = a.ident ∧ b.time = a.time ∧ b.keys = a.keys

/-! ### Recovery commands (R351 to R353) -/

/-- The 128 bytes that RCV_DESC names. -/
def Chip.rcvBytes (c : Chip) : List Byte := c.treadN 0 (fget (c.reg R.RCV_DESC) F.RCV_DESC.ADDR * 128) 128

/-- The recovery descriptor that they spell. -/
def Chip.rcvDesc (c : Chip) : RcvDesc := parseRcv c.rcvBytes

/-- A step of this operation passes the first rules of R353: no step runs, and the descriptor may be read, is intact, well-formed and
names a job of the table. -/
def Chip.RcvReady (c : Chip) (op : Nat) : Prop :=
  c.live = true ∧ c.early .host = false ∧ c.flag R.RCV_STAT F.RCV_STAT.BUSY = false ∧ c.rcvDesc.op = op ∧
    c.damaged.contains (.register R.RCV_DESC.addr) = false ∧ c.permitted 0 (fget (c.reg R.RCV_DESC) F.RCV_DESC.ADDR * 128) 128 false = true ∧
    crcOk c.rcvBytes 124 = true ∧ rcvFieldsOk c.rcvBytes c.rcvDesc = true ∧ (c.jobAt c.rcvDesc.job).isSome = true

/-- RCV_STAT shows this result of this step, and interrupt 12 is signalled. -/
def Chip.RcvShows (c : Chip) (result status step : Nat) : Prop :=
  c.fld R.RCV_STAT F.RCV_STAT.RESULT = result ∧ c.fld R.RCV_STAT F.RCV_STAT.STATUS = status ∧ c.fld R.RCV_STAT F.RCV_STAT.STEP_INDEX = step ∧
    c.flag R.GLB_IRQ_STAT ⟨12, 1⟩ = true

/-! ### Deckles (R305) -/

/-- The register of the first value word of a deckle register. -/
def deckleRef (slot : Nat) : DeckleReg → RegRef
  | .ctl => R.DCK_CTL slot
  | .quota => R.DCK_QUOTA slot
  | .limits => R.DCK_LIMITS slot
  | .shp => R.DCK_SHP slot
  | .fab f => R.DCK_FAB slot f.val
  | .radio => R.DCK_RADIO slot
  | .win w => R.WIN0 slot w.val

/-- The window that a deckle register is. -/
def deckleWin : DeckleReg → Option (Fin 16)
  | .win w => some w
  | _ => none

/-! ### Rings and messages to host L2 (R114, R161) -/

/-- A tail doorbell of a ring's slice with this index is accepted and moves the tail (R114): its slot is active, the index lies in the
ring, and it does not go back over what is posted. -/
def Chip.TailMoves (c : Chip) (slice : Fin 1024) (kind q v : Nat) (g : Ring) : Prop :=
  c.sliceOn slice.val = true ∧ c.ring (c.sliceSlot slice.val) kind q = some g ∧ c.slotState g.slot = 1 ∧ g.slice = slice.val ∧ v < g.size ∧
    g.ahead g.own g.soft ≤ g.ahead g.own v ∧ v ≠ g.soft

/-- Host L2 of a slot gets a message: at once where it has posted a buffer and nothing is held, otherwise it is held behind the others. -/
def Chip.Hears (before after : Chip) (slot : Nat) (m : FapiMsg) : Prop :=
  ∀ g, before.ring slot 5 0 = some g →
    if g.own ≠ g.soft ∧ tabGetD before.fapiHeld slot [] = [] then after.out.head? = some (.fapi slot m)
    else tabGetD after.fapiHeld slot [] = tabGetD before.fapiHeld slot [] ++ [m]

/-- The next message of a slot's L2 names this cell of the slot, and was complete at this tick. -/
def Chip.Asks (c : Chip) (slot cell : Nat) (arrived : Int) : Prop :=
  (∃ g next, c.fapiNext slot = some (g, cell, arrived, next)) ∧ inRange cell (c.cellRange slot) = true ∧ cell < 1024

/-- It asks something of a slot of this running cell, and was complete so many microseconds before the slot's air start (R163). -/
def Chip.AsksInTime (c : Chip) (slot cell frame sl : Nat) (x : Cell) (us : Nat) : Prop :=
  ∃ t, c.Asks slot cell t ∧ tabGet c.cells cell = some x ∧ x.running = true ∧ sl < slotsPerFrame (x.cfg.mu % 4) ∧
    t ≤ c.airStart x frame sl - (usTicks us : Nat)

/-! ### Instructions of a sheet -/

/-- The entry that an FX instruction makes of a sheet as it stands: its scalar operands and CSRs. -/
def Chip.fxEntryAt (c : Chip) (at_ : SheetAt) (i : Instr) : FxEntry :=
  let sh := c.sheet at_
  ⟨i, sh.x (fxOperands i).1, sh.x (fxOperands i).2, sh.csrs, sh.pc⟩

/-- The sheet runs a task of a command and has nothing under way: no instruction, wait, transfer, drain or unready line. -/
def Chip.AtRest (c : Chip) (at_ : SheetAt) (t : Task) (m : Command) : Prop :=
  c.live = true ∧ (c.sheet at_).task = some t ∧ c.command t.cmd = some m ∧ (c.sheet at_).stalled = [] ∧ (c.sheet at_).window = [] ∧
    (c.sheet at_).wait = none ∧ (c.sheet at_).dma = [] ∧ (c.sheet at_).bankBusy = [] ∧ (c.sheet at_).draining = [] ∧
    (c.sheet at_).notReady = [] ∧ (c.sheet at_).joined = none

/-- What an instruction of the sheet's task takes from the chip. -/
def Chip.fxCtxAt (c : Chip) (at_ : SheetAt) (t : Task) (m : Command) : FxCtx := c.fxCtx (sheetKey at_) t m

/-- The instruction is legal where it stands: it raises no trap before the window (R77, R94). -/
def Chip.fxLegal (c : Chip) (at_ : SheetAt) (t : Task) (m : Command) (i : Instr) : Prop :=
  fxCheck (c.fxCtxAt at_ t m) (gridRow t) (gridCol t) (c.fxEntryAt at_ i) = none

/-- The rounding of lane l of an instruction. -/
def Chip.laneRndAt (c : Chip) (at_ : SheetAt) (t : Task) (m : Command) (i : Instr) (o : FxOps) (l : Nat) : LaneRnd :=
  laneRnd (c.fxCtxAt at_ t m) (c.fxEntryAt at_ i) o l

/-- The sheet past one instruction word. -/
def Sheet.past (sh : Sheet) : Sheet := { sh with pc := sh.pc + 4 }

/-- The command answers a next state in which this sheet stands so, no other sheet has changed, and of the rest only counters and the
interrupts they raise have. -/
def Computes (i : Instr) (s : State) (at_ : SheetAt) (sh : Sheet) : Prop :=
  Yields i s (fun c => c.sheet at_ = sh ∧ (∀ k, k ≠ sheetKey at_ → tabGet c.sheets k = tabGet s.chip.sheets k) ∧
    c = { s.chip with sheets := c.sheets, regs := c.regs, out := c.out, nextIssue := c.nextIssue })

/-! ### The ingress buffer (R324) -/

/-- Bytes stored at an address of a slot's range, in a memory seen as bytes by slot and address. -/
def storeOn (slot va : Nat) (bs : List Byte) (f : Nat → Nat → Byte) : Nat → Nat → Byte :=
  fun s a => if s = slot ∧ va ≤ a ∧ a < va + bs.length then nth bs (a - va) 0 else f s a

/-- What an ingress entry makes of a memory, and the old value that it answers where it is an atomic. -/
def Ingress.act (e : Ingress) (f : Nat → Nat → Byte) : (Nat → Nat → Byte) × List W64 :=
  match e.op with
  | .store _ d => (e.merged.foldl (fun (g : Nat → Nat → Byte) m => storeOn e.slot m.va m.data g) (storeOn e.slot e.va d f), [])
  | .atomic _ a x y =>
    let n := aopBytes a
    let old : W64 := BitVec.ofNat 64 (natLE ((List.range n).map (fun i => f e.slot (e.va + i))))
    (storeOn e.slot e.va (bytesLE n (atomicNew a old x y).toNat) f, [old])
  | _ => (f, [])

/-- The entries of an ingress buffer applied in their order, with the old values answered. -/
def ingressActs : List Ingress → (Nat → Nat → Byte) → (Nat → Nat → Byte) × List W64
  | [], f => (f, [])
  | e :: t, f =>
    let a := e.act f
    let b := ingressActs t a.1
    (b.1, a.2 ++ b.2)

/-! ### A part that is not in operation (R359, R361, R367, R424) -/

/-- The part is not in operation, no row that could change that waits, and all but the time is as it was. -/
def Quiet (c0 : Chip) (s : State) : Prop :=
  s.chip.live = false ∧ (∀ i ∈ s.pending, i.beforeOperation = false) ∧ s.chip = { c0 with time := s.chip.time }

/-- The part does not run, no move of a pin or of the power waits, and all but the time is as it was. -/
def Dark (c0 : Chip) (s : State) : Prop :=
  s.chip.running = false ∧ (∀ i ∈ s.pending, i.movesPin = false) ∧ s.chip = { c0 with time := s.chip.time }

/-! ### Runs -/

/-- `n` steps, ending at the first stop. -/
def runSteps : Nat → State → Host.Outcome State Fault Refusal
  | 0, s => .next s
  | n + 1, s =>
    match step s with
    | .next t => runSteps n t
    | o => o

/-- The part after a list of commands, one after the other, each of which answers; none where one stops. -/
def runAll : List Instr → Chip → Option Chip
  | [], c => some c
  | i :: t, c =>
    match exec i ⟨c, []⟩ with
    | .next s => runAll t s.chip
    | _ => none

end Machine

end Sys2Proof
end

