-- ==== Sys2Proof/Certificates/Slice0/Obligations.lean ====
section
/-! DEFINITION. The statements for the provers. -/

open Sys2Proof Sys2Proof.Machine

/-- THROTTLE_N_ASSERT pulls the pin and throttles in every state; THROTTLE_N_RELEASE of a low pin lets the level hold until 10^6 cycles (1 ms) later; THROTTLE_HOLD_EXPIRY lifts it once that time is reached, not before; POWER_MEASURE stores the measured watts and throttles exactly above the part's TDP. Nothing else of the part changes. That POWER_MEASURE compares with the TDP is the model's choice (log entry 49), and so is how the 1 ms is counted in cycles of the uptime. JUNCTION_ALERT stores the measurement and asserts THERM_ALERT_N with throttling exactly from 95 °C, or from 92 °C while it is asserted; COOLING_FAULT begins at 105 °C and counts shedding from now; THERMTRIP at 115 °C pulls THERMTRIP_N and stops every clock, so that the part no longer runs, keeping memory, contexts and what has left the part; AVS_NO_ACK from stage 1 on records the die as limited; SMBUS_BLOCK_READ answers the 24 bytes of identity, health, temperature and power; SMBUS_ALERT_RESPONSE releases MG_ALERT_N and answers the part's address. How a measurement reaches the part (a command's operand) is the model's choice (log entry 49). -/
def Obligations.ThrottlingHeatAndManagementBus : Prop :=
  (∀ s : State, Becomes .throttleNAssert s
    { s.chip with
      pins := { s.chip.pins with throttleN := false }
      power := { s.chip.power with pinThrottle := true, holdUntil := none } }) ∧
  (∀ s : State, s.chip.pins.throttleN = false → Becomes .throttleNRelease s
    { s.chip with
      pins := { s.chip.pins with throttleN := true }
      power := { s.chip.power with holdUntil := some (s.chip.time.uptime + 1000000) } }) ∧
  (∀ (s : State) (t : Nat), s.chip.running = true → s.chip.power.holdUntil = some t → t ≤ s.chip.time.uptime →
    Becomes .throttleHoldExpiry s { s.chip with power := { s.chip.power with pinThrottle := false, holdUntil := none } }) ∧
  (∀ (s : State) (t : Nat), s.chip.power.holdUntil = some t → s.chip.time.uptime < t → Becomes .throttleHoldExpiry s s.chip) ∧
  (∀ (s : State) (w : Nat), s.chip.running = true → w ≤ 4095 →
    Becomes (.powerMeasure w) s { s.chip with power := { s.chip.power with watts := w, powerThrottle := decide (s.chip.ident.part.tdp < w) } }) ∧
  (∀ (s : State) (n : Nat), s.chip.running = true → n ≤ 150 →
    Becomes (.junctionAlert n) s
      { s.chip with
        pins := { s.chip.pins with thermAlertN := !(decide (95 ≤ n) || (!s.chip.pins.thermAlertN && decide (92 ≤ n))) }
        power := { s.chip.power with junction := n, thermThrottle := decide (95 ≤ n) || (!s.chip.pins.thermAlertN && decide (92 ≤ n)) } }) ∧
  (∀ s : State, s.chip.running = true → 105 ≤ s.chip.power.junction → s.chip.power.cooling = false →
    Becomes .coolingFault s { s.chip with power := { s.chip.power with cooling := true, lastShed := s.chip.time.uptime } }) ∧
  (∀ s : State, s.chip.running = true → 115 ≤ s.chip.power.junction →
    Yields .thermtrip s (fun c => c.running = false ∧
      c = { s.chip with
        regs := c.regs
        pins := { s.chip.pins with thermtripN := false }
        power := { s.chip.power with stopped := true } })) ∧
  (∀ (s : State) (b : AvsBus), s.chip.running = true → s.chip.stage ≠ 0 → s.chip.power.clockLimited.contains b.val = false →
    s.chip.power.avsFail.contains b.val = false →
    Becomes (.avsNoAck b) s
      { s.chip with power := { s.chip.power with avsFail := s.chip.power.avsFail ++ [b.val], clockLimited := s.chip.power.clockLimited ++ [b.val] } }) ∧
  (∀ s : State, s.chip.running = true → Yields .smbusBlockRead s (fun c => ∃ bs : List Byte, bs.length = 24 ∧
      bs = bytesLE 4 s.chip.ident.partWord ++ bytesLE 4 s.chip.ident.stepWord ++ bytesLE 8 s.chip.ident.serial.toNat ++
        bytesLE 4 (s.chip.healthWord.toNat / 2 ^ 32) ++ bytesLE 2 s.chip.power.junction ++ bytesLE 2 s.chip.power.watts ∧
      c = { s.chip with out := .smbus bs :: s.chip.out })) ∧
  (∀ s : State, s.chip.running = true → s.chip.pins.mgAlertN = false →
    Becomes .smbusAlertResponse s
      { s.chip with
        pins := { s.chip.pins with mgAlertN := true }
        out := .smbus [BitVec.ofNat 8 (2 * (0x60 + s.chip.ident.cardId.toNat))] :: s.chip.out })

/-- PWROK_FALL returns the part to its reset state but for identity, flash (any operation on it dropped), the levels of the inputs, the host's memory, the draw counter and what has left the part. PWROK_RISE of an unpowered part with no failing sheet makes that same state, samples CARD_ID and starts UPTIME at 0; with a failing sheet it still powers up. RESET_N_ASSERT of a powered part keeps identity, UPTIME, health, change log, the measured power and heat, and a THERMTRIP stop, drops all commands, contexts, device memory, cells and rings, and holds the part; every retired sheet's place stays retired. RESET_N_RELEASE lets the part start from this uptime. PERST_N_ASSERT with no ring in a host window clears only the host port's registers and latches and logs operation 12; PERST_N_RELEASE brings the port back. That THROTTLE_N keeps throttling and host memory stands through a reset, and that the host port's latches go with PERST_N, are the model's readings (log entries 1, 8 and 15). -/
def Obligations.ResetInputsActAsTheTableStates : Prop :=
  (∀ s : State, Becomes .pwrokFall s
    { Chip.reset with
      ident := s.chip.ident
      flash := { s.chip.flash with busy := none }
      pins := { s.chip.pins with pwrok := false, faultN := true, thermAlertN := true, mgAlertN := true, thermtripN := true }
      power := { Power.reset with pinThrottle := !s.chip.pins.throttleN }
      host := s.chip.host
      freeCtr := s.chip.freeCtr
      out := s.chip.out }) ∧
  (∀ (s : State) (card : BitVec 4), s.chip.pins.pwrok = false → Becomes (.pwrokRise card []) s
    { Chip.reset with
      ident := { s.chip.ident with cardId := card }
      flash := { s.chip.flash with busy := none }
      pins := { s.chip.pins with pwrok := true, cardIdIn := card, faultN := true, thermAlertN := true, mgAlertN := true, thermtripN := true }
      power := { Power.reset with pinThrottle := !s.chip.pins.throttleN }
      host := s.chip.host
      freeCtr := s.chip.freeCtr
      out := s.chip.out }) ∧
  (∀ s : State, s.chip.pins.pwrok = true →
    Yields .resetNAssert s (fun c => c.running = false ∧ c.pins.resetN = false ∧ c.time.uptime = s.chip.time.uptime ∧ c.ident = s.chip.ident ∧
      c.health = s.chip.health ∧ c.log = { s.chip.log with fetching := none } ∧ c.flash = { s.chip.flash with busy := none } ∧
      c.power.stopped = s.chip.power.stopped ∧ c.power.watts = s.chip.power.watts ∧ c.power.junction = s.chip.power.junction ∧
      c.commands = [] ∧ c.contexts = [] ∧ c.mem = [] ∧ c.host = s.chip.host ∧ c.cells = [] ∧ c.rings = [] ∧ c.keys = [] ∧ c.stage = 0 ∧
      ∀ k ∈ s.chip.retiredSheets, (c.sheetK k).role = .retired)) ∧
  (∀ s : State, s.chip.pins.resetN = false → Becomes .resetNRelease s
    { s.chip with pins := { s.chip.pins with resetN := true }, time := { s.chip.time with started := s.chip.time.uptime } }) ∧
  (∀ s : State, s.chip.pins.perstN = true → (∀ r ∈ s.chip.rings, s.chip.ringInHost r = false) →
    Yields .perstNAssert s (fun c => c.pins = { s.chip.pins with perstN := false } ∧ c.rings = s.chip.rings ∧ c.log.next = s.chip.log.next + 1 ∧
      (∀ q ∈ c.reqs, q.req = .firmware ∨ q.req = .monitor) ∧
      c = { s.chip with
        pins := c.pins
        regs := c.regs
        reqs := c.reqs
        log := c.log
        freeCtr := c.freeCtr })) ∧
  (∀ s : State, Becomes .perstNRelease s { s.chip with pins := { s.chip.pins with perstN := true } })

/-- At stage 0 FURNISH_VERIFY with working incarnation sectors makes CHIP_INC one more than the highest value found; with no valid copy the part goes to stage 7 and pulls FAULT_N, with a valid one it goes to stage 1, taking copy A where both are valid and A's version is not lower. RECORDS_APPLY takes stage 1 to stage 2 for every list of records, and changes nothing at another stage. HBM_TRAINED takes stage 2 to 3, LINKS_UP takes stage 3 to 4 and neither changes anything else at another stage. FURNISH_CELL_ADMIT waits for radio time; with none waiting it reaches stage 5 and raises the rollback floor. START_SLOW sets STICKY_SLOW 120 s after the start without radio time. An erased sector counting as 0 is the model's choice (log entry 53). -/
def Obligations.StartUpStagesAdvance : Prop :=
  (∀ (s : State) (a b : FurnishCopy) (e : Bool), s.chip.running = true → s.chip.stage = 0 → copyOk a = true → copyOk b = true →
    FurnishCopy.valid a s.chip.ident.rollbackFloor = false → FurnishCopy.valid b s.chip.ident.rollbackFloor = false →
    Yields (.furnishVerify a b e .ok) s (fun c => c.stage = 7 ∧ c.pins = { s.chip.pins with faultN := false } ∧
      c.fld R.FAB_STAT F.FAB_STAT.CHIP_INC = (max (highestInc s.chip.flash.sector0) (highestInc s.chip.flash.sector1) + 1) % 2 ^ 32 ∧
      c.mem = s.chip.mem ∧ c.out = s.chip.out)) ∧
  (∀ (s : State) (a b : FurnishCopy), s.chip.running = true → s.chip.stage = 0 → copyOk a = true → copyOk b = true →
    FurnishCopy.valid a s.chip.ident.rollbackFloor = true → b.version ≤ a.version →
    Yields (.furnishVerify a b false .ok) s (fun c => c.stage = 1 ∧ c.fld R.BOOT_STAT F.BOOT_STAT.COPY = 0 ∧
      c.fld R.BOOT_STAT F.BOOT_STAT.VERSION = a.version ∧ c.furnishMin = a.minVersion ∧
      c.fld R.FAB_STAT F.FAB_STAT.CHIP_INC = (max (highestInc s.chip.flash.sector0) (highestInc s.chip.flash.sector1) + 1) % 2 ^ 32 ∧
      c.mem = s.chip.mem)) ∧
  (∀ (s : State) (l : List FurnishRecord), s.chip.running = true → s.chip.stage = 1 → l.length ≤ 65536 → l.all recordOk = true →
    Yields (.recordsApply l) s (fun c => c.stage = 2)) ∧
  (∀ (s : State) (l : List FurnishRecord), s.chip.stage ≠ 1 → l.length ≤ 65536 → l.all recordOk = true → Becomes (.recordsApply l) s s.chip) ∧
  (∀ (s : State) (l : List Nat), s.chip.running = true → s.chip.stage = 2 → l.length ≤ 2 → l.sum ≤ 4096 →
    Yields (.hbmTrained l) s (fun c => c.stage = 3 ∧ c = { s.chip with regs := c.regs, out := c.out })) ∧
  (∀ s : State, s.chip.running = true → s.chip.stage = 3 → Yields .linksUp s (fun c => c.stage = 4 ∧ c = { s.chip with regs := c.regs, out := c.out })) ∧
  (∀ s : State, s.chip.stage ≠ 3 → Becomes .linksUp s s.chip) ∧
  (∀ s : State, s.chip.running = true → s.chip.stage = 4 → s.chip.rtValid = true → s.chip.furnishCells = [] →
    Yields .furnishCellAdmit s (fun c => c.stage = 5 ∧ c.ident.rollbackFloor = max s.chip.ident.rollbackFloor s.chip.furnishMin)) ∧
  (∀ s : State, s.chip.rtValid = false → Becomes .furnishCellAdmit s s.chip) ∧
  (∀ s : State, s.chip.running = true → 1 ≤ s.chip.stage → s.chip.stage ≤ 4 → s.chip.rtValid = false →
    s.chip.time.started + 120000000000 ≤ s.chip.time.uptime → Becomes .startSlow s (s.chip.mark R.BOOT_STAT F.BOOT_STAT.STICKY_SLOW))

/-- With the part answering, the requester on BAR0, no early write, no operation in progress and an aligned address outside what is barred, FLASH_ERASE sets BUSY with ERR 0 and makes one log entry, FLASH_PROGRAM takes the 256 bytes of FLASH_BUF, FLASH_READ starts whatever the address range; an address that is not aligned to its unit sets ERR 1, a barred one ERR 2, and nothing starts. FLASH_OP_COMPLETE of a successful erase leaves every byte of the 64 KiB erased and every other byte as it was; of a program it puts its bytes; it clears BUSY. What an operation leaves after an error is open (log entry 50) and no clause speaks of it. -/
def Obligations.FlashOperationsRunUnderTheirChecks : Prop :=
  (∀ (s : State) (r : Requester), s.chip.running = true → s.chip.stage ≠ 0 → s.chip.reaches r = true → mayReachBar0 r = true →
    (s.chip.supersede r).early r = false → s.chip.flash.busy = none → s.chip.fld R.FLASH_ADDR F.FLASH_ADDR.ADDR % 65536 = 0 →
    (s.chip.supersede r).flashBarred (s.chip.fld R.FLASH_ADDR F.FLASH_ADDR.ADDR) 65536 = false →
    Yields (.flashErase r) s (fun c => c.flash = { s.chip.flash with busy := some ⟨1, s.chip.fld R.FLASH_ADDR F.FLASH_ADDR.ADDR, []⟩ } ∧
      c.fld R.FLASH_STAT F.FLASH_STAT.BUSY = 1 ∧ c.fld R.FLASH_STAT F.FLASH_STAT.ERR = 0 ∧ c.log.next = s.chip.log.next + 1 ∧
      c.mem = s.chip.mem ∧ c.sheets = s.chip.sheets ∧ c.contexts = s.chip.contexts)) ∧
  (∀ (s : State) (r : Requester), s.chip.running = true → s.chip.stage ≠ 0 → s.chip.reaches r = true → mayReachBar0 r = true →
    (s.chip.supersede r).early r = false → s.chip.flash.busy = none → s.chip.fld R.FLASH_ADDR F.FLASH_ADDR.ADDR % 256 = 0 →
    (s.chip.supersede r).flashBarred (s.chip.fld R.FLASH_ADDR F.FLASH_ADDR.ADDR) 256 = false →
    Yields (.flashProgram r) s (fun c =>
      c.flash = { s.chip.flash with busy := some ⟨2, s.chip.fld R.FLASH_ADDR F.FLASH_ADDR.ADDR, s.chip.flashBuf⟩ } ∧
      c.fld R.FLASH_STAT F.FLASH_STAT.BUSY = 1 ∧ c.fld R.FLASH_STAT F.FLASH_STAT.ERR = 0 ∧
      c = { s.chip with flash := c.flash, regs := c.regs, reqs := c.reqs })) ∧
  (∀ (s : State) (r : Requester), s.chip.running = true → s.chip.stage ≠ 0 → s.chip.reaches r = true → mayReachBar0 r = true →
    (s.chip.supersede r).early r = false → s.chip.flash.busy = none → s.chip.fld R.FLASH_ADDR F.FLASH_ADDR.ADDR % 256 = 0 →
    Yields (.flashRead r) s (fun c => c.flash = { s.chip.flash with busy := some ⟨3, s.chip.fld R.FLASH_ADDR F.FLASH_ADDR.ADDR, []⟩ } ∧
      c.fld R.FLASH_STAT F.FLASH_STAT.BUSY = 1 ∧ c.fld R.FLASH_STAT F.FLASH_STAT.ERR = 0 ∧
      c = { s.chip with flash := c.flash, regs := c.regs, reqs := c.reqs })) ∧
  (∀ (s : State) (r : Requester), s.chip.running = true → s.chip.stage ≠ 0 → s.chip.reaches r = true → mayReachBar0 r = true →
    (s.chip.supersede r).early r = false → s.chip.flash.busy = none → s.chip.fld R.FLASH_ADDR F.FLASH_ADDR.ADDR % 65536 ≠ 0 →
    Yields (.flashErase r) s (fun c => c.flash = s.chip.flash ∧ c.fld R.FLASH_STAT F.FLASH_STAT.ERR = 1)) ∧
  (∀ (s : State) (r : Requester), s.chip.running = true → s.chip.stage ≠ 0 → s.chip.reaches r = true → mayReachBar0 r = true →
    (s.chip.supersede r).early r = false → s.chip.flash.busy = none → s.chip.fld R.FLASH_ADDR F.FLASH_ADDR.ADDR % 65536 = 0 →
    (s.chip.supersede r).flashBarred (s.chip.fld R.FLASH_ADDR F.FLASH_ADDR.ADDR) 65536 = true →
    Yields (.flashErase r) s (fun c => c.flash = s.chip.flash ∧ c.fld R.FLASH_STAT F.FLASH_STAT.ERR = 2)) ∧
  (∀ (s : State) (a : Nat), s.chip.running = true → s.chip.flash.busy = some ⟨1, a, []⟩ →
    Yields (.flashOpComplete true) s (fun c => c.flash.busy = none ∧ c.fld R.FLASH_STAT F.FLASH_STAT.BUSY = 0 ∧
      (∀ x, memGet c.flash.bytes x = if a ≤ x ∧ x < a + 65536 then 0 else memGet s.chip.flash.bytes x) ∧
      c = { s.chip with flash := c.flash, regs := c.regs })) ∧
  (∀ (s : State) (a : Nat) (d : List Byte), s.chip.running = true → s.chip.flash.busy = some ⟨2, a, d⟩ →
    Yields (.flashOpComplete true) s (fun c => c.flash.busy = none ∧ c.fld R.FLASH_STAT F.FLASH_STAT.BUSY = 0 ∧
      c.flash.bytes = memWrite s.chip.flash.bytes a (d.map (· ^^^ 0xFF#8)) ∧ c = { s.chip with flash := c.flash, regs := c.regs }))

/-- CHANGE_LOG_SPILL moves the oldest entry of the on-chip ring to the end of the HBM ring, which keeps the newest 65,536. LOG_FETCH sets LOG_RD.BUSY with the sequence number asked for. LOG_FETCH_COMPLETE clears BUSY and sets RESULT 2 for a number not yet used, 1 for one that has left the log, and 0 with the four words of an entry that is sound; nothing else of the part changes. -/
def Obligations.ChangeLogFetchAndSpill : Prop :=
  (∀ (s : State) (e : LogEntry) (t : List LogEntry), s.chip.running = true → s.chip.log.ring = e :: t →
    Becomes .changeLogSpill s
      { s.chip with log := { s.chip.log with
        ring := t
        hbm := if (s.chip.log.hbm ++ [e]).length > 65536 then (s.chip.log.hbm ++ [e]).drop 1 else s.chip.log.hbm ++ [e] } }) ∧
  (∀ (s : State) (r : Requester) (q : W64), s.chip.live = true → s.chip.reaches r = true → mayReachBar0 r = true →
    Yields (.logFetch r q) s (fun c => c.log = { s.chip.log with fetching := some q.toNat } ∧ c.fld R.LOG_RD F.LOG_RD.BUSY = 1 ∧
      c = { s.chip with log := c.log, regs := c.regs, reqs := c.reqs })) ∧
  (∀ (s : State) (q : Nat), s.chip.live = true → s.chip.log.fetching = some q → s.chip.log.next ≤ q →
    Yields .logFetchComplete s (fun c => c.log = { s.chip.log with fetching := none } ∧ c.fld R.LOG_RD F.LOG_RD.BUSY = 0 ∧
      c.fld R.LOG_RD F.LOG_RD.RESULT = 2 ∧ c = { s.chip with log := c.log, regs := c.regs })) ∧
  (∀ (s : State) (q : Nat), s.chip.live = true → s.chip.log.fetching = some q → q < s.chip.log.next → s.chip.logFind q = none →
    Yields .logFetchComplete s (fun c => c.log = { s.chip.log with fetching := none } ∧ c.fld R.LOG_RD F.LOG_RD.BUSY = 0 ∧
      c.fld R.LOG_RD F.LOG_RD.RESULT = 1 ∧ c = { s.chip with log := c.log, regs := c.regs })) ∧
  (∀ (s : State) (q : Nat) (e : LogEntry), s.chip.live = true → s.chip.log.fetching = some q → q < s.chip.log.next → s.chip.logFind q = some e →
    s.chip.logDamaged e = false →
    Yields .logFetchComplete s (fun c => c.log = { s.chip.log with fetching := none } ∧ c.fld R.LOG_RD F.LOG_RD.RESULT = 0 ∧
      c.reg (R.LOG_ENT 0) = nth e.words 0 0 ∧ c.reg (R.LOG_ENT 1) = nth e.words 1 0 ∧ c.reg (R.LOG_ENT 2) = nth e.words 2 0 ∧
      c.reg (R.LOG_ENT 3) = nth e.words 3 0 ∧ c = { s.chip with log := c.log, regs := c.regs }))

/-- While the part runs outside recovery mode, id prints seven identity words, caps the capability list, links, cells and tenants their registers, temps one word for each die and stack with the throttle state last, counters the counts of the block, log the newest n entries (n from 1 to 1,024, otherwise ?), selftest the mask of the quires it tests and of those it skips, baud a new rate that then holds (an unlisted rate is answered with ?), lock locks. Every command restarts the idle time, and after 15 minutes without one the monitor is locked. Nothing else of the part changes, selftest and the draws of temps apart. The temperatures are open (log entry 51). -/
def Obligations.MonitorPrintsAndControls : Prop :=
  (∀ s : State, s.chip.running = true → Yields .monId s (fun c => ∃ ws : List W64, ws.length = 7 ∧ ws.head? = some (BitVec.ofNat 64 s.chip.ident.partWord) ∧
    ws.getLast? = some (BitVec.ofNat 64 s.chip.stage) ∧ c = { s.chip with monitor := c.monitor, out := .uart "id" ws :: s.chip.out } ∧
    c.monitor.lastCommand = s.chip.time.uptime)) ∧
  (∀ s : State, s.chip.running = true →
    Yields .monCaps s (fun c => c = { s.chip with monitor := c.monitor, out := .uart "caps" s.chip.capList :: s.chip.out })) ∧
  (∀ s : State, s.chip.running = true → s.chip.inRecovery = false →
    Yields .monLinks s (fun c => ∃ ws : List W64, ws.length = 232 ∧ ws.head? = some (s.chip.reg (R.PORT_STAT 0)) ∧
      c = { s.chip with monitor := c.monitor, out := .uart "links" ws :: s.chip.out })) ∧
  (∀ s : State, s.chip.running = true → s.chip.inRecovery = false →
    Yields .monCells s (fun c => ∃ ws : List W64, ws.getLast? = some (s.chip.reg R.TM_STATE) ∧
      c = { s.chip with monitor := c.monitor, out := .uart "cells" ws :: s.chip.out })) ∧
  (∀ s : State, s.chip.running = true → s.chip.inRecovery = false →
    Yields .monTenants s (fun c => c = { s.chip with
      monitor := c.monitor
      out := .uart "tenants" (((List.range 64).filter (fun i => s.chip.slotState i != 0)).flatMap (fun i =>
        [BitVec.ofNat 64 i, s.chip.reg (R.TEN_STAT i), s.chip.tenantUseWord i])) :: s.chip.out })) ∧
  (∀ s : State, s.chip.running = true → s.chip.inRecovery = false →
    Yields .monTemps s (fun c => ∃ ws : List W64, ws.length = s.chip.ident.part.sensors + 1 ∧
      c = { s.chip with monitor := c.monitor, freeCtr := s.chip.freeCtr + s.chip.ident.part.sensors, out := .uart "temps" ws :: s.chip.out })) ∧
  (∀ (s : State) (b : CounterBlock), s.chip.running = true → s.chip.inRecovery = false →
    Yields (.monCounters b) s (fun c => c = { s.chip with
      monitor := c.monitor
      out := .uart "counters" ((List.range (cntNumber (CounterBlock.unit b))).map (fun n => s.chip.reg (cntCount (CounterBlock.unit b) n))) :: s.chip.out })) ∧
  (∀ (s : State) (n : Nat), s.chip.running = true → s.chip.inRecovery = false → 1 ≤ n → n ≤ 1024 →
    Yields (.monLog n) s (fun c => c = { s.chip with
      monitor := c.monitor
      out := .uart "log" (((s.chip.log.hbm ++ s.chip.log.ring).drop ((s.chip.log.hbm ++ s.chip.log.ring).length - n)).flatMap LogEntry.words) :: s.chip.out })) ∧
  (∀ (s : State) (n : Nat), s.chip.running = true → s.chip.inRecovery = false → n = 0 ∨ 1024 < n → n < 2 ^ 32 →
    Yields (.monLog n) s (fun c => c = { s.chip with monitor := c.monitor, out := .uart "?" [] :: s.chip.out })) ∧
  (∀ s : State, s.chip.running = true → s.chip.inRecovery = false →
    (∀ q < 32, s.chip.quireIdle q = false) →
    Yields .monSelftest s (fun c => c = { s.chip with monitor := c.monitor, out := .uart "selftest" [0, 0xFFFFFFFF] :: s.chip.out })) ∧
  (∀ (s : State) (n : Nat), s.chip.running = true → s.chip.inRecovery = false → n ∈ baudRates →
    Yields (.monBaud n) s (fun c => c.monitor.baud = n ∧ c = { s.chip with monitor := c.monitor, out := .uart "baud" [BitVec.ofNat 64 n] :: s.chip.out })) ∧
  (∀ (s : State) (n : Nat), s.chip.running = true → s.chip.inRecovery = false → n ∉ baudRates → n < 2 ^ 32 →
    Yields (.monBaud n) s (fun c => c.monitor.baud = s.chip.monitor.baud ∧
      c = { s.chip with monitor := c.monitor, out := .uart "?" [] :: s.chip.out })) ∧
  (∀ s : State, s.chip.running = true → s.chip.inRecovery = false →
    Yields .monLock s (fun c => c.monitor.unlocked = false ∧ c = { s.chip with monitor := c.monitor, out := .uart "lock" [] :: s.chip.out })) ∧
  (∀ s : State, s.chip.running = true → s.chip.monitor.unlocked = true → s.chip.monitor.lastCommand + 900000000000 ≤ s.chip.time.uptime →
    Becomes .monitorIdleLock s { s.chip with monitor := { s.chip.monitor with unlocked := false } }) ∧
  (∀ s : State, s.chip.time.uptime < s.chip.monitor.lastCommand + 900000000000 → Becomes .monitorIdleLock s s.chip)

/-- unlock draws a fresh challenge and prints it, or is answered with ? while it is refused or no key has been programmed. A response that equals the HMAC over the challenge unlocks, clears the count of wrong ones and uses the challenge up; another counts as wrong, uses the challenge up and leaves the monitor as it was. peek prints n words read without side effects, poke makes one 4-byte write as the monitor, flash starts an operation at an address; each is answered with ? while the monitor is locked. How the digits of the challenge are laid out for the HMAC is the model's reading (log entry 52); the challenge's value is open. -/
def Obligations.MonitorUnlocksAndReachesRegisters : Prop :=
  (∀ s : State, s.chip.running = true → s.chip.unlockRefused = false →
    Yields .monUnlock s (fun c => ∃ x : W32, c.monitor.challenge = some x ∧
      c = { s.chip with monitor := c.monitor, freeCtr := s.chip.freeCtr + 1, out := .uart "unlock" [x.setWidth 64] :: s.chip.out })) ∧
  (∀ s : State, s.chip.running = true → s.chip.unlockRefused = true →
    Yields .monUnlock s (fun c => c = { s.chip with monitor := c.monitor, out := .uart "?" [] :: s.chip.out })) ∧
  (∀ (s : State) (k : List Byte) (x r : W32), s.chip.running = true → s.chip.unlockRefused = false → s.chip.ident.unlockKey = some k →
    s.chip.monitor.challenge = some x → r = s.chip.unlockAnswer k x →
    Yields (.monUnlockResponse r) s (fun c => c.monitor.unlocked = true ∧ c.monitor.challenge = none ∧ c.monitor.wrong = 0 ∧
      c = { s.chip with monitor := c.monitor, out := .uart "unlock" [1] :: s.chip.out })) ∧
  (∀ (s : State) (k : List Byte) (x r : W32), s.chip.running = true → s.chip.unlockRefused = false → s.chip.ident.unlockKey = some k →
    s.chip.monitor.challenge = some x → r ≠ s.chip.unlockAnswer k x →
    Yields (.monUnlockResponse r) s (fun c => (c.monitor.unlocked = true → s.chip.monitor.unlocked = true) ∧ c.monitor.challenge = none ∧
      c.monitor.wrong = s.chip.monitor.wrong + 1 ∧ c = { s.chip with monitor := c.monitor, out := .uart "unlock" [0] :: s.chip.out })) ∧
  (∀ (s : State) (a n : Nat), s.chip.running = true → s.chip.inRecovery = false → s.chip.monitor.unlocked = true → s.chip.monitorIdle = false →
    1 ≤ n → n ≤ 64 → a % 4 = 0 → a + 4 * n ≤ 0x10000000 →
    Yields (.monPeek a n) s (fun c =>
      c = { s.chip with monitor := c.monitor, out := .uart "peek" ((List.range n).map (fun k => s.chip.peekWord (a + 4 * k))) :: s.chip.out })) ∧
  (∀ (s : State) (a : Nat) (v : W32), s.chip.running = true → s.chip.inRecovery = false → s.chip.monitor.unlocked = true → s.chip.monitorIdle = false →
    a % 4 = 0 → a < 0x10000000 →
    Becomes (.monPoke a v) s ((s.chip.monitorTakes.write4 .monitor a v).send (.uart "poke" []))) ∧
  (∀ (s : State) (op : Fin 4) (a : W32), s.chip.running = true → s.chip.monitor.unlocked = true → s.chip.monitorIdle = false → op.val ≠ 0 →
    Becomes (.monFlash op a) s ((flashCmd .monitor op.val (s.chip.monitorTakes.setReg R.FLASH_ADDR (a.setWidth 64))).send (.uart "flash" []))) ∧
  (∀ (s : State) (a n : Nat) (v w : W32) (op : Fin 4), s.chip.running = true → s.chip.inRecovery = false → s.chip.monitor.unlocked = false →
    a < 2 ^ 32 → n < 2 ^ 32 →
    (∀ i ∈ [Instr.monPeek a n, .monPoke a v, .monFlash op w],
      Yields i s (fun c => c = { s.chip with monitor := c.monitor, out := .uart "?" [] :: s.chip.out })))

/-- A configuration that R384 to R386 accept sets THRESH, EVENT, QUAL, CHAIN_IN, INT_EN, SAMPLE_EN, ENABLE, SLOT_EN, SLOT and CLASS_FILT as written and keeps STOPPED; one they refuse leaves the counter as it was and sets CNT_CTL.CFG_REFUSED. A value write to a counter that is not enabled sets VALUE and clears STOPPED; to an enabled one it is refused. An increment that carries an enabled, running, unfrozen counter past 2^48 - 1 with no chained counter above it leaves VALUE at 2^48 - 1 with OVF and STOPPED set; with one above it VALUE wraps and the counter keeps running. FREEZE is set and cleared as written. In every case memory, sheets, contexts, commands and the change log stand. -/
def Obligations.CountersConfigureCountAndStop : Prop :=
  (∀ (s : State) (r : Requester) (u : CounterUnit) (n : Nat) (v : W64), s.chip.live = true → s.chip.reaches r = true → mayReachBar0 r = true →
    n < counters u → cntCfgOk u n v = true →
    Yields (.counterCfgWrite r u n v) s (fun c =>
      (∀ f ∈ [F.SC_CFG.THRESH, F.SC_CFG.EVENT, F.SC_CFG.QUAL, F.SC_CFG.CHAIN_IN, F.SC_CFG.INT_EN, F.SC_CFG.SAMPLE_EN, F.SC_CFG.ENABLE, F.SC_CFG.SLOT_EN,
        F.SC_CFG.SLOT, F.SC_CFG.CLASS_FILT], c.fld (cntCfg u n) f = fget v f) ∧
      c.fld (cntCfg u n) F.SC_CFG.STOPPED = s.chip.fld (cntCfg u n) F.SC_CFG.STOPPED ∧
      c = { s.chip with regs := c.regs, reqs := c.reqs, out := c.out })) ∧
  (∀ (s : State) (r : Requester) (u : CounterUnit) (n : Nat) (v : W64), s.chip.live = true → s.chip.reaches r = true → mayReachBar0 r = true →
    n < counters u → cntCfgOk u n v = false →
    Yields (.counterCfgWrite r u n v) s (fun c => c.reg (cntCfg u n) = s.chip.reg (cntCfg u n) ∧ c.fld R.CNT_CTL F.CNT_CTL.CFG_REFUSED = 1 ∧
      c = { s.chip with regs := c.regs, reqs := c.reqs })) ∧
  (∀ (s : State) (r : Requester) (u : CounterUnit) (n : Nat) (v : W64), s.chip.live = true → s.chip.reaches r = true → mayReachBar0 r = true →
    n < counters u → s.chip.flag (cntCfg u n) F.SC_CFG.ENABLE = false →
    Yields (.counterValueWrite r u n v) s (fun c => c.fld (cntCount u n) F.SC_COUNT.VALUE = v.toNat % 2 ^ 48 ∧
      c.fld (cntCfg u n) F.SC_CFG.STOPPED = 0 ∧ c = { s.chip with regs := c.regs, reqs := c.reqs })) ∧
  (∀ (s : State) (r : Requester) (u : CounterUnit) (n : Nat) (v : W64), s.chip.live = true → s.chip.reaches r = true → mayReachBar0 r = true →
    n < counters u → s.chip.flag (cntCfg u n) F.SC_CFG.ENABLE = true →
    Yields (.counterValueWrite r u n v) s (fun c => c.reg (cntCount u n) = s.chip.reg (cntCount u n) ∧ c.fld R.CNT_CTL F.CNT_CTL.CFG_REFUSED = 1 ∧
      c = { s.chip with regs := c.regs, reqs := c.reqs })) ∧
  (∀ (s : State) (u : CounterUnit) (n inc : Nat) (pc : W32), s.chip.live = true → n < counters u → inc < 65536 →
    2 ^ 48 ≤ s.chip.fld (cntCount u n) F.SC_COUNT.VALUE + inc → s.chip.fld (cntCfg u n) F.SC_CFG.ENABLE = 1 →
    s.chip.fld (cntCfg u n) F.SC_CFG.STOPPED = 0 → s.chip.flag R.CNT_CTL F.CNT_CTL.FREEZE = false →
    n + 1 = counters u ∨ s.chip.fld (cntCfg u (n + 1)) F.SC_CFG.CHAIN_IN = 0 →
    Yields (.counterOverflow u n inc pc) s (fun c => c.fld (cntCount u n) F.SC_COUNT.VALUE = 2 ^ 48 - 1 ∧ c.fld (cntCfg u n) F.SC_CFG.OVF = 1 ∧
      c.fld (cntCfg u n) F.SC_CFG.STOPPED = 1 ∧ c = { s.chip with regs := c.regs, out := c.out })) ∧
  (∀ (s : State) (r : Requester) (b : Bool), s.chip.live = true → s.chip.reaches r = true → mayReachBar0 r = true →
    Yields (.cntFreeze r b) s (fun c => c.flag R.CNT_CTL F.CNT_CTL.FREEZE = b ∧
      c.fld R.CNT_CTL F.CNT_CTL.CFG_REFUSED = s.chip.fld R.CNT_CTL F.CNT_CTL.CFG_REFUSED ∧ c = { s.chip with regs := c.regs, reqs := c.reqs }))

/-- For a requester whose port is up and whose path leads to the offset: an access of another size or alignment completes with Unsupported Request and changes nothing; an unassigned offset reads 0 or ignores the write, counts in UNMAPPED_CNT, which saturates, and sets STICKY_UNMAPPED; a low-half read of a pair's 64-bit word returns its low half and latches the high one; a high-half read returns the latched half where it was latched from that register, and otherwise reads the register in full; a low-half write is held; a high-half write writes the held low half with it, or a low half of 0 with nothing held. A whole write of a staging or scratch word puts its writable bits. Nothing but registers and what the requester holds changes. That an access runs on a requester's path is as the model lays accesses out (log entry 9). -/
def Obligations.AccessesReachRegistersByHalves : Prop :=
  (∀ (s : State) (r : Requester) (a n : Nat), s.chip.running = true → s.chip.reaches r = true → a < addressSpan → accessOk a n = false →
    Becomes (.unsupportedRequest r a n) s { s.chip with out := .unsupportedRequest r :: s.chip.out }) ∧
  (∀ (s : State) (r p : Requester) (a : Nat) (w : Bool), s.chip.running = true → s.chip.reaches r = true → a < addressSpan →
    accessPath r a = some p → s.chip.place a = .unassigned →
    Yields (.unassignedAccess r a w) s (fun c =>
      c.fld R.GLB_STAT F.GLB_STAT.UNMAPPED_CNT = min (fmax F.GLB_STAT.UNMAPPED_CNT) (s.chip.fld R.GLB_STAT F.GLB_STAT.UNMAPPED_CNT + 1) ∧
      c.fld R.GLB_STAT F.GLB_STAT.STICKY_UNMAPPED = 1 ∧ c.out = (if w then s.chip.out else .readData r 0 :: s.chip.out) ∧
      c = { s.chip with regs := c.regs, reqs := c.reqs, out := c.out })) ∧
  (∀ (s : State) (r p : Requester) (a : Nat) (h : RegHit) (q : PairWord), s.chip.running = true → s.chip.reaches r = true → a < addressSpan →
    accessPath r a = some p → a % 4 = 0 → s.chip.place a = .word h a 8 → h.pairWord a = some q → q.comp = false →
    Yields (.lowHalfRead r a) s (fun c =>
      c.out = .readData r ((s.chip.supersede p).applied h q q.k &&& 0xFFFFFFFF#64) :: s.chip.out ∧
      (c.getReq p).highLatch = some (a, ((s.chip.supersede p).applied h q q.k >>> 32).setWidth 32) ∧
      c = { s.chip with regs := (s.chip.supersede p).regs, reqs := c.reqs, out := c.out })) ∧
  (∀ (s : State) (r p : Requester) (a : Nat) (h : RegHit) (hi : W32), s.chip.running = true → s.chip.reaches r = true → a + 4 < addressSpan →
    accessPath r (a + 4) = some p → a % 4 = 0 → s.chip.place (a + 4) = .word h a 8 → (s.chip.getReq p).highLatch = some (a, hi) →
    Becomes (.highHalfRead r (a + 4)) s { s.chip.supersede p with out := .readData r (hi.setWidth 64) :: s.chip.out }) ∧
  (∀ (s : State) (r p : Requester) (a : Nat) (h : RegHit) (q : PairWord), s.chip.running = true → s.chip.reaches r = true → a + 4 < addressSpan →
    accessPath r (a + 4) = some p → a % 4 = 0 → s.chip.place (a + 4) = .word h a 8 → h.pairWord a = some q → q.comp = false →
    (s.chip.getReq p).highLatch = none →
    Becomes (.highHalfRead r (a + 4)) s
      { s.chip.supersede p with out := .readData r ((s.chip.supersede p).applied h q q.k >>> 32) :: s.chip.out }) ∧
  (∀ (s : State) (r p : Requester) (a : Nat) (h : RegHit) (v : W32), s.chip.running = true → s.chip.reaches r = true → a < addressSpan →
    accessPath r a = some p → a % 4 = 0 → s.chip.place a = .word h a 8 →
    Yields (.lowHalfWrite r a v) s (fun c => (c.getReq p).lowHalf = some (a, v) ∧ (c.getReq p).highLatch = none ∧
      c = { s.chip with regs := (s.chip.supersede p).regs, reqs := c.reqs })) ∧
  (∀ (s : State) (r p : Requester) (a : Nat) (h : RegHit) (v lo : W32), s.chip.running = true → s.chip.reaches r = true → a + 4 < addressSpan →
    accessPath r (a + 4) = some p → a % 4 = 0 → s.chip.place (a + 4) = .word h a 8 → (s.chip.getReq p).lowHalf = some (a, lo) →
    h.desc.id ∈ [RegId.EVT_STAGE, .MAP_STAGE, .TAB_STAGE] → h.desc.logged = false → s.chip.early (hostPath p) = false → h.pairWord a = none →
    Yields (.highHalfWrite r (a + 4) v) s (fun c =>
      c.reg h.ref = h.desc.write (s.chip.reg h.ref) (BitVec.ofNat 64 (v.toNat * 2 ^ 32 + lo.toNat)) &&&
        ~~~ (BitVec.ofNat 64 (v.toNat * 2 ^ 32 + lo.toNat) &&& BitVec.ofNat 64 h.desc.w1c) ∧
      (c.getReq p).lowHalf = none ∧ (∀ x : RegRef, x.addr ≠ h.ref.addr → c.reg x = s.chip.reg x) ∧
      c = { s.chip with regs := c.regs, reqs := c.reqs })) ∧
  (∀ (s : State) (r p : Requester) (a : Nat) (h : RegHit) (v : W64), s.chip.running = true → s.chip.reaches r = true → a < addressSpan →
    accessPath r a = some p → a % 8 = 0 → s.chip.place a = .word h a 8 →
    h.desc.id ∈ [RegId.EVT_STAGE, .MAP_STAGE, .TAB_STAGE] → h.desc.logged = false → (s.chip.supersede p).early (hostPath p) = false → h.pairWord a = none →
    Yields (.registerWrite r a true v) s (fun c =>
      c.reg h.ref = h.desc.write ((s.chip.supersede p).reg h.ref) v &&& ~~~ (v &&& BitVec.ofNat 64 h.desc.w1c) ∧
      (∀ x : RegRef, x.addr ≠ h.ref.addr → c.reg x = (s.chip.supersede p).reg x) ∧
      c = { s.chip with regs := c.regs, reqs := c.reqs }))

/-- A write of the value word of a 64-bit pair is held for its requester and changes no register. A write of the complement word that is the bitwise complement of the held value word, or of the applied one where none is held, applies the value: for a pair without a rule of its own whose codes are in range, the writable bits of the register take the value. Any other complement word keeps the old value and raises INTEGRITY at the level that owns the register. Either way the held word is released. The word a pair compares where its value word was never written is the model's reading (log entry 10). -/
def Obligations.ComplementedPairsTakeMatchingWords : Prop :=
  (∀ (s : State) (r p : Requester) (a : Nat) (h : RegHit) (q : PairWord) (v : W64), s.chip.running = true → s.chip.reaches r = true → a < addressSpan →
    accessPath r a = some p → s.chip.place a = .word h a 8 → h.pairWord a = some q → q.comp = false → s.chip.early (hostPath p) = false →
    (s.chip.getReq p).lowHalf = none → (s.chip.getReq p).highLatch = none →
    Yields (.valueWordWrite r a v) s (fun c => tabGet (c.getReq p).held (q.base + 8 * q.k) = some v ∧ c = { s.chip with reqs := c.reqs })) ∧
  (∀ (s : State) (r p : Requester) (a : Nat) (h : RegHit) (b : Nat) (v : W64), s.chip.running = true → s.chip.reaches r = true → a < addressSpan →
    accessPath r a = some p → s.chip.place a = .word h a 8 → h.pairWord a = some ⟨b, false, 0, true⟩ → s.chip.early (hostPath p) = false →
    (s.chip.getReq p).lowHalf = none → (s.chip.getReq p).highLatch = none →
    v = h.complement (s.chip.heldWord p h ⟨b, false, 0, true⟩ 0) →
    h.desc.id ∈ [RegId.RADIO_CFG, .PTP_DOM_CFG, .STRM_GRID, .STRM_AGC] → h.desc.logged = true →
    h.desc.fits (s.chip.heldWord p h ⟨b, false, 0, true⟩ 0) = true →
    Yields (.complementWordWrite r a v) s (fun c =>
      c.reg h.ref = h.desc.write (s.chip.reg h.ref) (s.chip.heldWord p h ⟨b, false, 0, true⟩ 0) ∧ tabGet (c.getReq p).held b = none ∧
      c = { s.chip with regs := c.regs, reqs := c.reqs, log := c.log, freeCtr := c.freeCtr, damaged := c.damaged })) ∧
  (∀ (s : State) (r p : Requester) (a : Nat) (h : RegHit) (b : Nat) (v : W64), s.chip.running = true → s.chip.reaches r = true → a < addressSpan →
    accessPath r a = some p → s.chip.place a = .word h a 8 → h.pairWord a = some ⟨b, false, 0, true⟩ → s.chip.early (hostPath p) = false →
    (s.chip.getReq p).lowHalf = none → (s.chip.getReq p).highLatch = none →
    v ≠ h.complement (s.chip.heldWord p h ⟨b, false, 0, true⟩ 0) →
    Yields (.complementWordWrite r a v) s (fun c => tabGet (c.getReq p).held b = none ∧
      c = { s.chip.integrity h.errAt with reqs := c.reqs }))

/-- A mask write puts GLB_IRQ_MASK; with no bit of GLB_IRQ_STAT set it sends nothing, and an entry whose bit is set and which the write enables is signalled, once, by its MSI-X message where its vector is not masked. A GLB_CTL write with a matching complement that sets IRQ_EN does the same for IRQ_EN, and one with another complement raises INTEGRITY and keeps GLB_CTL. A GPIO_OUT write puts the register's pins. A requester without a path to BAR0 changes nothing but what it held. -/
def Obligations.InterruptMaskAndOutputPins : Prop :=
  (∀ (s : State) (r : Requester) (v : W32), s.chip.live = true → s.chip.reaches r = true → mayReachBar0 r = true →
    s.chip.reg R.GLB_IRQ_STAT = 0 → Becomes (.irqMaskWrite r (.mask v)) s ((s.chip.supersede r).setReg R.GLB_IRQ_MASK (v.setWidth 64))) ∧
  (∀ (s : State) (r : Requester) (v : W32) (k : Nat), s.chip.live = true → s.chip.reaches r = true → mayReachBar0 r = true →
    k < 32 → k ≠ 2 → s.chip.reg R.GLB_IRQ_STAT = BitVec.ofNat 64 (2 ^ k) → s.chip.flag R.GLB_IRQ_MASK ⟨k, 1⟩ = true → v.getLsbD k = false →
    s.chip.flag R.GLB_CTL F.GLB_CTL.IRQ_EN = true → s.chip.flag (R.MSIX_CTRL k) F.MSIX_CTRL.MASK = false →
    Becomes (.irqMaskWrite r (.mask v)) s
      { (s.chip.supersede r).setReg R.GLB_IRQ_MASK (v.setWidth 64) with out := .msix k :: s.chip.out }) ∧
  (∀ (s : State) (r : Requester) (v : W64), s.chip.live = true → s.chip.reaches r = true → mayReachBar0 r = true → s.chip.early r = false →
    s.chip.reg R.GLB_IRQ_STAT = 0 →
    Yields (.irqMaskWrite r (.glbCtl v (~~~ v))) s (fun c => c.reg R.GLB_CTL = regWrite .GLB_CTL (s.chip.reg R.GLB_CTL) v ∧
      c = { s.chip with regs := c.regs, reqs := c.reqs, log := c.log, freeCtr := c.freeCtr, damaged := c.damaged })) ∧
  (∀ (s : State) (r : Requester) (v k : W64), s.chip.live = true → s.chip.reaches r = true → mayReachBar0 r = true → s.chip.early r = false →
    k ≠ ~~~ v → Yields (.irqMaskWrite r (.glbCtl v k)) s (fun c => c = { (s.chip.supersede r).integrity atChip with reqs := c.reqs })) ∧
  (∀ (s : State) (r : Requester) (v : W32), s.chip.live = true → s.chip.reaches r = true → mayReachBar0 r = true →
    Becomes (.gpioOutWrite r v) s ((s.chip.supersede r).setReg R.GPIO_OUT (regWrite .GPIO_OUT 0 (v.setWidth 64)))) ∧
  (∀ (s : State) (r : Requester) (t : IrqTarget) (v : W32), s.chip.live = true → s.chip.reaches r = true → mayReachBar0 r = false →
    Becomes (.irqMaskWrite r t) s (s.chip.supersede r) ∧ Becomes (.gpioOutWrite r v) s (s.chip.supersede r))

/-- ERR_HI_READ returns the head entry's high word and latches its low word for the requester, keeping the ring; ERR_LO_READ returns the latched word and pops the entry. HEALTH_WINDOW_END does nothing before 600 s; then 10 points are added where the window earned none and left no debt, otherwise the debt is taken off down to the new window's floor and the rest stays debt. MEMORY_PATROL_PASS counts each corrected error as evidence and poisons the lines it finds bad, and no other. HARD_EVIDENCE sets the score to 0 and HARD_CAUSE to its code, pulls FAULT_N and sets entry 2. None of them moves time, the part's identity or its flash. A slot miss is counted; with room it enters its ring with its cause, packed as MISS_HI lays it out with the TAI time as MISS_LO, and interrupt 8 is signalled; a full ring of 64 counts the overflow. MISS_HI and MISS_LO read and pop as the error ring does; on an empty ring both read 0. -/
def Obligations.ErrorAndMissRingsHealthWindowAndPatrol : Prop :=
  (∀ (s : State) (r : Requester) (e : ErrEntry) (t : List ErrEntry), s.chip.live = true → s.chip.reaches r = true → mayReachBar0 r = true →
    s.chip.errRing = e :: t →
    Yields (.errHiRead r) s (fun c => c.out = .readData r e.hi :: s.chip.out ∧ tabGet (c.getReq r).popLatch R.ERR_HI.addr = some e.lo ∧
      c = { s.chip with regs := (s.chip.supersede r).regs, reqs := c.reqs, out := c.out })) ∧
  (∀ (s : State) (r : Requester) (e : ErrEntry) (t : List ErrEntry) (w : W64), s.chip.live = true → s.chip.reaches r = true → mayReachBar0 r = true →
    s.chip.errRing = e :: t → tabGet (s.chip.getReq r).popLatch R.ERR_HI.addr = some w →
    Yields (.errLoRead r) s (fun c => c.out = .readData r w :: s.chip.out ∧ c.errRing = t ∧ tabGet (c.getReq r).popLatch R.ERR_HI.addr = none ∧
      c.fld R.ERR_STAT F.ERR_STAT.COUNT = t.length % 2 ^ F.ERR_STAT.COUNT.w ∧
      c = { s.chip with regs := c.regs, reqs := c.reqs, out := c.out, errRing := c.errRing })) ∧
  (∀ s : State, s.chip.live = true → s.chip.time.uptime < s.chip.health.windowStart + tenMinutes → Becomes .healthWindowEnd s s.chip) ∧
  (∀ s : State, s.chip.live = true → s.chip.health.windowStart + tenMinutes ≤ s.chip.time.uptime →
    Yields .healthWindowEnd s (fun c =>
      (0 < s.chip.health.score → s.chip.health.points = 0 → s.chip.health.debt = 0 → c.health.score = min 1000 (s.chip.health.score + 10) ∧ c.health.debt = 0) ∧
      (0 < s.chip.health.debt → s.chip.health.score ≤ 1000 →
        c.health.score = s.chip.health.score - min s.chip.health.debt (s.chip.health.score - windowFloor s.chip.health.score) ∧
        c.health.debt = min 1000 (s.chip.health.debt - min s.chip.health.debt (s.chip.health.score - windowFloor s.chip.health.score))) ∧
      (s.chip.health.score = 0 → c.health.score = 0) ∧
      c.health.points = 0 ∧ c.health.counts = [] ∧ c.health.windowStart = s.chip.health.windowStart + tenMinutes ∧
      c = { s.chip with regs := c.regs, out := c.out, pins := c.pins, health := c.health, sheets := c.sheets })) ∧
  (∀ (s : State) (n : Nat) (l : List Nat), s.chip.live = true →
    Yields (.memoryPatrolPass .hbm n l) s (fun c =>
      tabGetD c.health.counts 0 0 = tabGetD s.chip.health.counts 0 0 + n ∧
      (∀ a, a ∈ c.poison ↔ a ∈ s.chip.poison ∨ ∃ b ∈ l, a = b / 64 * 64) ∧
      c = { s.chip with regs := c.regs, out := c.out, pins := c.pins, health := c.health, errRing := c.errRing, poison := c.poison })) ∧
  (∀ (s : State) (q : QuireAt) (n : Nat) (l : List Nat), s.chip.live = true →
    Yields (.memoryPatrolPass (.pool q) n l) s (fun c =>
      (∀ a, a ∈ (c.quire (quireIx q.ream q.quire)).poison ↔ a ∈ (s.chip.quire (quireIx q.ream q.quire)).poison ∨ ∃ b ∈ l, a = b / 64 * 64) ∧
      (c.quire (quireIx q.ream q.quire)).pool = (s.chip.quire (quireIx q.ream q.quire)).pool ∧
      c = { s.chip with regs := c.regs, out := c.out, pins := c.pins, health := c.health, errRing := c.errRing, quires := c.quires })) ∧
  (∀ (s : State) (h : HardCause), s.chip.live = true →
    Yields (.hardEvidence h) s (fun c => c.failed = true ∧ c.pins.faultN = false ∧ c.flag R.GLB_IRQ_STAT ⟨2, 1⟩ = true ∧
      c.health.hardCause = (match h with
        | .controlStructure => 0x10
        | .secondMismatch => 0x11
        | .reamLoss => 0x12) ∧
      c.time = s.chip.time ∧ c.ident = s.chip.ident ∧ c.flash = s.chip.flash)) ∧
  (∀ (b : Chip) (i kind frame slot : Nat) (start : Int),
    let c := b.slotMiss i kind frame slot start
    let cause := b.missCause i start
    c.fld R.MISS_STAT F.MISS_STAT.MISS_CNT = min (fmax F.MISS_STAT.MISS_CNT) (b.fld R.MISS_STAT F.MISS_STAT.MISS_CNT + 1) ∧
    (64 ≤ b.missRing.length → c.missRing = b.missRing ∧ c.flag R.MISS_STAT F.MISS_STAT.STICKY_OVF = true) ∧
    (b.missRing.length < 64 → ∃ e, c.missRing = b.missRing ++ [e] ∧ e.lo = BitVec.ofNat 64 b.taiNs ∧ fget e.hi F.MISS_HI.FRAME = frame % 1024 ∧
      fget e.hi F.MISS_HI.SLOT = slot % 128 ∧ fget e.hi F.MISS_HI.MU = b.cellMu i ∧ fget e.hi F.MISS_HI.CELL = i % 1024 ∧ fget e.hi F.MISS_HI.CAUSE = cause ∧
      fget e.hi F.MISS_HI.KIND = kind % 256 ∧ c.flag R.GLB_IRQ_STAT ⟨8, 1⟩ = true) ∧
    (cause = 0 → c.flag R.MISS_STAT F.MISS_STAT.STICKY_UNEXPLAINED = true)) ∧
  (∀ (s : State) (r : Requester), s.chip.live = true → s.chip.reaches r = true → mayReachBar0 r = true →
    let h := s.chip.missHead
    Yields (.missHiRead r) s (fun c => c.out = .readData r h.1 :: s.chip.out ∧ tabGet (c.getReq r).popLatch R.MISS_HI.addr = some h.2 ∧
      c = { s.chip with regs := (s.chip.supersede r).regs, reqs := c.reqs, out := c.out }) ∧
    (∀ w, tabGet (s.chip.getReq r).popLatch R.MISS_HI.addr = some w →
      Yields (.missLoRead r) s (fun c => c.out = .readData r w :: s.chip.out ∧ c.missRing = s.chip.missRing.drop 1 ∧
        tabGet (c.getReq r).popLatch R.MISS_HI.addr = none ∧ c.fld R.MISS_STAT F.MISS_STAT.COUNT = (s.chip.missRing.drop 1).length % 2 ^ F.MISS_STAT.COUNT.w ∧
        c = { s.chip with regs := c.regs, reqs := c.reqs, out := c.out, missRing := c.missRing }))) ∧
  (∀ c : Chip, c.missRing = [] → c.missHead = (0, 0))

/-- A first mismatch of a stored value raises INTEGRITY at the level that owns it and leaves the value marked broken; a second one of the same value within 10 minutes is hard evidence 0x11. A broken lock stays broken, a broken event entry goes idle and a broken mirror entry fails. COMPLEMENT_REWRITE makes a broken value whole again and logs each of its words; a key RAM entry and a lock are not rewritten. LOSS_OF_REAM puts the part in the failed state with cause 0x12, pulls FAULT_N and takes every quire of the ream out of service for good. The level named and what a value counts as are the model's reading of the table of structures (log entry 18). -/
def Obligations.StoredValuesFoundBrokenAreReportedAndRewritten : Prop :=
  (∀ (s : State) (o : CompObject), s.chip.live = true → CompObject.carried o = true →
    s.chip.mismatches.any (fun x => x.1 == o && decide (s.chip.time.uptime ≤ x.2 + tenMinutes)) = false →
    Yields (.storedComplementMismatch o) s (fun c => c.damaged.contains o = true ∧
      tabGetD c.health.counts 9 0 = tabGetD s.chip.health.counts 9 0 + 1 ∧ c.health.hardCause = s.chip.health.hardCause ∧
      (o, s.chip.time.uptime) ∈ c.mismatches ∧ c.mem = s.chip.mem ∧ c.cells = s.chip.cells)) ∧
  (∀ (s : State) (o : CompObject), s.chip.live = true → CompObject.carried o = true →
    s.chip.mismatches.any (fun x => x.1 == o && decide (s.chip.time.uptime ≤ x.2 + tenMinutes)) = true →
    Yields (.storedComplementMismatch o) s (fun c => c.damaged.contains o = true ∧ c.failed = true ∧ c.health.hardCause = 0x11 ∧ c.pins.faultN = false)) ∧
  (∀ (s : State) (o : CompObject), s.chip.live = true → CompObject.carried o = false → Becomes (.storedComplementMismatch o) s s.chip) ∧
  (∀ (s : State) (n : Fin 16), s.chip.live = true → s.chip.mismatches = [] →
    Yields (.storedComplementMismatch (.lock n)) s (fun c => (tabGet c.locks n.val).any (fun l => l.broken) = true)) ∧
  (∀ (s : State) (i : Fin 4096), s.chip.live = true → s.chip.mismatches = [] →
    Yields (.storedComplementMismatch (.event i)) s (fun c => fget (c.event i.val).w0 evState = 0)) ∧
  (∀ (s : State) (o : CompObject), s.chip.live = true → s.chip.damaged.contains o = true →
    (∀ k, o ≠ .keyRam k) → (∀ n, o ≠ .lock n) →
    Yields (.complementRewrite o) s (fun c => c.damaged.contains o = false ∧
      c.log.next = s.chip.log.next + (s.chip.objectWords o).length ∧
      c = { s.chip with regs := c.regs, log := c.log, freeCtr := c.freeCtr, damaged := c.damaged })) ∧
  (∀ (s : State) (n : Fin 16) (k : Fin 64), s.chip.live = true →
    Becomes (.complementRewrite (.lock n)) s s.chip ∧ Becomes (.complementRewrite (.keyRam k)) s s.chip) ∧
  (∀ (s : State) (m : Fin 4), s.chip.live = true →
    Yields (.lossOfReam m) s (fun c => c.failed = true ∧ c.health.hardCause = 0x12 ∧ c.pins.faultN = false ∧
      (∀ q < 8, c.fld (R.QUIRE_HEALTH (m.val * 8 + q)) F.QUIRE_HEALTH.STATE = 1 ∧ (c.quire (m.val * 8 + q)).isolatedForGood = true) ∧
      c.time = s.chip.time ∧ c.ident = s.chip.ident ∧ c.flash = s.chip.flash))

/-- An uncorrectable error of a sheet in service drops its task, records its cause and puts the sheet out for scrub; a sheet out of service has none. PATROL_SCRUB reads the next word, a corrected one is counted with its address and kept, more than 64 in a window ask for the sheet's retirement. SCRUB_NOW starts a pass at word 0. A sheet with RETIRE set and no task is retired; one with a task is not. SHEET_RETURN zeroes a sheet and its tags and takes the next incarnation. A self-test that passes makes it a spare, or active where it kept its logical sheets; one that fails retires it. Memory, keys and time stand. -/
def Obligations.SheetsFailScrubTestAndReturn : Prop :=
  (∀ (s : State) (q : SheetAt) (cause : SheetCause), s.chip.live = true → (s.chip.sheetK (keyPrimary (sheetKey q))).role = .active →
    (s.chip.sheetK (keyPrimary (sheetKey q))).errorUptime = none →
    Yields (.feltUncorrectableError q cause) s (fun c =>
      (c.sheetK (keyPrimary (sheetKey q))).role = .scrubbing ∧ (c.sheetK (keyPrimary (sheetKey q))).task = none ∧
      (c.sheetK (keyPrimary (sheetKey q))).errorUptime = some s.chip.time.uptime ∧
      c.fld (sheetErr (sheetKey q)) F.SHEET_ERR.LAST_CAUSE = causeCode cause ∧ SameStore s.chip c)) ∧
  (∀ (s : State) (q : SheetAt) (a : Nat), s.chip.live = true → (s.chip.sheetK (keyPrimary (sheetKey q))).role = .active →
    (s.chip.sheetK (keyPrimary (sheetKey q))).errorUptime = none →
    Yields (.patrolScrub q (.uncorrectable a)) s (fun c =>
      (c.sheetK (keyPrimary (sheetKey q))).role = .scrubbing ∧ (c.sheetK (keyPrimary (sheetKey q))).task = none ∧
      c.reg (sheetFaultAddr (keyPrimary (sheetKey q))) = BitVec.ofNat 64 (16 * (s.chip.sheetK (keyPrimary (sheetKey q))).patrolWord) ∧
      SameStore s.chip c)) ∧
  (∀ (s : State) (q : SheetAt) (cause : SheetCause), s.chip.live = true → (s.chip.sheetK (keyPrimary (sheetKey q))).role ≠ .active →
    Becomes (.feltUncorrectableError q cause) s s.chip) ∧
  (∀ (s : State) (q : SheetAt), s.chip.live = true → (s.chip.sheetK (keyPrimary (sheetKey q))).patrolWord ≠ 24575 →
    let sh := s.chip.sheetK (keyPrimary (sheetKey q))
    Becomes (.patrolScrub q .clean) s (s.chip.setSheetK (keyPrimary (sheetKey q)) { sh with patrolWord := (sh.patrolWord + 1) % 24576 })) ∧
  (∀ (s : State) (q : SheetAt), s.chip.live = true → (s.chip.sheetK (keyPrimary (sheetKey q))).patrolWord = 24575 →
    let sh := s.chip.sheetK (keyPrimary (sheetKey q))
    Becomes (.patrolScrub q .clean) s ((s.chip.setSheetK (keyPrimary (sheetKey q)) { sh with patrolWord := 0 }).setFlag
      (sheetCtl (keyPrimary (sheetKey q))) F.SHEET_CTL.SCRUB_NOW false)) ∧
  (∀ (s : State) (q : SheetAt) (a : Nat), s.chip.live = true → (s.chip.sheetK (keyPrimary (sheetKey q))).patrolWord < 24575 →
    let sh := s.chip.sheetK (keyPrimary (sheetKey q))
    Yields (.patrolScrub q (.corrected a)) s (fun c =>
      c.sheetK (keyPrimary (sheetKey q)) = { sh with patrolWord := sh.patrolWord + 1, feltCeWindow := sh.feltCeWindow + 1,
                                                     retireAsked := sh.retireAsked || decide (64 ≤ sh.feltCeWindow) } ∧
      c.fld (sheetCntK (keyPrimary (sheetKey q))) F.SHEET_CNT.FELT_CE =
        min (fmax F.SHEET_CNT.FELT_CE) (s.chip.fld (sheetCntK (keyPrimary (sheetKey q))) F.SHEET_CNT.FELT_CE + 1) ∧
      c.reg (sheetFaultAddr (keyPrimary (sheetKey q))) = BitVec.ofNat 64 (16 * sh.patrolWord) ∧
      c = { s.chip with sheets := c.sheets, regs := c.regs, out := c.out, pins := c.pins, health := c.health, errRing := c.errRing })) ∧
  (∀ (s : State) (r : Requester) (q : SheetAt), s.chip.live = true → s.chip.reaches r = true → mayReachBar0 r = true → s.chip.early r = false →
    Yields (.scrubNow r q) s (fun c => c.flag (sheetCtl (keyPrimary (sheetKey q))) F.SHEET_CTL.SCRUB_NOW = true ∧
      c.sheetK (keyPrimary (sheetKey q)) = { s.chip.sheetK (keyPrimary (sheetKey q)) with patrolWord := 0 } ∧
      c = { s.chip with sheets := c.sheets, regs := c.regs, reqs := c.reqs, log := c.log, freeCtr := c.freeCtr })) ∧
  (∀ (s : State) (q : SheetAt), s.chip.live = true → s.chip.flag (sheetCtl (keyPrimary (sheetKey q))) F.SHEET_CTL.RETIRE = true →
    (s.chip.sheetK (keyPrimary (sheetKey q))).task = none → (s.chip.sheetK (keyPrimary (sheetKey q) + 1)).task = none →
    (s.chip.sheetK (keyPrimary (sheetKey q))).killing = false →
    (s.chip.sheetK (keyPrimary (sheetKey q))).role = .active ∨ (s.chip.sheetK (keyPrimary (sheetKey q))).role = .spare →
    Yields (.sheetRetire q) s (fun c => (c.sheetK (keyPrimary (sheetKey q))).role = .retired ∧
      (c.sheetK (keyPrimary (sheetKey q))).retireAsked = false ∧
      tabGetD c.health.counts 3 0 = tabGetD s.chip.health.counts 3 0 + 1 ∧ SameStore s.chip c)) ∧
  (∀ (s : State) (q : SheetAt), s.chip.live = true → (s.chip.sheetK (keyPrimary (sheetKey q))).task ≠ none → Becomes (.sheetRetire q) s s.chip) ∧
  (∀ (s : State) (q : SheetAt), s.chip.live = true → (s.chip.sheetK (keyPrimary (sheetKey q))).role = .scrubbing →
    let k := keyPrimary (sheetKey q)
    let sh := s.chip.sheetK k
    Yields (.sheetReturn q) s (fun c =>
      c.sheetK k = { sheetReset k with role := .scrubbing, logical := sh.logical, incarnation := sh.incarnation + 1, errorUptime := sh.errorUptime } ∧
      c.sheetK (k + 1) = sheetReset (k + 1) ∧ c = { s.chip with sheets := c.sheets, regs := c.regs })) ∧
  (∀ (s : State) (q : SheetAt) (ok : Bool), s.chip.live = true → (s.chip.sheetK (keyPrimary (sheetKey q))).role ≠ .scrubbing →
    Becomes (.sheetReturn q) s s.chip ∧ Becomes (.sheetSelfTestComplete q ok) s s.chip) ∧
  (∀ (s : State) (q : SheetAt) (ok : Bool), s.chip.live = true → (s.chip.sheetK (keyPrimary (sheetKey q))).role = .scrubbing →
    keyPrimary (sheetKey q) ∉ s.chip.selfTests →
    Yields (.sheetSelfTestComplete q ok) s (fun c =>
      (c.sheetK (keyPrimary (sheetKey q))).role = (if !ok then .retired
        else if (s.chip.sheetK (keyPrimary (sheetKey q))).logical.isEmpty then .spare else .active) ∧
      (c.sheetK (keyPrimary (sheetKey q))).logical = (if ok then (s.chip.sheetK (keyPrimary (sheetKey q))).logical else []) ∧ SameStore s.chip c))

/-- QUIRE_ISOLATE puts a quire in STATE 1, kills every task on it, notes the time of the isolation and the loss of capacity, and charges soft evidence; a second isolation within 24 hours is for good; where it is isolated already its ream's capacity is only computed anew. QUIRE_TEST starts the test of one isolated at least 10 minutes ago with 48 active sheets. A test that fails leaves it isolated. One that passes, and QUIRE_WAKE of a sleeping quire, put it in STATE 0 with its next incarnation, its pool empty and each of its sheets zeroed with its next incarnation. QUIRE_SLEEP takes an uncovered quire on which no context has state, and no other. Memory, keys and time stand. -/
def Obligations.QuiresIsolateTestSleepAndWake : Prop :=
  (∀ (s : State) (q : QuireAt), s.chip.live = true → s.chip.fld (R.QUIRE_HEALTH (quireIx q.ream q.quire)) F.QUIRE_HEALTH.STATE ≠ 1 →
    let i := quireIx q.ream q.quire
    Yields (.quireIsolate q) s (fun c => c.fld (R.QUIRE_HEALTH i) F.QUIRE_HEALTH.STATE = 1 ∧ (∀ k ∈ quireKeys i, (c.sheetK k).task = none) ∧
      (c.quire i).isolations.head? = some s.chip.time.uptime ∧ c.capacityLost = some s.chip.tick ∧
      (c.quire i).isolatedForGood = ((s.chip.quire i).isolatedForGood || !(lastDay s.chip.time.uptime (s.chip.quire i).isolations).isEmpty) ∧
      tabGetD c.health.counts 4 0 = tabGetD s.chip.health.counts 4 0 + 1 ∧ SameStore s.chip c)) ∧
  (∀ (s : State) (q : QuireAt), s.chip.live = true → s.chip.fld (R.QUIRE_HEALTH (quireIx q.ream q.quire)) F.QUIRE_HEALTH.STATE = 1 →
    Becomes (.quireIsolate q) s (s.chip.recompute q.ream.val) ∧ ((s.chip.quire (quireIx q.ream q.quire)).isolatedForGood = true → Becomes (.quireTest q) s s.chip)) ∧
  (∀ (s : State) (q : QuireAt) (t : Nat) (l : List Nat), s.chip.live = true →
    s.chip.fld (R.QUIRE_HEALTH (quireIx q.ream q.quire)) F.QUIRE_HEALTH.STATE = 1 →
    (s.chip.quire (quireIx q.ream q.quire)).isolatedForGood = false → 48 ≤ s.chip.activeSheets (quireIx q.ream q.quire) →
    (s.chip.quire (quireIx q.ream q.quire)).isolations = t :: l → t + 600 * 10 ^ 9 ≤ s.chip.time.uptime →
    Becomes (.quireTest q) s (s.chip.setFld (R.QUIRE_HEALTH (quireIx q.ream q.quire)) F.QUIRE_HEALTH.STATE 3)) ∧
  (∀ (s : State) (q : QuireAt), s.chip.live = true → s.chip.fld (R.QUIRE_HEALTH (quireIx q.ream q.quire)) F.QUIRE_HEALTH.STATE = 3 →
    Becomes (.quireTestComplete q false) s (s.chip.setFld (R.QUIRE_HEALTH (quireIx q.ream q.quire)) F.QUIRE_HEALTH.STATE 1)) ∧
  (∀ (s : State) (q : QuireAt) (i : Instr), s.chip.live = true →
    (i, s.chip.fld (R.QUIRE_HEALTH (quireIx q.ream q.quire)) F.QUIRE_HEALTH.STATE) ∈ [(Instr.quireTestComplete q true, 3), (Instr.quireWake q, 2)] →
    let n := quireIx q.ream q.quire
    Yields i s (fun c => c.fld (R.QUIRE_HEALTH n) F.QUIRE_HEALTH.STATE = 0 ∧
      c.fld (R.QUIRE_HEALTH n) F.QUIRE_HEALTH.INCARNATION =
        min (fmax F.QUIRE_HEALTH.INCARNATION) (s.chip.fld (R.QUIRE_HEALTH n) F.QUIRE_HEALTH.INCARNATION + 1) ∧
      (c.quire n).pool = [] ∧ (c.quire n).slots = [] ∧
      (∀ p < 66, (c.sheetK (posKey n p)).incarnation = (s.chip.sheetK (posKey n p)).incarnation + 1 ∧ (c.sheetK (posKey n p)).felt = [] ∧
        (c.sheetK (posKey n p)).tags = [] ∧ (c.sheetK (posKey n p)).role = (s.chip.sheetK (posKey n p)).role) ∧ SameStore s.chip c)) ∧
  (∀ (s : State) (q : QuireAt), s.chip.live = true → s.chip.fld (R.QUIRE_HEALTH (quireIx q.ream q.quire)) F.QUIRE_HEALTH.STATE ≠ 2 →
    Becomes (.quireWake q) s s.chip) ∧
  (∀ (s : State) (q : QuireAt), s.chip.live = true → s.chip.quireUp (quireIx q.ream q.quire) = true →
    s.chip.quireHeld (quireIx q.ream q.quire) = false → s.chip.reamCovered q.ream.val = false →
    Becomes (.quireSleep q) s (s.chip.setFld (R.QUIRE_HEALTH (quireIx q.ream q.quire)) F.QUIRE_HEALTH.STATE 2)) ∧
  (∀ (s : State) (q : QuireAt), s.chip.live = true → s.chip.quireHeld (quireIx q.ream q.quire) = true → Becomes (.quireSleep q) s s.chip) ∧
  (∀ (s : State) (q : QuireAt), s.chip.live = true → s.chip.reamCovered q.ream.val = true → Becomes (.quireSleep q) s s.chip)

/-- MIR_CMD's write stores the staged words in an entry of its job's slot, which starts without a live copy or a closed step mirrored, and answers ERR 0; a staged word whose complement does not match raises INTEGRITY with ERR 1 and stores nothing; a length of 0 or above 32,767 units, a job that is not in the table, and a range outside the slot's device windows answer their error and store nothing. Its read-back copies an entry and its complements into the staging registers. The acknowledgement of a copy's header makes the other half the live one at the step copied; that of a sealed entry's stamp retires its oldest stamp; a copy that fails marks the entry failed and disables it. The error numbers follow the table of MIR_STAT. -/
def Obligations.MirrorEntriesAreWrittenReadAndCopied : Prop :=
  (∀ (s : State) (r : Requester) (i : Nat), s.chip.live = true → s.chip.reaches r = true → mayReachBar0 r = true → s.chip.early r = false → i < 64 →
    s.chip.reg (R.MIR_STAGE 2) = ~~~ (s.chip.reg (R.MIR_STAGE 0)) → s.chip.reg (R.MIR_STAGE 3) = ~~~ (s.chip.reg (R.MIR_STAGE 1)) →
    let v0 := s.chip.reg (R.MIR_STAGE 0)
    let v1 := s.chip.reg (R.MIR_STAGE 1)
    let slot := ((tabGet s.chip.jobs (fget v1 ⟨11, 10⟩)).map (fun (j : FabJob) => if fget j.v0 ⟨0, 1⟩ = 0 then 0 else fget j.v0 ⟨26, 6⟩)).getD 0
    let e : MirrorEntry := ⟨slot, v0 &&& 0xFFFFFFFFFFFC0000#64, v1 &&& 0x01FFFFFFFFFFF800#64, none, [], [], [], none, none, [], false⟩
    Yields (.mirWrite r i) s (fun c => c.fld R.MIR_STAT F.MIR_STAT.ERR = s.chip.mirErr i e ∧
      tabGet c.mirrors i = (if s.chip.mirErr i e = 0 then some e else tabGet s.chip.mirrors i) ∧
      (∀ j, j ≠ i → tabGet c.mirrors j = tabGet s.chip.mirrors j) ∧
      (s.chip.mirErr i e = 0 → c.damaged.contains (.mirror (Fin.ofNat 64 i)) = false) ∧
      c = { s.chip with regs := c.regs, reqs := c.reqs, log := c.log, freeCtr := c.freeCtr, mirrors := c.mirrors, damaged := c.damaged })) ∧
  (∀ (s : State) (r : Requester) (i : Nat), s.chip.live = true → s.chip.reaches r = true → mayReachBar0 r = true → s.chip.early r = false → i < 64 →
    s.chip.reg (R.MIR_STAGE 2) ≠ ~~~ (s.chip.reg (R.MIR_STAGE 0)) ∨ s.chip.reg (R.MIR_STAGE 3) ≠ ~~~ (s.chip.reg (R.MIR_STAGE 1)) →
    Yields (.mirWrite r i) s (fun c => c.fld R.MIR_STAT F.MIR_STAT.ERR = 1 ∧ c.mirrors = s.chip.mirrors ∧
      tabGetD c.health.counts 9 0 = tabGetD s.chip.health.counts 9 0 + 1)) ∧
  (∀ (s : State) (r : Requester) (i : Nat), s.chip.live = true → s.chip.reaches r = true → mayReachBar0 r = true → s.chip.early r = false → i < 64 →
    let e := ((tabGet s.chip.mirrors i).map (fun (e : MirrorEntry) => (e.v0, e.v1))).getD (0, 0)
    Yields (.mirReadBack r i) s (fun c => c.reg (R.MIR_STAGE 0) = e.1 ∧ c.reg (R.MIR_STAGE 1) = e.2 ∧ c.reg (R.MIR_STAGE 2) = ~~~ e.1 ∧
      c.reg (R.MIR_STAGE 3) = ~~~ e.2 ∧ c.fld R.MIR_STAT F.MIR_STAT.ERR = 0 ∧ c = { s.chip with regs := c.regs, reqs := c.reqs })) ∧
  (∀ (s : State) (i : Nat) (e : MirrorEntry),
    (e.length = 0 ∨ 32767 < fget e.v0 ⟨18, 16⟩ → i < 64 → s.chip.mirErr i e = 3) ∧
    (e.length ≠ 0 → fget e.v0 ⟨18, 16⟩ ≤ 32767 → i < 64 → s.chip.entryJob e = 0 → s.chip.mirErr i e = 4) ∧
    (e.length ≠ 0 → fget e.v0 ⟨18, 16⟩ ≤ 32767 → i < 64 → s.chip.entryJob e ≠ 0 → s.chip.deviceCovered e.slot e.base e.length = false →
      s.chip.mirErr i e = 5)) ∧
  (∀ (s : State) (i : Fin 64) (ok : Bool), s.chip.live = true → tabGet s.chip.mirrors i.val = none → Becomes (.mirrorCopyComplete i ok) s s.chip) ∧
  (∀ (s : State) (i : Fin 64) (e : MirrorEntry) (step : Nat), s.chip.live = true → tabGet s.chip.mirrors i.val = some e → fget e.v0 ⟨35, 1⟩ = 0 →
    e.copying = some step →
    Yields (.mirrorCopyComplete i true) s (fun c => ∃ e', tabGet c.mirrors i.val = some e' ∧ e'.live = some e.other ∧ e'.mirrored = some step ∧
      e'.failed = e.failed ∧ c = { s.chip with mirrors := c.mirrors, out := c.out })) ∧
  (∀ (s : State) (i : Fin 64) (e : MirrorEntry), s.chip.live = true → tabGet s.chip.mirrors i.val = some e →
    (if fget e.v0 ⟨35, 1⟩ = 0 then e.copying.isSome = true else e.stamps.isEmpty = false) →
    let e' : MirrorEntry := { e with failed := true, copying := none, stamps := [], v0 := fput e.v0 ⟨34, 1⟩ 0 }
    Becomes (.mirrorCopyComplete i false) s { s.chip with mirrors := tabPut s.chip.mirrors i.val e' }) ∧
  (∀ (s : State) (i : Fin 64) (e : MirrorEntry) (p : Nat × Nat) (l : List (Nat × Nat)), s.chip.live = true → tabGet s.chip.mirrors i.val = some e →
    fget e.v0 ⟨35, 1⟩ ≠ 0 → e.stamps = p :: l →
    Becomes (.mirrorCopyComplete i true) s { s.chip with mirrors := tabPut s.chip.mirrors i.val { e with stamps := l, mirrored := some p.2 } })

/-- A step whose descriptor stands is refused with RESULT 2 when its epoch is below the record's, answers RESULT 1 or 3 when it is done with the same or another CRC, and RESULT 5 with BAD_DESCRIPTOR when an epoch above the record's is no BEGIN's. BEGIN of a new epoch opens the job's record with that step done alone and holds the job's commands. PULL, PULL_SEALED and LOAD_CHECKPOINT to a destination that may be written set BUSY and run, from LOCAL_SRC where its digest is DIGEST; to another they end in PROT. ENABLE puts the job's windows, receive queues and mirror entries in use again. END closes the epoch and frees the job's commands. Memory is not touched. -/
def Obligations.RecoveryStepsRunInOrder : Prop :=
  (∀ (s : State) (i : Instr) (op : Nat) (r : RcvRecord),
    (i, op) ∈ [(Instr.recoveryBegin, 1), (Instr.pull, 2), (Instr.pullSealed, 3), (Instr.loadCheckpoint, 4), (Instr.recoveryEnable, 5), (Instr.recoveryEnd, 6)] →
    s.chip.RcvReady op → s.chip.failed = false → s.chip.rcvRecord s.chip.rcvDesc.job = some r →
    let d := s.chip.rcvDesc
    let only := fun (c : Chip) => c = { s.chip with regs := c.regs, out := c.out }
    (d.epoch < r.epoch → Yields i s (fun c => c.RcvShows 2 0 d.step ∧ only c)) ∧
    (r.epoch < d.epoch → op ≠ 1 → Yields i s (fun c => c.RcvShows 5 0x14 d.step ∧ only c)) ∧
    (d.epoch = r.epoch → tabGet r.done d.step = some d.crc → Yields i s (fun c => c.RcvShows 1 0 d.step ∧ only c)) ∧
    (∀ x, d.epoch = r.epoch → tabGet r.done d.step = some x → x ≠ d.crc → Yields i s (fun c => c.RcvShows 3 0 d.step ∧ only c)) ∧
    (d.epoch = r.epoch → tabGet r.done d.step = none → r.closed = true → Yields i s (fun c => c.RcvShows 2 0 d.step ∧ only c))) ∧
  (∀ s : State, s.chip.RcvReady 1 → s.chip.failed = false → s.chip.rcvDesc.job ≠ 0 →
    (match s.chip.rcvRecord s.chip.rcvDesc.job with
     | some r => r.epoch < s.chip.rcvDesc.epoch
     | none => s.chip.rcvRecords.length < 64) →
    let d := s.chip.rcvDesc
    Yields .recoveryBegin s (fun c => c.RcvShows 0 0 d.step ∧ c.rcvRecord d.job = some ⟨d.job, d.epoch, false, [(d.step, d.crc)]⟩ ∧
      c.jobHeld d.job = true ∧ c.log.next = s.chip.log.next + 1 ∧
      c = { s.chip with regs := c.regs, out := c.out, log := c.log, freeCtr := c.freeCtr, rcvRecords := c.rcvRecords })) ∧
  (∀ (s : State) (i : Instr) (op : Nat) (r : RcvRecord), (i, op) ∈ [(Instr.pull, 2), (Instr.pullSealed, 3), (Instr.loadCheckpoint, 4)] →
    s.chip.RcvReady op → s.chip.rcvRecord s.chip.rcvDesc.job = some r → r.epoch = s.chip.rcvDesc.epoch → r.closed = false →
    tabGet r.done s.chip.rcvDesc.step = none → s.chip.rcvDesc.localSrc ≠ s.chip.rcvDesc.dst →
    let d := s.chip.rcvDesc
    let slot := s.chip.jobSlot d.job
    (s.chip.rcvDest d = true → (op = 4 → s.chip.permitted slot d.localSrc d.length false = true) →
      (d.localSrc ≠ 0 → s.chip.poisoned slot d.localSrc d.length = false) →
      Yields i s (fun c => c.rcvRunning = some { d with fromLocal := op == 2 && s.chip.localHolds d } ∧
        c.flag R.RCV_STAT F.RCV_STAT.BUSY = true ∧ c.log.next = s.chip.log.next + 1 ∧
        c = { s.chip with regs := c.regs, log := c.log, freeCtr := c.freeCtr, rcvRunning := c.rcvRunning })) ∧
    (s.chip.rcvDest d = false → Yields i s (fun c => c.RcvShows 5 0x10 d.step ∧
      c = { s.chip with regs := c.regs, out := c.out, log := c.log, freeCtr := c.freeCtr }))) ∧
  (∀ (s : State) (r : RcvRecord) (n : Nat) (j : FabJob), s.chip.RcvReady 5 → s.chip.rcvRecord s.chip.rcvDesc.job = some r →
    r.epoch = s.chip.rcvDesc.epoch → r.closed = false → tabGet r.done s.chip.rcvDesc.step = none →
    s.chip.jobAt s.chip.rcvDesc.job = some (n, j) →
    let d := s.chip.rcvDesc
    Yields .recoveryEnable s (fun c => c.RcvShows 0 0 d.step ∧
      (∀ k w, tabGet s.chip.windows k = some w → tabGet c.windows k = some
        (if k ∈ j.windows ∧ fget w.v1 tabJob = d.job then { w with v1 := fput w.v1 ⟨20, 1⟩ 1 } else w)) ∧
      (∀ k q, tabGet s.chip.rxqs k = some q → tabGet c.rxqs k = some
        (if k ∈ j.queues ∧ fget q.v1 tabJob = d.job then { q with v1 := fput q.v1 ⟨0, 1⟩ 1 } else q)) ∧
      (∀ k e, tabGet s.chip.mirrors k = some e → tabGet c.mirrors k = some
        (if k ∈ j.entries ∧ s.chip.entryJob e = d.job then { e with v0 := fput e.v0 ⟨34, 1⟩ 1 } else e)) ∧
      c.rcvRecord d.job = some { r with done := tabPut r.done d.step d.crc } ∧
      c = { s.chip with regs := c.regs, out := c.out, log := c.log, freeCtr := c.freeCtr, rcvRecords := c.rcvRecords, windows := c.windows,
                        rxqs := c.rxqs, mirrors := c.mirrors })) ∧
  (∀ (s : State) (r : RcvRecord), s.chip.RcvReady 6 → s.chip.rcvRecord s.chip.rcvDesc.job = some r →
    r.epoch = s.chip.rcvDesc.epoch → r.closed = false → tabGet r.done s.chip.rcvDesc.step = none →
    let d := s.chip.rcvDesc
    Yields .recoveryEnd s (fun c => c.RcvShows 0 0 d.step ∧ c.rcvRecord d.job = some { r with done := tabPut r.done d.step d.crc, closed := true } ∧
      c.jobHeld d.job = false ∧
      c = { s.chip with regs := c.regs, out := c.out, log := c.log, freeCtr := c.freeCtr, rcvRecords := c.rcvRecords }))

/-- With no step running nothing changes. A PULL's data from the buddy, of the step wanted or of any, is written to DST, LIVE_STEP shows its step, and the step is done with RESULT 0; of another step, or where the buddy cannot be reached, it ends in NO_LIVE_COPY with memory as it was. A fill from LOCAL_SRC copies its bytes to DST. LOAD_CHECKPOINT's fill does so and ends done where its digest is DIGEST and in INTEGRITY where it is not. PULL_SEALED ends done. In each case BUSY is 0 and no step runs. RCV_CMD's abort ends the running step with RESULT 6, writing nothing. -/
def Obligations.RecoveryStepsComplete : Prop :=
  (∀ (s : State) (o : RcvOutcome), s.chip.live = true → s.chip.rcvRunning = none → Becomes (.recoveryStepComplete o) s s.chip) ∧
  (∀ (s : State) (d : RcvDesc) (step : W32) (data : List (Nat × List Byte)), s.chip.live = true → s.chip.rcvRunning = some d → d.op = 2 → d.step < 256 →
    d.fromLocal = false → (d.jobStep = anyStep ∨ d.jobStep = step.toNat) →
    Yields (.recoveryStepComplete (.buddy step data)) s (fun c => c.RcvShows 0 0 d.step ∧ c.flag R.RCV_STAT F.RCV_STAT.BUSY = false ∧
      c.fld R.RCV_STAT F.RCV_STAT.LIVE_STEP = step.toNat ∧ c.rcvRunning = none ∧ c.mem = (s.chip.fillBuddy d data).mem ∧
      c.host = (s.chip.fillBuddy d data).host ∧ (∀ r, s.chip.rcvRecord d.job = some r → r.epoch = d.epoch →
        c.rcvRecord d.job = some { r with done := tabPut r.done d.step d.crc }))) ∧
  (∀ (s : State) (d : RcvDesc) (step : W32) (data : List (Nat × List Byte)), s.chip.live = true → s.chip.rcvRunning = some d → d.op = 2 → d.step < 256 →
    d.fromLocal = false → d.jobStep ≠ anyStep → d.jobStep ≠ step.toNat →
    Yields (.recoveryStepComplete (.buddy step data)) s (fun c => c.RcvShows 5 0x32 d.step ∧ c.flag R.RCV_STAT F.RCV_STAT.BUSY = false ∧
      c = { s.chip with regs := c.regs, out := c.out, rcvRunning := none })) ∧
  (∀ (s : State) (d : RcvDesc), s.chip.live = true → s.chip.rcvRunning = some d → d.op ≠ 4 → d.step < 256 → d.fromLocal = false →
    Yields (.recoveryStepComplete .unreachable) s (fun c => c.RcvShows 5 0x32 d.step ∧ c.flag R.RCV_STAT F.RCV_STAT.BUSY = false ∧
      c = { s.chip with regs := c.regs, out := c.out, rcvRunning := none })) ∧
  (∀ (s : State) (d : RcvDesc), s.chip.live = true → s.chip.rcvRunning = some d → (d.op = 2 ∧ d.fromLocal = true) ∨ d.op = 4 → d.step < 256 →
    let bs := s.chip.treadN (s.chip.jobSlot d.job) d.localSrc d.length
    Yields (.recoveryStepComplete .filled) s (fun c =>
      (if d.op = 2 ∨ sha256 bs = d.digest then c.RcvShows 0 0 d.step else c.RcvShows 5 0x20 d.step) ∧
      c.flag R.RCV_STAT F.RCV_STAT.BUSY = false ∧ c.rcvRunning = none ∧
      c.mem = (s.chip.twrite (s.chip.jobSlot d.job) d.dst bs).mem ∧ c.host = (s.chip.twrite (s.chip.jobSlot d.job) d.dst bs).host)) ∧
  (∀ (s : State) (d : RcvDesc) (ps : List (Nat × W32 × List Byte)), s.chip.live = true → s.chip.rcvRunning = some d → d.op = 3 → d.step < 256 →
    Yields (.recoveryStepComplete (.stamped ps)) s (fun c => c.RcvShows 0 0 d.step ∧ c.flag R.RCV_STAT F.RCV_STAT.BUSY = false ∧ c.rcvRunning = none ∧
      ((∀ p ∈ ps, d.length ≤ p.1 ∨ (d.jobStep ≠ anyStep ∧ d.jobStep < p.2.1.toNat)) → c.mem = s.chip.mem ∧ c.pages = s.chip.pages))) ∧
  (∀ (s : State) (r : Requester) (d : RcvDesc), s.chip.live = true → s.chip.reaches r = true → mayReachBar0 r = true → s.chip.early r = false →
    s.chip.rcvRunning = some d → d.step < 256 →
    Yields (.recoveryAbort r) s (fun c => c.RcvShows 6 0 d.step ∧ c.flag R.RCV_STAT F.RCV_STAT.BUSY = false ∧
      c = { s.chip with regs := c.regs, reqs := c.reqs, out := c.out, rcvRunning := none })) ∧
  (∀ (s : State) (r : Requester), s.chip.live = true → s.chip.reaches r = true → s.chip.rcvRunning = none → s.chip.early r = false →
    Becomes (.recoveryAbort r) s (s.chip.supersede r))

/-- On a sheet with nothing under way, a legal FX.VADD, VSUB, VMUL, VMIN, VMAX, VCMPLT, VCMPEQ, VCMUL, VCMULC or VSCALE puts in each lane of vd the operation of that lane of vs1 and vs2 in the lane type of FMT_D with that lane's rounding, and ORs the lanes' flags into FX_FLAGS; FX.VAND, VOR, VXOR, VSHL (by the low 5 bits) and VSHRA do so on bits, raising nothing; FX.VFMA takes vd as the addend, FX.VSEL selects by v0, and FX.VCMAG, VCVT and VFN have one source. The program counter moves past the instruction; no other register of the sheet, no felt, no other sheet and nothing else of the part changes but counters. -/
def Obligations.LaneOperationsOnRegisters : Prop :=
  (∀ (op : SheetAt → FxOps → Instr) (g : LaneTy → LaneRnd → W32 → W32 → W32 × Nat),
    (op, g) ∈ [(Instr.fxVadd, laneAdd false), (Instr.fxVsub, laneAdd true), (Instr.fxVmul, laneMul),
      (Instr.fxVmin, fun ty _ a b => (laneMinMax false ty a b, 0)), (Instr.fxVmax, fun ty _ a b => (laneMinMax true ty a b, 0)),
      (Instr.fxVcmplt, fun ty _ a b => (laneCmp false ty a b, 0)), (Instr.fxVcmpeq, fun ty _ a b => (laneCmp true ty a b, 0)),
      (Instr.fxVcmul, fun _ r a b => laneCmul false r a b), (Instr.fxVcmulc, fun _ r a b => laneCmul true r a b), (Instr.fxVscale, laneScale)] →
    ∀ (s : State) (q : SheetAt) (o : FxOps) (t : Task) (m : Command) (ty : LaneTy), s.chip.AtRest q t m → s.chip.fxLegal q t m (op q o) →
      laneTy (s.chip.sheet q).csrs.fmtD = some ty →
      let sh := s.chip.sheet q
      let rs := (sh.v o.src1.val).zipIdx.map (fun p => g ty (s.chip.laneRndAt q t m (op q o) o p.2) p.1 (nth (sh.v o.src2.val) p.2 0))
      Computes (op q o) s q ((sh.past.setV o.dst.val (rs.map (·.1))).raise (rs.foldl (fun f r => f ||| r.2) 0))) ∧
  (∀ (op : SheetAt → FxOps → Instr) (g : W32 → W32 → W32),
    (op, g) ∈ [(Instr.fxVand, fun (a b : W32) => a &&& b), (Instr.fxVor, fun (a b : W32) => a ||| b), (Instr.fxVxor, fun (a b : W32) => a ^^^ b),
      (Instr.fxVshl, fun (a b : W32) => a <<< (b.toNat % 32)), (Instr.fxVshra, fun (a b : W32) => a.sshiftRight (b.toNat % 32))] →
    ∀ (s : State) (q : SheetAt) (o : FxOps) (t : Task) (m : Command), s.chip.AtRest q t m → s.chip.fxLegal q t m (op q o) →
      let sh := s.chip.sheet q
      Computes (op q o) s q ((sh.past.setV o.dst.val ((sh.v o.src1.val).zipIdx.map (fun p => g p.1 (nth (sh.v o.src2.val) p.2 0)))).raise 0)) ∧
  (∀ (s : State) (q : SheetAt) (o : FxOps) (t : Task) (m : Command) (ty : LaneTy), s.chip.AtRest q t m → s.chip.fxLegal q t m (.fxVfma q o) →
    laneTy (s.chip.sheet q).csrs.fmtD = some ty →
    let sh := s.chip.sheet q
    let rs := (sh.v o.src1.val).zipIdx.map (fun p =>
      laneFma ty (s.chip.laneRndAt q t m (.fxVfma q o) o p.2) p.1 (nth (sh.v o.src2.val) p.2 0) (nth (sh.v o.dst.val) p.2 0))
    Computes (.fxVfma q o) s q ((sh.past.setV o.dst.val (rs.map (·.1))).raise (rs.foldl (fun f r => f ||| r.2) 0))) ∧
  (∀ (s : State) (q : SheetAt) (o : FxOps) (t : Task) (m : Command), s.chip.AtRest q t m → s.chip.fxLegal q t m (.fxVsel q o) →
    let sh := s.chip.sheet q
    Computes (.fxVsel q o) s q ((sh.past.setV o.dst.val ((sh.v o.src1.val).zipIdx.map (fun p =>
      if nth (sh.v 0) p.2 0 = 0 then nth (sh.v o.src2.val) p.2 0 else p.1))).raise 0)) ∧
  (∀ (s : State) (q : SheetAt) (o : FxOps) (t : Task) (m : Command), s.chip.AtRest q t m → s.chip.fxLegal q t m (.fxVcmag q o) →
    let sh := s.chip.sheet q
    let rs := (sh.v o.src1.val).zipIdx.map (fun p => laneCmag (s.chip.laneRndAt q t m (.fxVcmag q o) o p.2) p.1)
    Computes (.fxVcmag q o) s q ((sh.past.setV o.dst.val (rs.map (·.1))).raise (rs.foldl (fun f r => f ||| r.2) 0))) ∧
  (∀ (s : State) (q : SheetAt) (o : FxOps) (t : Task) (m : Command), s.chip.AtRest q t m → s.chip.fxLegal q t m (.fxVcvt q o) →
    let sh := s.chip.sheet q
    let rs := (sh.v o.src1.val).zipIdx.map (fun p => laneCvt (sh.csrs.fmtD == 0x0E) (s.chip.laneRndAt q t m (.fxVcvt q o) o p.2) p.1)
    Computes (.fxVcvt q o) s q ((sh.past.setV o.dst.val (rs.map (·.1))).raise (rs.foldl (fun f r => f ||| r.2) 0))) ∧
  (∀ (s : State) (q : SheetAt) (o : FxOps) (t : Task) (m : Command), s.chip.AtRest q t m → s.chip.fxLegal q t m (.fxVfn q o) →
    let sh := s.chip.sheet q
    let rs := (sh.v o.src1.val).map (laneFn (s.chip.fxCtxAt q t m).aic o.src2.val o.s)
    Computes (.fxVfn q o) s q ((sh.past.setV o.dst.val (rs.map (·.1))).raise (rs.foldl (fun f r => f ||| r.2) 0)))

/-- On a sheet with nothing under way, legal instructions act so: FX.VRSUM and VRMAX put the reduction in lane 0 and 0 in the others; FX.VPERM permutes vs1 by vs2; FX.VMVXS moves lane 0 to a scalar register, of which x0 discards it; FX.VLD loads a line, counting a corrected word in SHEET_CNT; FX.VLD2 loads an even pair; FX.VLDX loads 64 elements of FMT_A as lanes of FMT_D with their scales; FX.VGATH loads the words at rs1 plus each lane; FX.TAPLD loads 16 taps; FX.CBXUPK unpacks 200 bytes. Each moves the program counter past itself and changes no felt, no other register and no other sheet. -/
def Obligations.ReductionsAndMovesOfVectors : Prop :=
  (∀ (s : State) (q : SheetAt) (o : FxOps) (t : Task) (m : Command) (ty : LaneTy), s.chip.AtRest q t m → s.chip.fxLegal q t m (.fxVrsum q o) →
    laneTy (s.chip.sheet q).csrs.fmtD = some ty →
    let sh := s.chip.sheet q
    let r := lanesSum ty (s.chip.laneRndAt q t m (.fxVrsum q o) o 0) (sh.v o.src1.val)
    Computes (.fxVrsum q o) s q ((sh.past.setV o.dst.val (r.1 :: List.replicate 63 0)).raise r.2)) ∧
  (∀ (s : State) (q : SheetAt) (o : FxOps) (t : Task) (m : Command) (ty : LaneTy), s.chip.AtRest q t m → s.chip.fxLegal q t m (.fxVrmax q o) →
    laneTy (s.chip.sheet q).csrs.fmtD = some ty →
    let sh := s.chip.sheet q
    Computes (.fxVrmax q o) s q (sh.past.setV o.dst.val (lanesMax ty (sh.v o.src1.val) :: List.replicate 63 0))) ∧
  (∀ (s : State) (q : SheetAt) (o : FxOps) (t : Task) (m : Command), s.chip.AtRest q t m → s.chip.fxLegal q t m (.fxVperm q o) →
    let sh := s.chip.sheet q
    Computes (.fxVperm q o) s q (sh.past.setV o.dst.val (lanesPerm (sh.v o.src1.val) (sh.v o.src2.val)))) ∧
  (∀ (s : State) (q : SheetAt) (o : FxOps) (t : Task) (m : Command), s.chip.AtRest q t m → s.chip.fxLegal q t m (.fxVmvxs q o) →
    let sh := s.chip.sheet q
    Computes (.fxVmvxs q o) s q (if o.dst.val = 0 then sh.past else { sh.past with xregs := setNth sh.xregs o.dst.val (nth (sh.v o.src1.val) 0 0) })) ∧
  (∀ (s : State) (q : SheetAt) (o : FxOps) (t : Task) (m : Command), s.chip.AtRest q t m → s.chip.fxLegal q t m (.fxVld q o .clean) →
    let sh := s.chip.sheet q
    Computes (.fxVld q o .clean) s q (sh.past.setV o.dst.val (sh.line (sh.x o.src1.val).toNat))) ∧
  (∀ (s : State) (q : SheetAt) (o : FxOps) (t : Task) (m : Command) (a : Nat), s.chip.AtRest q t m → s.chip.fxLegal q t m (.fxVld q o (.corrected a)) →
    (s.chip.sheetK (keyPrimary (sheetKey q))).feltCeWindow < 64 → s.chip.fld (sheetCntK (sheetKey q)) F.SHEET_CNT.FELT_CE < fmax F.SHEET_CNT.FELT_CE →
    Yields (.fxVld q o (.corrected a)) s (fun c =>
      (c.sheet q).vregs = setNth (s.chip.sheet q).vregs o.dst.val ((s.chip.sheet q).line ((s.chip.sheet q).x o.src1.val).toNat) ∧
      c.fld (sheetCntK (sheetKey q)) F.SHEET_CNT.FELT_CE = s.chip.fld (sheetCntK (sheetKey q)) F.SHEET_CNT.FELT_CE + 1 ∧
      (c.sheet q).felt = (s.chip.sheet q).felt)) ∧
  (∀ (s : State) (q : SheetAt) (o : FxOps) (t : Task) (m : Command), s.chip.AtRest q t m → s.chip.fxLegal q t m (.fxVld2 q o) →
    let sh := s.chip.sheet q
    Computes (.fxVld2 q o) s q ((sh.past.setV o.dst.val (sh.line (sh.x o.src1.val).toNat)).setV (o.dst.val + 1) (sh.line (sh.x o.src2.val).toNat))) ∧
  (∀ (s : State) (q : SheetAt) (o : FxOps) (t : Task) (m : Command) (ty : LaneTy), s.chip.AtRest q t m → s.chip.fxLegal q t m (.fxVldx q o) →
    laneTy (s.chip.sheet q).csrs.fmtD = some ty →
    let sh := s.chip.sheet q
    let a := sh.csrs.fmtA
    let rs := (List.range 64).map (fun l => elemToLane ty (s.chip.laneRndAt q t m (.fxVldx q o) o l) a
      (rdElem sh.rd (sh.x o.src1.val).toNat (fmtBits a) l) (sh.rd ((sh.x o.src2.val).toNat + l / 32)).toNat)
    Computes (.fxVldx q o) s q ((sh.past.setV o.dst.val (rs.map (·.1))).raise (rs.foldl (fun f r => f ||| r.2) 0))) ∧
  (∀ (s : State) (q : SheetAt) (o : FxOps) (t : Task) (m : Command), s.chip.AtRest q t m → s.chip.fxLegal q t m (.fxVgath q o) →
    let sh := s.chip.sheet q
    let as := (sh.v o.src2.val).map (fun w => sh.x o.src1.val + w)
    as.all (fun a => feltOk a.toNat 4) = true →
    Computes (.fxVgath q o) s q (sh.past.setV o.dst.val (as.map (fun a => BitVec.ofNat 32 (rdNat sh.rd a.toNat 4))))) ∧
  (∀ (s : State) (q : SheetAt) (o : FxOps) (t : Task) (m : Command), s.chip.AtRest q t m → s.chip.fxLegal q t m (.fxTapld q o) →
    let sh := s.chip.sheet q
    let h := (List.range 16).map (fun k => BitVec.ofNat 32 (rdNat sh.rd ((sh.x o.src1.val).toNat + 4 * k) 4))
    Computes (.fxTapld q o) s q { sh.past with taps := setNth sh.taps (o.dst.val / 8) h }) ∧
  (∀ (s : State) (q : SheetAt) (o : FxOps) (t : Task) (m : Command), s.chip.AtRest q t m → s.chip.fxLegal q t m (.fxCbxupk q o) →
    let sh := s.chip.sheet q
    let r := cbxUnpack (s.chip.laneRndAt q t m (.fxCbxupk q o) o) sh.rd (sh.x o.src1.val).toNat (sh.x o.src2.val).toNat
    Computes (.fxCbxupk q o) s q ((sh.past.setV o.dst.val r.1).raise r.2))

/-- On a sheet with nothing under way, a legal FX.VST writes the 64 words of vs2 to the felt line at rs1 and marks it ready; FX.VSTX writes them as elements of FMT_D, in MX formats with a scale byte for each 32 at rs2; FX.VSCAT writes each lane's word in lane order; FX.CBXPK writes 200 packed bytes; FX.TAPMV filters, moves its window and its pointer; FX.DEMAP writes 64 times Qm LLRs at its pointer, which moves. A felt form performs its operation on the lines at rs1 and rs2. Each moves the program counter past itself and changes no other sheet. -/
def Obligations.StoresToFeltAndFeltForms : Prop :=
  (∀ (s : State) (q : SheetAt) (o : FxOps) (t : Task) (m : Command), s.chip.AtRest q t m → s.chip.fxLegal q t m (.fxVst q o) →
    let sh := s.chip.sheet q
    Computes (.fxVst q o) s q (sh.past.result (sh.x o.src1.val).toNat (lineBytes (sh.v o.src2.val)))) ∧
  (∀ (s : State) (q : SheetAt) (o : FxOps) (t : Task) (m : Command) (ty : LaneTy), s.chip.AtRest q t m → s.chip.fxLegal q t m (.fxVstx q o) →
    laneTy (s.chip.sheet q).csrs.fmtA = some ty → fmtMx (s.chip.sheet q).csrs.fmtD = false →
    let sh := s.chip.sheet q
    let d := sh.csrs.fmtD
    let rs := (sh.v o.dst.val).zipIdx.map (fun p => laneToElem ty (s.chip.laneRndAt q t m (.fxVstx q o) o p.2) d p.1)
    Computes (.fxVstx q o) s q ((sh.past.result (sh.x o.src1.val).toNat (packElems (fmtBits d) (rs.map (·.1)))).raise (rs.foldl (fun f r => f ||| r.2) 0))) ∧
  (∀ (s : State) (q : SheetAt) (o : FxOps) (t : Task) (m : Command) (ty : LaneTy), s.chip.AtRest q t m → s.chip.fxLegal q t m (.fxVstx q o) →
    laneTy (s.chip.sheet q).csrs.fmtA = some ty → fmtMx (s.chip.sheet q).csrs.fmtD = true →
    let sh := s.chip.sheet q
    let d := sh.csrs.fmtD
    let blk := fun (b : Nat) => mxBlock d (fun i => (s.chip.laneRndAt q t m (.fxVstx q o) o (32 * b + i)).i) ((((sh.v o.dst.val).drop (32 * b)).take 32).map (laneValue ty))
    Computes (.fxVstx q o) s q
      (((sh.past.result (sh.x o.src1.val).toNat (packElems (fmtBits d) ((blk 0).2.1 ++ (blk 1).2.1))).result (sh.x o.src2.val).toNat
        [BitVec.ofNat 8 (blk 0).1, BitVec.ofNat 8 (blk 1).1]).raise ((blk 0).2.2 ||| (blk 1).2.2))) ∧
  (∀ (s : State) (q : SheetAt) (o : FxOps) (t : Task) (m : Command), s.chip.AtRest q t m → s.chip.fxLegal q t m (.fxVscat q o) →
    let sh := s.chip.sheet q
    let as := (sh.v o.src2.val).map (fun w => sh.x o.src1.val + w)
    as.all (fun a => feltOk a.toNat 4) = true →
    Computes (.fxVscat q o) s q ((as.zip (sh.v o.dst.val)).foldl (fun sh p => sh.result p.1.toNat (bytesLE 4 p.2.toNat)) sh.past)) ∧
  (∀ (s : State) (q : SheetAt) (o : FxOps) (t : Task) (m : Command), s.chip.AtRest q t m → s.chip.fxLegal q t m (.fxCbxpk q o) →
    let sh := s.chip.sheet q
    let r := cbxPackLanes o.s (s.chip.laneRndAt q t m (.fxCbxpk q o) o) (sh.v o.dst.val) (sh.x o.src2.val).toNat
    Computes (.fxCbxpk q o) s q ((sh.past.result (sh.x o.src1.val).toNat r.1).raise r.2)) ∧
  (∀ (s : State) (q : SheetAt) (o : FxOps) (t : Task) (m : Command), s.chip.AtRest q t m → s.chip.fxLegal q t m (.fxTapmv q o) →
    let sh := s.chip.sheet q
    let tc := tapCfg sh.csrs.tapcfg
    let a := tapMove tc
    let w := sh.v o.src1.val ++ sh.v o.src2.val
    let rs := (List.range 64).map (fun l => tapLane tc (s.chip.laneRndAt q t m (.fxTapmv q o) o l) (nth sh.taps tc.bank []) w l)
    let fill := (List.range a).map (fun k => BitVec.ofNat 32 (rdNat sh.rd (sh.csrs.tapptr.toNat + 4 * k) 4))
    let moved := { sh.past with csrs := { sh.csrs with tapptr := (sh.csrs.tapptr + BitVec.ofNat 32 (4 * a)) &&& 0x7FFFC#32 } }
    Computes (.fxTapmv q o) s q ((((moved.setV o.src1.val ((w.drop a ++ fill).take 64)).setV o.src2.val ((w.drop a ++ fill).drop 64)).setV o.dst.val
      (rs.map (·.1))).raise (rs.foldl (fun f r => f ||| r.2) 0))) ∧
  (∀ (s : State) (q : SheetAt) (o : FxOps) (t : Task) (m : Command), s.chip.AtRest q t m → s.chip.fxLegal q t m (.fxDemap q o) →
    let sh := s.chip.sheet q
    let n := demapQm sh.csrs
    let rs := (sh.v o.src1.val).zipIdx.flatMap (fun p =>
      demapLane (bitsOf sh.csrs.dmcfg.toNat 31 28) n p.2 (s.chip.laneRndAt q t m (.fxDemap q o) o p.2).i p.1 (nth (sh.v o.src2.val) p.2 0))
    let moved := { sh.past with csrs := { sh.csrs with
      dmcfg := (sh.csrs.dmcfg &&& 0xF0000000#32) ||| BitVec.ofNat 32 ((demapPtr sh.csrs + 64 * n) % 2 ^ 19) } }
    Computes (.fxDemap q o) s q ((moved.result (demapPtr sh.csrs) (rs.map (fun r => BitVec.ofNat 8 r.1))).raise (rs.foldl (fun f r => f ||| r.2) 0))) ∧
  (∀ (f : Fin 32) (g : LaneTy → LaneRnd → W32 → W32 → W32 × Nat),
    (f, g) ∈ [((0x00 : Fin 32), laneAdd false), (0x01, laneAdd true), (0x02, laneMul),
      (0x04, fun ty _ a b => (laneMinMax false ty a b, 0)), (0x05, fun ty _ a b => (laneMinMax true ty a b, 0)),
      (0x06, fun ty _ a b => (laneCmp false ty a b, 0)), (0x07, fun ty _ a b => (laneCmp true ty a b, 0)),
      (0x13, fun _ r a b => laneCmul false r a b), (0x14, fun _ r a b => laneCmul true r a b), (0x16, laneScale)] →
    ∀ (s : State) (q : SheetAt) (o : FxOps) (t : Task) (m : Command) (ty : LaneTy), s.chip.AtRest q t m → s.chip.fxLegal q t m (.feltForm q f o) →
      laneTy (s.chip.sheet q).csrs.fmtD = some ty →
      let sh := s.chip.sheet q
      let rs := (sh.line (sh.x o.src1.val).toNat).zipIdx.map (fun p =>
        g ty (s.chip.laneRndAt q t m (.feltForm q f o) o p.2) p.1 (nth (sh.line (sh.x o.src2.val).toNat) p.2 0))
      Computes (.feltForm q f o) s q ((sh.past.setV o.dst.val (rs.map (·.1))).raise (rs.foldl (fun f r => f ||| r.2) 0))) ∧
  (∀ (f : Fin 32) (g : W32 → W32 → W32),
    (f, g) ∈ [((0x09 : Fin 32), fun (a b : W32) => a &&& b), (0x0A, fun (a b : W32) => a ||| b), (0x0B, fun (a b : W32) => a ^^^ b),
      (0x0C, fun (a b : W32) => a <<< (b.toNat % 32)), (0x0D, fun (a b : W32) => a.sshiftRight (b.toNat % 32))] →
    ∀ (s : State) (q : SheetAt) (o : FxOps) (t : Task) (m : Command), s.chip.AtRest q t m → s.chip.fxLegal q t m (.feltForm q f o) →
      let sh := s.chip.sheet q
      Computes (.feltForm q f o) s q ((sh.past.setV o.dst.val ((sh.line (sh.x o.src1.val).toNat).zipIdx.map (fun p =>
        g p.1 (nth (sh.line (sh.x o.src2.val).toNat) p.2 0)))).raise 0)) ∧
  (∀ (s : State) (q : SheetAt) (o : FxOps) (t : Task) (m : Command) (ty : LaneTy) (f : Fin 32), s.chip.AtRest q t m → s.chip.fxLegal q t m (.feltForm q f o) →
    laneTy (s.chip.sheet q).csrs.fmtD = some ty →
    let sh := s.chip.sheet q
    let a := sh.line (sh.x o.src1.val).toNat
    let b := sh.line (sh.x o.src2.val).toNat
    let r := s.chip.laneRndAt q t m (.feltForm q f o) o
    let put := fun (rs : List (W32 × Nat)) => (sh.past.setV o.dst.val (rs.map (·.1))).raise (rs.foldl (fun f r => f ||| r.2) 0)
    (f = 0x03 → Computes (.feltForm q f o) s q (put (a.zipIdx.map (fun p => laneFma ty (r p.2) p.1 (nth b p.2 0) (nth (sh.v o.dst.val) p.2 0))))) ∧
    (f = 0x08 → Computes (.feltForm q f o) s q (put (a.zipIdx.map (fun p => (if nth (sh.v 0) p.2 0 = 0 then nth b p.2 0 else p.1, 0))))) ∧
    (f = 0x0E → Computes (.feltForm q f o) s q (put (a.zipIdx.map (fun p => laneCvt (sh.csrs.fmtD == 0x0E) (r p.2) p.1)))) ∧
    (f = 0x0F → Computes (.feltForm q f o) s q ((sh.past.setV o.dst.val ((lanesSum ty (r 0) a).1 :: List.replicate 63 0)).raise (lanesSum ty (r 0) a).2)) ∧
    (f = 0x10 → Computes (.feltForm q f o) s q (sh.past.setV o.dst.val (lanesMax ty a :: List.replicate 63 0))) ∧
    (f = 0x15 → Computes (.feltForm q f o) s q (put (a.zipIdx.map (fun p => laneCmag (r p.2) p.1)))))

/-- On a sheet with nothing under way, a legal FX.MMA in packed or sheet mode leaves in its bank the products summed over its groups, in the type of its formats, raises their flags and keeps the bank busy; a cured residue mismatch counts in RES_RETRY as well, and a second one takes the sheet out of service. In joined mode it is issued and waits for its quire. FX.ACCRD writes the bank to felt in FMT_D, its lines not ready until they drain; FX.ACCLD loads 256 values, FX.ACCZ zeroes them keeping the type, FX.ACCMV moves four rows to vd. MATRIX_DRAIN_COMPLETE makes the bank, or the lines that drain, ready. JOINED_STEP_FIRE, once all 64 sheets have issued one agreeing instruction and the step's tiles are ready, gives every sheet its share. -/
def Obligations.MatrixInstructionsOnBanks : Prop :=
  (∀ (s : State) (q : SheetAt) (o : FxOps) (t : Task) (m : Command) (kind : AccKind), s.chip.AtRest q t m → s.chip.fxLegal q t m (.fxMma q o 0) →
    let sh := s.chip.sheet q
    let op := mmaOpOf sh.csrs o
    op.mode ≠ 2 → mmaKind op.fmtA op.fmtB = some kind → mmaBankOk op kind (sh.bank (dstBank o)) = true →
    let r := mmaLocal op kind sh.rd (sh.x o.src1.val).toNat (sh.x o.src2.val).toNat sh.csrs.strideA sh.csrs.strideB sh.csrs.meta_ (sh.bank (dstBank o)).vals
    Computes (.fxMma q o 0) s q (({ sh.past with banks := setNth sh.banks (dstBank o) ⟨kind, r.1⟩, bankBusy := [dstBank o] } : Sheet).raise r.2)) ∧
  (∀ (s : State) (q : SheetAt) (o : FxOps) (t : Task) (m : Command) (kind : AccKind), s.chip.AtRest q t m → s.chip.fxLegal q t m (.fxMma q o 1) →
    let sh := s.chip.sheet q
    let op := mmaOpOf sh.csrs o
    op.mode ≠ 2 → mmaKind op.fmtA op.fmtB = some kind → mmaBankOk op kind (sh.bank (dstBank o)) = true →
    s.chip.fld (sheetCntK (sheetKey q)) F.SHEET_CNT.RES_RETRY < fmax F.SHEET_CNT.RES_RETRY →
    let r := mmaLocal op kind sh.rd (sh.x o.src1.val).toNat (sh.x o.src2.val).toNat sh.csrs.strideA sh.csrs.strideB sh.csrs.meta_ (sh.bank (dstBank o)).vals
    Yields (.fxMma q o 1) s (fun c =>
      c.sheet q = ({ sh.past with banks := setNth sh.banks (dstBank o) ⟨kind, r.1⟩, bankBusy := [dstBank o] } : Sheet).raise r.2 ∧
      c.fld (sheetCntK (sheetKey q)) F.SHEET_CNT.RES_RETRY = s.chip.fld (sheetCntK (sheetKey q)) F.SHEET_CNT.RES_RETRY + 1)) ∧
  (∀ (s : State) (q : SheetAt) (o : FxOps) (t : Task) (m : Command), s.chip.AtRest q t m → s.chip.fxLegal q t m (.fxMma q o 2) →
    (s.chip.sheetK (keyPrimary (sheetKey q))).errorUptime = none →
    Yields (.fxMma q o 2) s (fun c => (c.sheetK (keyPrimary (sheetKey q))).role = .scrubbing ∧
      c.fld (sheetErr (sheetKey q)) F.SHEET_ERR.LAST_CAUSE = 2 ∧ (c.sheet q).task = none)) ∧
  (∀ (s : State) (q : SheetAt) (o : FxOps) (t : Task) (m : Command) (kind : AccKind), s.chip.AtRest q t m → s.chip.fxLegal q t m (.fxMma q o 0) →
    let sh := s.chip.sheet q
    let op := mmaOpOf sh.csrs o
    op.mode = 2 → mmaKind op.fmtA op.fmtB = some kind → mmaBankOk op kind (sh.bank (dstBank o)) = true →
    Computes (.fxMma q o 0) s q { sh.past with
      joined := some ⟨dstBank o, op.clr, op.sp, o.s, sh.x o.src1.val, sh.x o.src2.val, sh.csrs⟩, bankBusy := [dstBank o] }) ∧
  (∀ (s : State) (q : SheetAt) (o : FxOps) (t : Task) (m : Command), s.chip.AtRest q t m → s.chip.fxLegal q t m (.fxAccrd q o) →
    let sh := s.chip.sheet q
    let d := sh.csrs.fmtD
    let bank := sh.bank (dstBank o)
    accRdOk bank.kind d = true →
    let rs := bank.vals.zipIdx.map (fun p =>
      let r := sh.csrs.rnd (s.chip.fxCtxAt q t m).seed o (sh.csrs.ridx + BitVec.ofNat 64 (p.2 / 16 * sh.csrs.rld.toNat + p.2 % 16))
      accOut d r.i r.q bank.kind p.1)
    let bs := packElems (fmtBits d) (rs.map (·.1))
    let ls := linesOf (sh.x o.src1.val).toNat bs.length
    Computes (.fxAccrd q o) s q
      (({ (sh.past.wr (sh.x o.src1.val).toNat bs).clrReady ls with draining := ls } : Sheet).raise (rs.foldl (fun (f : Nat) r => f ||| r.2) 0))) ∧
  (∀ (s : State) (q : SheetAt) (o : FxOps) (t : Task) (m : Command) (kind : AccKind), s.chip.AtRest q t m → s.chip.fxLegal q t m (.fxAccld q o) →
    accLdKind (s.chip.sheet q).csrs.fmtD = some kind →
    let sh := s.chip.sheet q
    let vs := (List.range 256).map (fun i => BitVec.ofNat 64 (rdElem sh.rd (sh.x o.src1.val).toNat (fmtBits sh.csrs.fmtD) i))
    Computes (.fxAccld q o) s q { sh.past with banks := setNth sh.banks (dstBank o) ⟨kind, vs⟩, bankBusy := [dstBank o] }) ∧
  (∀ (s : State) (q : SheetAt) (o : FxOps) (t : Task) (m : Command), s.chip.AtRest q t m → s.chip.fxLegal q t m (.fxAccz q o) →
    let sh := s.chip.sheet q
    Computes (.fxAccz q o) s q { sh.past with
      banks := setNth sh.banks (dstBank o) ⟨(sh.bank (dstBank o)).kind, List.replicate 256 0⟩, bankBusy := [dstBank o] }) ∧
  (∀ (s : State) (q : SheetAt) (o : FxOps) (t : Task) (m : Command), s.chip.AtRest q t m → s.chip.fxLegal q t m (.fxAccmv q o) →
    let sh := s.chip.sheet q
    let bank := sh.bank ((sh.x o.src1.val).toNat % 4)
    bank.kind ≠ .ci32 →
    Computes (.fxAccmv q o) s q
      (sh.past.setV o.dst.val (((bank.vals.drop (64 * ((sh.x o.src2.val).toNat % 4))).take 64).map (fun w => w.setWidth 32)))) ∧
  (∀ (s : State) (q : SheetAt) (b : Fin 4), s.chip.live = true → (s.chip.sheet q).stalled = [] → (s.chip.sheet q).window = [] → (s.chip.sheet q).joined = none →
    Becomes (.matrixDrainComplete q (.bank b)) s
      (s.chip.setSheet q { s.chip.sheet q with bankBusy := (s.chip.sheet q).bankBusy.filter (· != b.val) })) ∧
  (∀ (s : State) (q : SheetAt) (a n : Nat), s.chip.live = true → (s.chip.sheet q).stalled = [] → (s.chip.sheet q).window = [] →
    Yields (.matrixDrainComplete q (.lines a n)) s (fun c =>
      (∀ l, l ∈ (c.sheet q).draining ↔ l ∈ (s.chip.sheet q).draining ∧ ¬ (a ≤ l ∧ l < a + n)) ∧
      (∀ l, l ∈ (c.sheet q).notReady ↔ l ∈ (s.chip.sheet q).notReady ∧ ¬ (l ∈ (s.chip.sheet q).draining ∧ a ≤ l ∧ l < a + n)) ∧
      (c.sheet q).felt = (s.chip.sheet q).felt ∧ c = { s.chip with sheets := c.sheets })) ∧
  (∀ (s : State) (q : QuireAt) (w : Fin 3) (l : List (Nat × Sheet × JoinedIssue)) (x : Nat × Sheet × JoinedIssue) (t : Task), s.chip.live = true → w.val ≠ 2 →
    s.chip.joinedGroup (quireIx q.ream q.quire) = some l → l.head? = some x → x.2.1.task = some t → l.all (fun y => y.2.2.agrees x.2.2) = true →
    (s.chip.quire (quireIx q.ream q.quire)).joined = none → joinedReady (l.map (fun y => (y.2.1, y.2.2))) 0 = true →
    (1 < x.2.2.op.steps → Yields (.joinedStepFire q w) s (fun c =>
      (∀ (n : Nat) (y : Nat × Sheet × JoinedIssue), l[n]? = some y → c.sheetK y.1 = joinedShare l 0 n y) ∧
      (c.quire (quireIx q.ream q.quire)).joined = some ⟨t.cmd, t.index / 64, 1⟩ ∧
      c = { s.chip with sheets := c.sheets, quires := c.quires, regs := c.regs, out := c.out })) ∧
    (x.2.2.op.steps ≤ 1 → l.all (fun y => y.2.1.stalled.isEmpty && y.2.1.window.isEmpty) = true →
      Yields (.joinedStepFire q w) s (fun c =>
        (∀ (n : Nat) (y : Nat × Sheet × JoinedIssue), l[n]? = some y → c.sheetK y.1 = { joinedShare l 0 n y with joined := none }) ∧
        (c.quire (quireIx q.ream q.quire)).joined = none ∧
        c = { s.chip with sheets := c.sheets, quires := c.quires, regs := c.regs, out := c.out })))

/-- On a sheet with nothing under way, legal instructions act so: FX.FENCE, FX.WAITRDY and, with earlier commits drained, FX.TFENCE only move on; FX.MKRDY and FX.CLRRDY mark their lines; FX.WAITEV begins its wait and WAITEV_COMPLETE puts 0 in rd once the event has occurred; FX.RTWAIT puts 0 for an instant due now, 1 for one behind, and else waits, which RTWAIT_COMPLETE ends with 0 at its instant; FX.RAND puts the generator's words in the lanes; FX.CNTRD reads half of a counter; FX.STREC, FX.STRED and FX.STMSG add a commit record; FX.COMMIT waits in the window; a CSR write that is legal puts the CSR. No other sheet changes. -/
def Obligations.SynchronisingInstructionsOfASheet : Prop :=
  (∀ (s : State) (q : SheetAt) (o : FxOps) (t : Task) (m : Command), s.chip.AtRest q t m → s.chip.fxLegal q t m (.fxFence q o) →
    Computes (.fxFence q o) s q (s.chip.sheet q).past) ∧
  (∀ (s : State) (q : SheetAt) (o : FxOps) (t : Task) (m : Command), s.chip.AtRest q t m → s.chip.fxLegal q t m (.fxTfence q o) →
    (s.chip.undrained t.ctx = false → Computes (.fxTfence q o) s q (s.chip.sheet q).past) ∧
    (s.chip.undrained t.ctx = true → Computes (.fxTfence q o) s q { (s.chip.sheet q).past with window := [s.chip.fxEntryAt q (.fxTfence q o)] })) ∧
  (∀ (s : State) (q : SheetAt) (o : FxOps) (t : Task) (m : Command), s.chip.AtRest q t m → s.chip.fxLegal q t m (.fxWaitrdy q o) →
    Computes (.fxWaitrdy q o) s q (s.chip.sheet q).past) ∧
  (∀ (s : State) (q : SheetAt) (o : FxOps) (t : Task) (m : Command), s.chip.AtRest q t m → s.chip.fxLegal q t m (.fxMkrdy q o) →
    Computes (.fxMkrdy q o) s q (s.chip.sheet q).past) ∧
  (∀ (s : State) (q : SheetAt) (o : FxOps) (t : Task) (m : Command), s.chip.AtRest q t m → s.chip.fxLegal q t m (.fxClrrdy q o) →
    let sh := s.chip.sheet q
    Computes (.fxClrrdy q o) s q { sh.past with notReady := linesOf (sh.x o.src1.val).toNat (sh.x o.src2.val).toNat }) ∧
  (∀ (s : State) (q : SheetAt) (o : FxOps) (t : Task) (m : Command), s.chip.AtRest q t m → s.chip.fxLegal q t m (.fxWaitev q o) →
    let sh := s.chip.sheet q
    let a := (sh.x o.src1.val).toNat
    Computes (.fxWaitev q o) s q { sh.past with wait := some (
      if bitsOf a 31 28 = 0 then .message o.dst.val (bitsOf a 11 0)
      else if bitsOf a 31 28 = 1 then .inputWord o.dst.val (bitsOf a 26 24) (bitsOf a 19 0)
      else .token o.dst.val (sh.x (o.src1.val + 1))) }) ∧
  (∀ (s : State) (q : SheetAt) (t : Task) (w : WaitFor) (rd : Nat), s.chip.live = true → (s.chip.sheet q).task = some t → (s.chip.sheet q).wait = some w →
    (s.chip.sheet q).waitReg = some rd → s.chip.waitMet t w = true → (s.chip.sheet q).stalled = [] → (s.chip.sheet q).window = [] →
    Becomes (.waitevComplete q) s (s.chip.setSheet q ({ s.chip.sheet q with wait := none }.setX rd 0))) ∧
  (∀ (s : State) (q : SheetAt) (o : FxOps) (t : Task) (m : Command), s.chip.AtRest q t m → s.chip.fxLegal q t m (.fxRtwait q o) → s.chip.rtValid = true →
    let sh := s.chip.sheet q
    let frame := bitsOf (sh.x o.src1.val).toNat 30 21
    let tick := bitsOf (sh.x o.src1.val).toNat 20 0
    (∀ v, rtJudge s.chip.tick frame tick = some v → Computes (.fxRtwait q o) s q (sh.past.setX o.dst.val (BitVec.ofNat 32 v))) ∧
    (rtJudge s.chip.tick frame tick = none →
      Computes (.fxRtwait q o) s q { sh.past with wait := some (.radio o.dst.val frame tick (some (rtNext s.chip.tick frame tick))) })) ∧
  (∀ (s : State) (q : SheetAt) (rd frame tick : Nat) (d : Int), s.chip.live = true → (s.chip.sheet q).wait = some (.radio rd frame tick (some d)) →
    s.chip.rtValid = true → (s.chip.sheet q).stalled = [] → (s.chip.sheet q).window = [] →
    (d ≤ s.chip.tick → Becomes (.rtwaitComplete q) s (s.chip.setSheet q ({ s.chip.sheet q with wait := none }.setX rd 0))) ∧
    (s.chip.tick < d → Becomes (.rtwaitComplete q) s s.chip)) ∧
  (∀ (s : State) (q : SheetAt) (o : FxOps) (t : Task) (m : Command), s.chip.AtRest q t m → s.chip.fxLegal q t m (.fxRand q o) →
    let sh := s.chip.sheet q
    Computes (.fxRand q o) s q (sh.past.setV o.dst.val ((List.range 64).map (fun l =>
      let x := philox m.desc.seed (drawCounter sh.csrs.rstream (sh.csrs.ridx + BitVec.ofNat 64 l) o.src2.val sh.csrs.rstep.toNat)
      if o.src1.val = 0 then x.x0 else if o.src1.val = 1 then x.x1 else if o.src1.val = 2 then x.x2 else x.x3)))) ∧
  (∀ (s : State) (q : SheetAt) (o : FxOps) (t : Task) (m : Command), s.chip.AtRest q t m → s.chip.fxLegal q t m (.fxCntrd q o) →
    let sh := s.chip.sheet q
    let v := s.chip.fld (cntCount (.sheet q) o.src1.val) F.SC_COUNT.VALUE
    (o.src2.val = 0 → Computes (.fxCntrd q o) s q ({ sh.past with cntLatch := some (BitVec.ofNat 32 (v / 2 ^ 32)) }.setX o.dst.val (BitVec.ofNat 32 v))) ∧
    (o.src2.val = 1 → Computes (.fxCntrd q o) s q (sh.past.setX o.dst.val (sh.cntLatch.getD 0)))) ∧
  (∀ (s : State) (q : SheetAt) (o : FxOps) (t : Task) (m : Command), s.chip.AtRest q t m → s.chip.fxLegal q t m (.fxStrec q o) →
    (s.chip.sheet q).records.length < 64 →
    let sh := s.chip.sheet q
    let a := (sh.x o.src1.val).toNat
    Computes (.fxStrec q o) s q { sh.past with records := sh.records ++ [⟨.store, o.dst.val / 4, stagerBase sh.csrs + 16 * bitsOf a 9 0, 16 * bitsOf a 26 16,
      (sh.x o.src2.val).toNat, 0, 0, false, (0, 0, 0), [], []⟩] }) ∧
  (∀ (s : State) (q : SheetAt) (o : FxOps) (t : Task) (m : Command), s.chip.AtRest q t m → s.chip.fxLegal q t m (.fxStred q o) →
    (s.chip.sheet q).records.length < 64 →
    let sh := s.chip.sheet q
    let a := (sh.x o.src1.val).toNat
    let b := (sh.x o.src2.val).toNat
    Computes (.fxStred q o) s q { sh.past with records := sh.records ++ [⟨.reduction, o.dst.val / 4, stagerBase sh.csrs + 16 * bitsOf a 9 0, 16 * bitsOf a 26 16,
      16 * bitsOf b 19 0, bitsOf b 31 20, sh.csrs.mode o.rm.val, o.s, (sh.csrs.rstream, sh.csrs.ridx, sh.csrs.rstep.toNat), [], []⟩] }) ∧
  (∀ (s : State) (q : SheetAt) (o : FxOps) (t : Task) (m : Command), s.chip.AtRest q t m → s.chip.fxLegal q t m (.fxStmsg q o) →
    (s.chip.sheet q).records.length < 64 →
    let sh := s.chip.sheet q
    let ws := feltWords sh (sh.x o.src1.val).toNat 16
    let op := wordAt ws 0 % 256
    msgIllegal ws (sh.x o.src2.val) = false → msgOut (s.chip.fxCtxAt q t m) ws = false → op ≠ 1 → op ≠ 3 →
    Computes (.fxStmsg q o) s q { sh.past with records := sh.records ++ [⟨.message, 0, stagerBase sh.csrs + 16 * bitsOf (sh.x o.src2.val).toNat 9 0, 0, 0, 0, 0, false, (0, 0, 0), ws, []⟩] }) ∧
  (∀ (s : State) (q : SheetAt) (o : FxOps) (t : Task) (m : Command), s.chip.AtRest q t m → s.chip.fxLegal q t m (.fxCommit q o) →
    Computes (.fxCommit q o) s q { (s.chip.sheet q).past with window := [s.chip.fxEntryAt q (.fxCommit q o)] }) ∧
  (∀ (s : State) (q : SheetAt) (a : BitVec 12) (v : W32) (t : Task) (m : Command) (k : Csrs), s.chip.AtRest q t m →
    (s.chip.sheet q).csrs.write a.toNat v = some k → Computes (.csrWrite q a v) s q { (s.chip.sheet q).past with csrs := k })

/-- On a sheet with nothing under way, an FX.DMA or FX.PREF that raises no trap makes one request with the sheet's next tag, its KIND and the sheet's incarnation, or, for a deferred KIND, joins the task's deferred requests. COPY_IN, GATHER_IN and PREF_POOL read the parts of a request that may all be read, POOL_IN the context's pool; the request is then served and no byte of memory, of felt or of a pool changes. DMA_FILL_COMPLETE of a served request's line writes the data it brings to that line and makes it ready, ending the request with its last line; one of an older incarnation is dropped and counted in STALE_DROP; one for a tag that no request has changes nothing. -/
def Obligations.TransfersOfASheet : Prop :=
  (∀ (s : State) (q : SheetAt) (o : FxOps) (t : Task) (m : Command) (i : Instr) (pref : Bool) (out : Sheet),
    i = (if pref then .fxPref q o else .fxDma q o) → s.chip.AtRest q t m → s.chip.fxLegal q t m i →
    s.chip.dmaIssue (keyQuire (sheetKey q)) pref (s.chip.fxCtxAt q t m) { (s.chip.sheet q).past with window := [s.chip.fxEntryAt q i] } (s.chip.fxEntryAt q i) = .ok out →
    let kind := ((s.chip.sheet q).rd ((s.chip.sheet q).x o.src1.val).toNat).toNat
    (kind < 0x50 → Yields i s (fun c => ∃ d : DmaReq, c.sheet q = { out with window := [] } ∧ out.dma = [d] ∧ d.tag = (s.chip.sheet q).nextTag ∧ d.kind = kind ∧
      d.inc = (s.chip.sheet q).incarnation ∧ d.pref = pref ∧ d.served = false ∧ d.issue = s.chip.nextIssue ∧ out.nextTag = (s.chip.sheet q).nextTag + 1 ∧
      out.felt = (s.chip.sheet q).felt ∧ c.nextIssue = s.chip.nextIssue + 1 ∧
      c = { s.chip with sheets := c.sheets, regs := c.regs, out := c.out, nextIssue := c.nextIssue })) ∧
    (0x50 ≤ kind → Yields i s (fun c => ∃ d : Deferred, c.sheet q = { (s.chip.sheet q).past with deferred := (s.chip.sheet q).deferred ++ [d] } ∧
      d.kind = kind ∧ d.task = t.index ∧ c = { s.chip with sheets := c.sheets, regs := c.regs, out := c.out }))) ∧
  (∀ (s : State) (q : SheetAt) (tag : Nat) (t : Task) (d : DmaReq) (i : Instr),
    (i, d.kind) ∈ [(Instr.copyIn q tag, 0x00), (Instr.gatherIn q tag, 0x01), (Instr.prefPool q tag, 0x03)] →
    s.chip.live = true → (s.chip.sheet q).task = some t → (s.chip.sheet q).request tag = some d → d.served = false →
    (∀ p ∈ d.parts, p.1 + p.2.2 ≤ (s.chip.cmdRange t.cmd (body d.words 0 4 / 2 ^ 24)).2 ∧
      s.chip.readEnd t.slot ((s.chip.cmdRange t.cmd (body d.words 0 4 / 2 ^ 24)).1 + p.1) p.2.2 = .ok) →
    Yields i s (fun c => ∃ d' : DmaReq, (c.sheet q).request tag = some d' ∧ d'.served = true ∧ d'.lines = d.lines ∧
      d'.pieces = d.parts.flatMap (fun p => piecesAt p.2.1 (s.chip.treadN t.slot ((s.chip.cmdRange t.cmd (body d.words 0 4 / 2 ^ 24)).1 + p.1) p.2.2)) ∧
      (c.sheet q).felt = (s.chip.sheet q).felt ∧ c = { s.chip with sheets := c.sheets, pages := c.pages })) ∧
  (∀ (s : State) (q : SheetAt) (tag : Nat) (t : Task) (d : DmaReq), s.chip.live = true → (s.chip.sheet q).task = some t →
    (s.chip.sheet q).request tag = some d → d.kind = 0x02 → d.served = false → (s.chip.sheet q).dma = [d] →
    (s.chip.quire (keyQuire (sheetKey q))).poison = [] →
    let brought := piecesAt (body d.words 4 4) (memRead (s.chip.quire (keyQuire (sheetKey q))).pool (poolKey t.ctx (body d.words 0 4)) (body d.words 8 4))
    Yields (.poolIn q tag) s (fun c => (c.sheet q).dma = [{ d with served := true, pieces := brought }] ∧
      (c.sheet q).felt = (s.chip.sheet q).felt ∧ c = { s.chip with sheets := c.sheets })) ∧
  (∀ (s : State) (q : SheetAt) (tag line : Nat) (d : DmaReq), s.chip.live = true → (s.chip.sheet q).request tag = some d → d.served = true →
    line ∈ d.lines → d.kind ≠ 0x03 → d.kind < 0x40 → d.block = none → (s.chip.sheet q).stalled = [] → (s.chip.sheet q).window = [] →
    Yields (.dmaFillComplete q tag line (s.chip.sheet q).incarnation) s (fun c =>
      line ∉ (c.sheet q).notReady ∧ (∀ l, l ≠ line → (l ∈ (c.sheet q).notReady ↔ l ∈ (s.chip.sheet q).notReady)) ∧
      (c.sheet q).felt = ((d.pieces.filter (fun p => p.1 / 256 == line)).foldl (fun (sh : Sheet) p => sh.wr p.1 p.2) (s.chip.sheet q)).felt ∧
      ((∀ l ∈ d.lines, l = line) → (c.sheet q).request tag = none) ∧
      ((∃ l ∈ d.lines, l ≠ line) → (c.sheet q).request tag = some { d with lines := d.lines.filter (· != line), pieces := d.pieces.filter (fun p => p.1 / 256 != line) }) ∧
      c = { s.chip with sheets := c.sheets })) ∧
  (∀ (s : State) (q : SheetAt) (tag line inc : Nat), s.chip.live = true → inc ≠ (s.chip.sheet q).incarnation →
    (s.chip.sheet q).stalled = [] → (s.chip.sheet q).window = [] →
    Becomes (.dmaFillComplete q tag line inc) s (s.chip.bump (sheetCnt (sheetKey q)) F.SHEET_CNT.STALE_DROP 1)) ∧
  (∀ (s : State) (q : SheetAt) (tag line : Nat), s.chip.live = true → (s.chip.sheet q).request tag = none →
    (s.chip.sheet q).stalled = [] → (s.chip.sheet q).window = [] →
    Becomes (.dmaFillComplete q tag line (s.chip.sheet q).incarnation) s s.chip)

/-- COMMIT_BEGIN, with FX.COMMIT alone in the window, the sheet quiet and its slot free, puts the task's records with their stager bytes and its deferred requests in a commit slot, adds its index to the command's committed tasks and its flags to the command; a task committed before only counts as a duplicate. COMMIT_DRAIN_COMPLETE writes a store record's bytes at its output and frees the slot. SPLIT_REDUCTION_COMBINE, with every task committed and drained, uses up the partials; a destination that may not be combined ends the command. KILL_REQUEST drops a task of class 1 to 3 without a trace and counts a rerun; SHEET_RELEASE_COMPLETE frees the sheet, which takes its next task. A commit counts no rerun of a command that is not joined; a joined one whose group stands aside for class 0 work there (R106) may count its reruns. -/
def Obligations.CommitsDrainAndKillsRelease : Prop :=
  (∀ (s : State) (q : SheetAt) (t : Task) (m : Command) (e : FxEntry) (o : FxOps), s.chip.live = true → (s.chip.sheet q).task = some t →
    (s.chip.sheet q).window = [e] → e.op = .fxCommit q o → s.chip.command t.cmd = some m → (s.chip.sheet q).quiet = true →
    (s.chip.sheet q).commitSlot = false → m.committed.contains t.index = false →
    Yields (.commitBegin q) s (fun c =>
      (∃ n, (m.desc.mode ≠ 2 → n = m.reruns) ∧ c.command t.cmd = some { m with
        committed := m.committed ++ [t.index]
        flags := m.flags ||| (s.chip.sheet q).csrs.flags.toNat % 32
        deferred := mergeDeferred m.deferred t.index (s.chip.sheet q).deferred
        reruns := n }) ∧
      (c.quire (keyQuire (sheetKey q))).slots = (s.chip.quire (keyQuire (sheetKey q))).slots ++
        [⟨t, sheetKey q, (s.chip.sheet q).records.map (fun r => r.filled (s.chip.sheet q)), (s.chip.sheet q).csrs.flags.toNat % 32, (s.chip.sheet q).deferred⟩] ∧
      (c.sheet q).commitSlot = true ∧ (c.sheet q).felt = (s.chip.sheet q).felt ∧ c.mem = s.chip.mem ∧ c.host = s.chip.host)) ∧
  (∀ (s : State) (q : SheetAt) (t : Task) (m : Command) (e : FxEntry) (o : FxOps), s.chip.live = true → (s.chip.sheet q).task = some t →
    (s.chip.sheet q).window = [e] → e.op = .fxCommit q o → s.chip.command t.cmd = some m → (s.chip.sheet q).quiet = true →
    (s.chip.sheet q).commitSlot = false → m.committed.contains t.index = true →
    Yields (.commitBegin q) s (fun c => (∃ n, (m.desc.mode ≠ 2 → n = m.reruns) ∧ c.command t.cmd = some { m with reruns := n }) ∧
      (c.quire (keyQuire (sheetKey q))).dupCommits = (s.chip.quire (keyQuire (sheetKey q))).dupCommits + 1 ∧
      (c.quire (keyQuire (sheetKey q))).slots = (s.chip.quire (keyQuire (sheetKey q))).slots)) ∧
  (∀ (s : State) (q : SheetAt) (x : CommitSlot) (r : CommitRec) (m : Command), s.chip.live = true →
    (s.chip.quire (keyQuire (sheetKey q))).slots.find? (fun y => y.sheet == sheetKey q) = some x → s.chip.command x.task.cmd = some m →
    x.records = [r] → r.kind = .store → s.chip.keysWhere (fun t => t.ctx == x.task.ctx) = [] →
    Yields (.commitDrainComplete q) s (fun c =>
      c.mem = (s.chip.twrite x.task.slot ((m.tensorRange (8 + r.outSlot)).1 + r.dest) r.data).mem ∧
      c.host = (s.chip.twrite x.task.slot ((m.tensorRange (8 + r.outSlot)).1 + r.dest) r.data).host ∧
      c.command x.task.cmd = some { m with drained := m.drained + 1 } ∧ (c.sheet q).commitSlot = false ∧
      (c.quire (keyQuire (sheetKey q))).slots = (s.chip.quire (keyQuire (sheetKey q))).slots.filter (fun z => z.sheet != sheetKey q))) ∧
  (∀ (s : State) (uid : Nat) (m : Command), s.chip.live = true → s.chip.command uid = some m → m.partials ≠ [] → m.ending = none →
    m.committed.length = m.desc.tasks → m.drained = m.desc.tasks →
    let fmtOf := fun (i : Nat) => ((m.tensors[8 + i]?).map (fun x => x.format)).getD 0
    let bad := (destinations m.partials).any (fun d =>
      destBad m.desc.rslots (fmtOf d.1) d.1 d.2 (m.partials.filter (fun p => p.outSlot == d.1 && p.dest == d.2)) m.partials fmtOf)
    Yields (.splitReductionCombine uid) s (fun c => ∃ m', c.command uid = some m' ∧ m'.partials = [] ∧
      m'.nonrepro = (m.nonrepro || m.desc.flags.testBit 1) ∧ m'.ending = (if bad then some ⟨0x13, 3, 0⟩ else none))) ∧
  (∀ (s : State) (q : SheetAt) (t : Task) (m : Command), s.chip.live = true → (s.chip.sheet q).task = some t → t.cls ≠ 0 →
    s.chip.command t.cmd = some m → m.desc.mode ≠ 2 →
    Yields (.killRequest q) s (fun c => c.sheet q = { (s.chip.sheet q).discard with killing := true } ∧
      c.command t.cmd = some { m with reruns := m.reruns + 1 } ∧ c.mem = s.chip.mem ∧ c.host = s.chip.host)) ∧
  (∀ (s : State) (q : SheetAt) (t : Task), s.chip.live = true → (s.chip.sheet q).task = some t → t.cls = 0 → Becomes (.killRequest q) s s.chip) ∧
  (∀ (s : State) (q : SheetAt), s.chip.live = true → (s.chip.sheet q).killing = true → (s.chip.sheet q).acquired = none →
    Yields (.sheetReleaseComplete q) s (fun c => (c.sheet q).felt = (s.chip.sheet q).felt ∧ c.mem = s.chip.mem ∧
      (s.chip.nextRadio (keyQuire (sheetKey q) / 8) = none ∨
        (s.chip.joinedOn (keyQuire (sheetKey q)) = [] ∧ ∀ t ∈ s.chip.radioAt (keyQuire (sheetKey q) / 8), t.cls = 0) → (c.sheet q).killing = false))) ∧
  (∀ (s : State) (q : SheetAt), s.chip.live = true → (s.chip.sheet q).killing = false → Becomes (.sheetReleaseComplete q) s s.chip)

/-- A domain whose conditions have held for 16 intervals becomes good: from FREERUN the unit acquires A when A is good, otherwise B; in ACQUIRING on B, A restarts it on A; from PPS or HOLDOVER it locks to A when good, otherwise B, hitlessly. A lost domain moves ACQUIRING on it to the other good one or FREERUN, and its LOCKED state to the other good one, or to PPS where PPS_IN is the phase source and present, or to HOLDOVER. 64 s within 100 ns lock; WTR with REVERT returns to A; PPS_IN missing for 3 s ends PPS; the limit that applies ends HOLDOVER in FREERUN. RT_VALID is 1 in LOCKED_A, LOCKED_B, PPS and HOLDOVER alone. A step whose time has not come changes nothing. -/
def Obligations.TimingStatesMoveAsTabled : Prop :=
  (∀ (s : State) (d : Fin 2), s.chip.live = true → s.chip.flag (R.PTP_DOM_CFG d.val) F.PTP_DOM_CFG.ENABLE = true → s.chip.domGood d.val = false →
    16 ≤ (s.chip.domain d.val).goodRun →
    s.chip.fld (R.PTP_DOM_STAT d.val) F.PTP_DOM_STAT.GM_CLASS ≤ s.chip.fld (R.PTP_DOM_CFG d.val) F.PTP_DOM_CFG.CLASS_MAX →
    let best := if d.val = 0 ∨ s.chip.domGood 0 = true then 0 else 1
    Yields (.domainGood d) s (fun c => c.domGood d.val = true ∧ c.mem = s.chip.mem ∧ c.host = s.chip.host ∧ c.time.uptime = s.chip.time.uptime ∧
      (s.chip.tmState = 0 → c.tmState = 1 ∧ c.rtValid = false ∧ c.time.acquiring = best ∧ c.time.lockSince = s.chip.time.uptime ∧
        c.fld (R.PTP_DOM_STAT best) F.PTP_DOM_STAT.PHASE_OFFSET = 0 ∧
        c.time.chip = ((s.chip.time.chip : Int) + (s.chip.domain best).offset * 65536).toNat) ∧
      (s.chip.tmState = 1 → d.val = 0 → s.chip.time.acquiring = 1 → c.tmState = 1 ∧ c.time.acquiring = 0 ∧ c.time.lockSince = s.chip.time.uptime) ∧
      (s.chip.tmState = 4 ∨ s.chip.tmState = 5 → c.tmState = (if best = 0 then 2 else 3) ∧ c.rtValid = true ∧ c.time.chip = s.chip.time.chip ∧
        c.time.holdover = none) ∧
      (s.chip.tmState = 2 ∨ s.chip.tmState = 3 → c.tmState = s.chip.tmState ∧ c.time.chip = s.chip.time.chip))) ∧
  (∀ (s : State) (d : Fin 2) (why : DomainLoss), s.chip.live = true → why ≠ .clockClass ∨
      s.chip.fld (R.PTP_DOM_CFG d.val) F.PTP_DOM_CFG.CLASS_MAX < s.chip.fld (R.PTP_DOM_STAT d.val) F.PTP_DOM_STAT.GM_CLASS →
    let other := 1 - d.val
    Yields (.domainLost d why) s (fun c => c.domGood d.val = false ∧ c.time.uptime = s.chip.time.uptime ∧
      c.tmState = (
        if s.chip.tmState = 1 ∧ s.chip.time.acquiring = d.val then (if s.chip.domGood other = true then 1 else 0)
        else if s.chip.tmState = 2 + d.val then
          if s.chip.domGood other = true then 2 + other
          else if s.chip.flag R.PPS_CFG F.PPS_CFG.PHASE_SRC = true ∧ s.chip.time.ppsPresent = true then 4 else 5
        else s.chip.tmState) ∧
      (s.chip.tmState = 2 + d.val → c.time.chip = s.chip.time.chip ∧ c.rtValid = true) ∧
      (s.chip.tmState = 1 → s.chip.time.acquiring = d.val → s.chip.domGood other = true → c.time.acquiring = other ∧ c.time.lockSince = s.chip.time.uptime))) ∧
  (∀ (s : State) (d : Fin 2), s.chip.live = true →
    s.chip.fld (R.PTP_DOM_STAT d.val) F.PTP_DOM_STAT.GM_CLASS ≤ s.chip.fld (R.PTP_DOM_CFG d.val) F.PTP_DOM_CFG.CLASS_MAX →
    Becomes (.domainLost d .clockClass) s s.chip) ∧
  (∀ s : State, s.chip.live = true → s.chip.tmState = 1 → s.chip.domGood s.chip.time.acquiring = true →
    (s.chip.domain s.chip.time.acquiring).offset.natAbs ≤ 100 →
    s.chip.time.lockSince + 64 * nsPerSec ≤ s.chip.time.uptime →
    Yields .acquireLock s (fun c => c.tmState = (if s.chip.time.acquiring = 0 then 2 else 3) ∧ c.rtValid = true ∧ c.time.chip = s.chip.time.chip ∧
      c.mem = s.chip.mem ∧ c.host = s.chip.host)) ∧
  (∀ s : State, s.chip.live = true → s.chip.time.uptime < s.chip.time.lockSince + 64 * nsPerSec → Becomes .acquireLock s s.chip) ∧
  (∀ s : State, s.chip.live = true → s.chip.tmState = 3 → s.chip.domGood 0 = true → s.chip.flag (R.PTP_DOM_CFG 0) F.PTP_DOM_CFG.REVERT = true →
    (s.chip.domain 0).goodSince + s.chip.fld (R.PTP_DOM_CFG 0) F.PTP_DOM_CFG.WTR * nsPerSec ≤ s.chip.time.uptime →
    Yields .wtrExpiry s (fun c => c.tmState = 2 ∧ c.rtValid = true ∧ c.time.chip = s.chip.time.chip ∧ c.mem = s.chip.mem ∧ c.host = s.chip.host)) ∧
  (∀ s : State, s.chip.live = true → s.chip.tmState ≠ 3 → Becomes .wtrExpiry s s.chip) ∧
  (∀ s : State, s.chip.live = true →
    Becomes .ppsInEdge s { s.chip.setReg R.PPS_IN_STAMP
        (BitVec.ofNat 64 (s.chip.time.chip / 65536 % nsPerSec * 2 ^ 32 + s.chip.time.chip / 65536 / nsPerSec % 2 ^ 32)) with
      time := { s.chip.time with ppsPresent := true, ppsLast := s.chip.time.uptime } }) ∧
  (∀ s : State, s.chip.live = true → s.chip.time.ppsLast + 3 * nsPerSec ≤ s.chip.time.uptime →
    Yields .ppsInMissing s (fun c => c.time.ppsPresent = false ∧ c.tmState = (if s.chip.tmState = 4 then 5 else s.chip.tmState) ∧
      (s.chip.tmState = 4 → c.time.holdover = some ⟨s.chip.time.uptime, s.chip.freqValid, none⟩) ∧ c.time.chip = s.chip.time.chip ∧
      c.mem = s.chip.mem ∧ c.host = s.chip.host)) ∧
  (∀ s : State, s.chip.live = true → s.chip.time.uptime < s.chip.time.ppsLast + 3 * nsPerSec → Becomes .ppsInMissing s s.chip) ∧
  (∀ (s : State) (h : Holdover), s.chip.live = true → s.chip.time.holdover = some h → s.chip.tmState = 5 →
    let free := s.chip.fld R.HOLD_CFG F.HOLD_CFG.LIMIT_FREE * nsPerSec
    let sync := s.chip.fld R.HOLD_CFG F.HOLD_CFG.LIMIT_SYNCE * nsPerSec
    let ends := if h.assisted then min (h.entered + sync) ((h.sourceLost.map (fun t => t + free)).getD (h.entered + sync)) else h.entered + free
    (ends ≤ s.chip.time.uptime → Yields .holdoverLimitExpiry s (fun c => c.tmState = 0 ∧ c.rtValid = false ∧ c.time.holdover = none ∧
      c.time.chip = s.chip.time.chip)) ∧
    (s.chip.time.uptime < ends → Becomes .holdoverLimitExpiry s s.chip)) ∧
  (∀ (s : State) (src : FreqSource) (v : Bool), s.chip.live = true →
    Yields (.frequencySourceChange src v) s (fun c =>
      c.time.synceValid = (if src = .syncE then v else s.chip.time.synceValid) ∧
      c.time.ref10mValid = (if src = .ref10M then v else s.chip.time.ref10mValid) ∧
      c.fld R.TM_STATE F.TM_STATE.FREQ_ACTIVE = (if c.freqValid = true then s.chip.fld R.FREQ_CFG F.FREQ_CFG.SOURCE else 0) ∧
      (∀ h, s.chip.time.holdover = some h → h.assisted = true → h.sourceLost = none → s.chip.freqValid = true → c.freqValid = false →
        c.time.holdover = some { h with sourceLost := some s.chip.time.uptime }) ∧
      c.tmState = s.chip.tmState ∧ c.time.chip = s.chip.time.chip ∧ c = { s.chip with regs := c.regs, time := c.time }))

/-- RT_OFFSET with a matching complement steps radio time when no cell is admitted and the value is in range, is logged, and rejudges the event table where radio time is valid; otherwise OFFSET_REFUSED is set and RT_OFFSET kept; without its complement it raises INTEGRITY. A slew within 1 ns and 20 ns a second, toward the servo's estimate, moves chip time by 1 ns and the slew. CT_SEC_READ returns the seconds and latches CT_NS, RT_NOW and the four views of the same instant for its requester. A Delay_Req of an enabled domain joins the PTP frames of its port. PPS_OUT pulses, at its width, where OUT_EN is set. Requesters without a path to BAR0 read nothing. -/
def Obligations.RadioTimeStepsSlewsAndIsRead : Prop :=
  (∀ (s : State) (r : Requester) (v : W32), s.chip.live = true → s.chip.reaches r = true → mayReachBar0 r = true → s.chip.early r = false →
    cellsAdmitted s.chip = false → (signed 32 v.toNat).natAbs ≤ 1258291200 →
    Yields (.rtOffsetWrite r v (~~~ v)) s (fun c => c.reg R.RT_OFFSET = v.setWidth 64 ∧ c.rtOffset = signed 32 v.toNat ∧
      c.tick = ticksAt s.chip.time.chip (signed 32 v.toNat) ∧ (s.chip.rtValid = false → c.events = s.chip.events) ∧
      c = { s.chip with regs := c.regs, reqs := c.reqs, log := c.log, freeCtr := c.freeCtr, events := c.events, damaged := c.damaged })) ∧
  (∀ (s : State) (r : Requester) (v : W32), s.chip.live = true → s.chip.reaches r = true → mayReachBar0 r = true → s.chip.early r = false →
    cellsAdmitted s.chip = true ∨ 1258291200 < (signed 32 v.toNat).natAbs →
    Yields (.rtOffsetWrite r v (~~~ v)) s (fun c => c.reg R.RT_OFFSET = s.chip.reg R.RT_OFFSET ∧ c.flag R.TM_STATE F.TM_STATE.OFFSET_REFUSED = true ∧
      c.events = s.chip.events ∧ c.log = s.chip.log)) ∧
  (∀ (s : State) (r : Requester) (v k : W32), s.chip.live = true → s.chip.reaches r = true → mayReachBar0 r = true → s.chip.early r = false →
    k ≠ ~~~ v → Yields (.rtOffsetWrite r v k) s (fun c => c.reg R.RT_OFFSET = s.chip.reg R.RT_OFFSET ∧ c.events = s.chip.events ∧
      tabGetD c.health.counts 9 0 = tabGetD s.chip.health.counts 9 0 + 1)) ∧
  (∀ (s : State) (corr : Int) (d : Nat), s.chip.live = true → s.chip.servoDomain = some d →
    let off := (s.chip.domain d).offset
    let used := if s.chip.time.chip / (65536 * nsPerSec) = s.chip.time.slewSecond then s.chip.time.slewUsed else 0
    (0 < off ∧ 0 ≤ corr ∨ off < 0 ∧ corr ≤ 0) → used + corr.natAbs ≤ 20 * 65536 →
    Yields (.chipTimeSlew corr) s (fun c => c.time.chip = ((s.chip.time.chip : Int) + 65536 + corr).toNat ∧ c.time.uptime = s.chip.time.uptime + 1 ∧
      c.time.slewUsed = used + corr.natAbs ∧ c.time.slewSecond = s.chip.time.chip / (65536 * nsPerSec) ∧ c.tmState = s.chip.tmState)) ∧
  (∀ (s : State) (corr : Int), s.chip.live = true → s.chip.servoDomain = none ∨ 20 * 65536 < corr.natAbs → Becomes (.chipTimeSlew corr) s s.chip) ∧
  (∀ (s : State) (r : Requester), s.chip.live = true → s.chip.reaches r = true → mayReachBar0 r = true →
    Yields (.ctSecRead r) s (fun c => c.out = .readData r (BitVec.ofNat 64 (s.chip.time.chip / 65536 / nsPerSec % 2 ^ 48)) :: s.chip.out ∧
      (c.getReq r).ctLatch = some
        [BitVec.ofNat 64 (s.chip.time.chip / 65536 % nsPerSec * 2 ^ 32 + s.chip.time.chip % 65536 * 2 ^ 16),
         BitVec.ofNat 64 (frameOf s.chip.tick * 2 ^ 32 + tickInFrame s.chip.tick),
         s.chip.rtViewWord 0, s.chip.rtViewWord 1, s.chip.rtViewWord 2, s.chip.rtViewWord 3] ∧
      c = { s.chip with regs := (s.chip.supersede r).regs, reqs := c.reqs, out := c.out })) ∧
  (∀ (s : State) (d : Fin 2), s.chip.live = true → s.chip.flag (R.PTP_DOM_CFG d.val) F.PTP_DOM_CFG.ENABLE = true →
    let p := s.chip.fld (R.PTP_DOM_CFG d.val) F.PTP_DOM_CFG.PORT
    let sub := s.chip.fld (R.PTP_DOM_CFG d.val) F.PTP_DOM_CFG.SUBPORT
    Yields (.delayReqSend d) s (fun c => tabGetD (c.eg p).ptp sub [] = tabGetD (s.chip.eg p).ptp sub [] ++ [⟨[], 64, none, some d.val⟩] ∧
      (∀ n, n ≠ p → c.eg n = s.chip.eg n) ∧ c = { s.chip with egress := c.egress })) ∧
  (∀ (s : State) (d : Fin 2), s.chip.live = true → s.chip.flag (R.PTP_DOM_CFG d.val) F.PTP_DOM_CFG.ENABLE = false → Becomes (.delayReqSend d) s s.chip) ∧
  (∀ s : State, s.chip.live = true → s.chip.flag R.PPS_CFG F.PPS_CFG.OUT_EN = true →
    Becomes .ppsOutPulse s { s.chip with out := .ppsPulse (s.chip.fld R.PPS_CFG F.PPS_CFG.WIDTH) :: s.chip.out }) ∧
  (∀ s : State, s.chip.live = true → s.chip.flag R.PPS_CFG F.PPS_CFG.OUT_EN = false → Becomes .ppsOutPulse s s.chip) ∧
  (∀ (s : State) (r : Requester), s.chip.live = true → s.chip.reaches r = true → mayReachBar0 r = false →
    Becomes (.ctSecRead r) s (s.chip.supersede r))

/-- EVT_CMD's write puts the staged words, with their complements, in an entry of the writer's range: ACTION 0 leaves it idle, another arms it, and while radio time is valid it is judged at once, due at its instant or, where that lies in the 512 frames behind, late and counted. A bad complement, range or action answers ERR 1, 2 or 3 and leaves the entry. Read-back copies an entry to staging; disarm makes it idle. The earliest due entry fires: one without a repeat left is fired and done; a GPIO action drives or toggles its pin. Past 32 in a fine tick it waits one tick and the slip is counted. Nothing fires while radio time is not valid, or with nothing due. -/
def Obligations.EventTableIsWrittenAndFires : Prop :=
  (∀ (s : State) (r : Requester) (i : Fin 4096), s.chip.live = true → s.chip.reaches r = true → mayReachBar0 r = true → s.chip.early r = false →
    s.chip.reg (R.EVT_STAGE 2) = ~~~ (s.chip.reg (R.EVT_STAGE 0)) → s.chip.reg (R.EVT_STAGE 3) = ~~~ (s.chip.reg (R.EVT_STAGE 1)) →
    evtRangeOk r i.val = true → evtActionOk r (s.chip.reg (R.EVT_STAGE 0)) (s.chip.reg (R.EVT_STAGE 1)) = true →
    let v0 := s.chip.reg (R.EVT_STAGE 0)
    let v1 := s.chip.reg (R.EVT_STAGE 1)
    let arm := fget v0 evAction != 0
    let n0 := fput v0 evState (if arm then 1 else 0)
    let late := fput n0 evState 3
    let judged := judgeInstant s.chip.tick (fget v0 evFrame) (fget v0 evTick)
    Yields (.evtWriteEntry r i) s (fun c =>
      c.event i.val = (if (arm && s.chip.rtValid) = false then ⟨n0, v1, ~~~ n0, ~~~ v1, none, 0⟩
        else match judged with
          | some t => ⟨n0, v1, ~~~ n0, ~~~ v1, some t, t⟩
          | none => ⟨late, v1, ~~~ late, ~~~ v1, none, 0⟩) ∧
      (arm = true → s.chip.rtValid = true → judged = none →
        c.fld R.EVT_STAT F.EVT_STAT.LATE_CNT = min (fmax F.EVT_STAT.LATE_CNT) (s.chip.fld R.EVT_STAT F.EVT_STAT.LATE_CNT + 1)) ∧
      c.fld R.EVT_STAT F.EVT_STAT.ERR = 0 ∧ (∀ j, j ≠ i.val → c.event j = s.chip.event j) ∧
      c = { s.chip with regs := c.regs, reqs := c.reqs, log := c.log, freeCtr := c.freeCtr, events := c.events, damaged := c.damaged })) ∧
  (∀ (s : State) (r : Requester) (i : Fin 4096), s.chip.live = true → s.chip.reaches r = true → mayReachBar0 r = true → s.chip.early r = false →
    let whole := decide (s.chip.reg (R.EVT_STAGE 2) = ~~~ (s.chip.reg (R.EVT_STAGE 0)) ∧ s.chip.reg (R.EVT_STAGE 3) = ~~~ (s.chip.reg (R.EVT_STAGE 1)))
    let err := if whole = false then 1 else if evtRangeOk r i.val = false then 2
      else if evtActionOk r (s.chip.reg (R.EVT_STAGE 0)) (s.chip.reg (R.EVT_STAGE 1)) = false then 3 else 0
    err ≠ 0 → Yields (.evtWriteEntry r i) s (fun c => c.fld R.EVT_STAT F.EVT_STAT.ERR = err ∧ c.events = s.chip.events ∧ c.log = s.chip.log)) ∧
  (∀ (s : State) (r : Requester) (i : Fin 4096), s.chip.live = true → s.chip.reaches r = true → mayReachBar0 r = true → s.chip.early r = false →
    Yields (.evtReadEntry r i) s (fun c => c.reg (R.EVT_STAGE 0) = (s.chip.event i.val).w0 ∧ c.reg (R.EVT_STAGE 1) = (s.chip.event i.val).w1 ∧
      c.reg (R.EVT_STAGE 2) = (s.chip.event i.val).c0 ∧ c.reg (R.EVT_STAGE 3) = (s.chip.event i.val).c1 ∧
      c.fld R.EVT_STAT F.EVT_STAT.ERR = 0 ∧ c = { s.chip with regs := c.regs, reqs := c.reqs })) ∧
  (∀ (s : State) (r : Requester) (i : Fin 4096), s.chip.live = true → s.chip.reaches r = true → mayReachBar0 r = true → s.chip.early r = false →
    evtRangeOk r i.val = true →
    let idle := fput (s.chip.event i.val).w0 evState 0
    Yields (.evtDisarm r i) s (fun c => c.event i.val = { s.chip.event i.val with w0 := idle, c0 := ~~~ idle, due := none } ∧
      (∀ j, j ≠ i.val → c.event j = s.chip.event j) ∧ c.fld R.EVT_STAT F.EVT_STAT.ERR = 0 ∧
      c = { s.chip with regs := c.regs, reqs := c.reqs, log := c.log, freeCtr := c.freeCtr, events := c.events })) ∧
  (∀ s : State, s.chip.live = true → s.chip.rtValid = false ∨ s.chip.nextDue = none → Becomes .eventFire s s.chip) ∧
  (∀ (s : State) (i : Nat) (e : EvEntry), s.chip.nextDue = some (i, e) → ∃ u, e.due = some u ∧ u ≤ s.chip.tick ∧ fget e.w0 evState = 1 ∧
    ∀ x ∈ s.chip.events, fget x.2.w0 evState = 1 → x.2.notBefore ≤ s.chip.tick → ∀ t, x.2.due = some t → t ≤ s.chip.tick → u ≤ t) ∧
  (∀ (s : State) (i : Nat) (e : EvEntry), s.chip.live = true → s.chip.rtValid = true → s.chip.nextDue = some (i, e) →
    e.c0 = ~~~ e.w0 → e.c1 = ~~~ e.w1 →
    let fired := if s.chip.firedAt.1 = s.chip.tick then s.chip.firedAt.2 else 0
    let done := fput e.w0 evState 2
    let pin := fget e.w1 ⟨4, 4⟩
    (fired < 32 → Yields .eventFire s (fun c => c.event i = e.afterFire s.chip.tick ∧ c.firedAt = (s.chip.tick, fired + 1) ∧
      (fget e.w0 evRepeat = 0 ∨ fget e.w0 evCount = 0 → c.event i = { e with w0 := done, c0 := ~~~ done, due := none }) ∧
      (fget e.w0 evAction = 6 → (s.chip.fld R.GLB_CTL F.GLB_CTL.GPIO_DIR).testBit pin = true →
        (s.chip.fld R.GLB_CTL F.GLB_CTL.GPIO_EVT).testBit pin = true → fget e.w1 ⟨0, 2⟩ ≤ 2 →
        c.fld R.GPIO_OUT ⟨pin, 1⟩ = (if fget e.w1 ⟨0, 2⟩ = 2 then 1 - s.chip.fld R.GPIO_OUT ⟨pin, 1⟩ else fget e.w1 ⟨0, 2⟩) ∧
        c = { s.chip with events := c.events, firedAt := c.firedAt, regs := c.regs }))) ∧
    (32 ≤ fired → Yields .eventFire s (fun c => c.event i = { e with notBefore := s.chip.tick + 1 } ∧
      c.fld R.EVT_STAT F.EVT_STAT.SLIP_CNT = (if e.due = some e.notBefore then
        min (fmax F.EVT_STAT.SLIP_CNT) (s.chip.fld R.EVT_STAT F.EVT_STAT.SLIP_CNT + 1) else s.chip.fld R.EVT_STAT F.EVT_STAT.SLIP_CNT) ∧
      c = { s.chip with events := c.events, regs := c.regs })))

/-- A PORT_CFG write that fits is stored, and a change of MODE or a fall of ENABLE drops the port's links and queued frames; one that does not fit, or that changes a port in use, sets CFG_REFUSED and keeps it. LINK_UP of an enabled sub-port raises its link alone; LINK_DOWN drops it, counts it and discards its released class 0 frames. A sub-port with its link up sends the head of the released class 0 queue first, then a PTP frame, then what its DRR classes give; a stamped frame joins the port's queue. TSQ_HI_READ returns the head stamp and latches the rest; TSQ_LO_READ returns that and pops it. With the link down nothing leaves. -/
def Obligations.PortsLinksFramesAndStamps : Prop :=
  (∀ (s : State) (r : Requester) (p : Fin 4) (v : W32), s.chip.live = true → s.chip.reaches r = true → mayReachBar0 r = true → s.chip.early r = false →
    s.chip.portExists p.val = true →
    let old := s.chip.reg (R.PORT_CFG p.val)
    let w := v.setWidth 64
    let change := fget w F.PORT_CFG.MODE != fget old F.PORT_CFG.MODE || (fget old F.PORT_CFG.ENABLE == 1 && fget w F.PORT_CFG.ENABLE == 0)
    (regFits .PORT_CFG w = true → (change = true → s.chip.portNamed p.val = false) →
      Yields (.portCfgWrite r p v (~~~ v)) s (fun c => c.reg (R.PORT_CFG p.val) = regWrite .PORT_CFG old w ∧
        (change = true → (∀ n, c.linkIsUp p.val n = false) ∧ ∀ i, ((c.eg p.val).queue i).frames = [] ∧ ((c.eg p.val).c0 i).frames = []) ∧
        (change = false → c.egress = s.chip.egress) ∧ (∀ n, n ≠ p.val → c.eg n = s.chip.eg n) ∧ c.mem = s.chip.mem ∧ c.host = s.chip.host)) ∧
    (regFits .PORT_CFG w = false ∨ (change = true ∧ s.chip.portNamed p.val = true) →
      Yields (.portCfgWrite r p v (~~~ v)) s (fun c => c.reg (R.PORT_CFG p.val) = old ∧ c.flag (R.PORT_STAT p.val) F.PORT_STAT.CFG_REFUSED = true ∧
        c.egress = s.chip.egress ∧ c.log = s.chip.log ∧ ∀ n, c.linkIsUp p.val n = s.chip.linkIsUp p.val n))) ∧
  (∀ (s : State) (p n : Fin 4), s.chip.live = true → s.chip.subEnabled p.val n.val = true → s.chip.linkIsUp p.val n.val = false →
    Yields (.linkUp p n) s (fun c => c.linkIsUp p.val n.val = true ∧ (∀ k, k ≠ n.val → c.linkIsUp p.val k = s.chip.linkIsUp p.val k) ∧
      tabGet c.linkDownAt (p.val * 4 + n.val) = none ∧
      c = { s.chip with regs := c.regs, linkDownAt := c.linkDownAt, linkUpTick := c.linkUpTick })) ∧
  (∀ (s : State) (p n : Fin 4), s.chip.live = true → s.chip.subEnabled p.val n.val = false → Becomes (.linkUp p n) s s.chip) ∧
  (∀ (s : State) (p n : Fin 4), s.chip.live = true → s.chip.linkIsUp p.val n.val = true →
    Yields (.linkDown p n) s (fun c => c.linkIsUp p.val n.val = false ∧ (∀ k, k ≠ n.val → c.linkIsUp p.val k = s.chip.linkIsUp p.val k) ∧
      c.fld (R.PORT_STAT p.val) F.PORT_STAT.LINK_DOWN_CNT =
        min (fmax F.PORT_STAT.LINK_DOWN_CNT) (s.chip.fld (R.PORT_STAT p.val) F.PORT_STAT.LINK_DOWN_CNT + 1) ∧
      tabGet c.linkDownAt (p.val * 4 + n.val) = some s.chip.time.uptime ∧
      (∀ i, (c.eg p.val).c0 i = (if ((s.chip.eg p.val).c0 i).subport = n.val then ((s.chip.eg p.val).c0 i).dropReleased else (s.chip.eg p.val).c0 i)))) ∧
  (∀ (s : State) (p n : Fin 4), s.chip.live = true → s.chip.linkIsUp p.val n.val = false → Becomes (.linkDown p n) s s.chip) ∧
  (∀ (s : State) (p n : Fin 4), s.chip.live = true → s.chip.linkIsUp p.val n.val = false →
    Yields (.frameTransmit p n []) s (fun c => c.out = s.chip.out ∧ c.tsq = s.chip.tsq ∧ ∀ k, c.eg k = s.chip.eg k)) ∧
  (∀ (s : State) (p n : Fin 4) (i : Nat) (f : Frame) (t : List Frame), s.chip.live = true → s.chip.linkIsUp p.val n.val = true →
    (s.chip.eg p.val).releasedNext n.val = some i → ((s.chip.eg p.val).c0 i).frames = f :: t → f.ptp = none →
    Yields (.frameTransmit p n []) s (fun c => c.out.head? = some (.frame p.val n.val f.data) ∧
      (c.eg p.val).c0 i = { (s.chip.eg p.val).c0 i with frames := t } ∧ (∀ j, j ≠ i → (c.eg p.val).c0 j = (s.chip.eg p.val).c0 j) ∧
      (c.eg p.val).queues = (s.chip.eg p.val).queues ∧ (f.tsId = none → c.tsq = s.chip.tsq) ∧
      (∀ id, f.tsId = some id → (nth s.chip.tsq p.val []).length < 64 → p.val < s.chip.tsq.length →
        let stamp := s.chip.txStamp p.val s.chip.time.chip
        nth c.tsq p.val [] = nth s.chip.tsq p.val [] ++ [⟨id, stamp / 65536 / nsPerSec, stamp / 65536 % nsPerSec, n.val⟩]) ∧
      c = { s.chip with regs := c.regs, out := c.out, egress := c.egress, tsq := c.tsq })) ∧
  (∀ (s : State) (p n : Fin 4) (f : Frame) (t : List Frame) (d : Nat), s.chip.live = true → s.chip.linkIsUp p.val n.val = true →
    (s.chip.eg p.val).releasedNext n.val = none → tabGetD (s.chip.eg p.val).ptp n.val [] = f :: t → f.ptp = some d → f.tsId = none →
    Yields (.frameTransmit p n []) s (fun c => c.out.head? = some (.delayReq d p.val n.val) ∧ tabGetD (c.eg p.val).ptp n.val [] = t ∧
      (d < s.chip.time.domains.length → (c.domain d).t3 = s.chip.txStamp p.val s.chip.time.chip / 65536) ∧
      c = { s.chip with regs := c.regs, out := c.out, egress := c.egress, time := c.time })) ∧
  (∀ (s : State) (p n : Fin 4) (f : Frame) (e : EgPort), s.chip.live = true → s.chip.linkIsUp p.val n.val = true →
    (s.chip.eg p.val).releasedNext n.val = none → tabGetD (s.chip.eg p.val).ptp n.val [] = [] →
    (s.chip.eg p.val).drr (s.chip.fld (R.PORT_CFG p.val) F.PORT_CFG.SHP_OVH) n.val = some (f, e) → f.ptp = none → f.tsId = none →
    Yields (.frameTransmit p n []) s (fun c => c.out.head? = some (.frame p.val n.val f.data) ∧ c.eg p.val = e ∧
      c = { s.chip with regs := c.regs, out := c.out, egress := c.egress })) ∧
  (∀ (s : State) (r : Requester) (p : Fin 4) (x : TxStamp) (t : List TxStamp), s.chip.live = true → s.chip.reaches r = true → mayReachBar0 r = true →
    nth s.chip.tsq p.val [] = x :: t →
    Yields (.tsqHiRead r p) s (fun c => c.out = .readData r x.words.1 :: s.chip.out ∧ tabGet (c.getReq r).popLatch (R.TSQ_HI p.val).addr = some x.words.2 ∧
      c = { s.chip with regs := (s.chip.supersede r).regs, reqs := c.reqs, out := c.out })) ∧
  (∀ (s : State) (r : Requester) (p : Fin 4) (x : TxStamp) (t : List TxStamp) (w : W64), s.chip.live = true → s.chip.reaches r = true → mayReachBar0 r = true →
    nth s.chip.tsq p.val [] = x :: t → tabGet (s.chip.getReq r).popLatch (R.TSQ_HI p.val).addr = some w →
    Yields (.tsqLoRead r p) s (fun c => c.out = .readData r w :: s.chip.out ∧ nth c.tsq p.val [] = t ∧
      c.fld (R.TSQ_STAT p.val) F.TSQ_STAT.COUNT = t.length % 2 ^ F.TSQ_STAT.COUNT.w ∧
      c = { s.chip with regs := c.regs, reqs := c.reqs, out := c.out, tsq := c.tsq }))

/-- SHP_CMD's write of a valid staged entry stores it with ERR 0: a queue's or group's rate and a quantum wait for the next refill and a queue's move for it to become empty, while a class 0 queue takes its values at once. A bad complement answers ERR 1 and a bad value ERR 2; either keeps the entries. Read-back copies an entry and its complements to staging. At each refill a bucket takes its waiting rate and its level rises by REFILL, capped at BURST. Frames of a class 0 queue that stay unsent DROP_AFTER ticks after their release are discarded and counted; before that none is. -/
def Obligations.EgressIsShapedAndReleased : Prop :=
  (∀ (s : State) (r : Requester) (p : Fin 10) (k : Fin 4) (i : Fin 1024), s.chip.live = true → s.chip.reaches r = true → mayReachBar0 r = true →
    s.chip.early r = false → s.chip.portExists p.val = true →
    let v0 := s.chip.reg (shpStage p.val 0)
    let v1 := s.chip.reg (shpStage p.val 1)
    let err := if s.chip.shpStaged p.val = false then 1 else if shpInvalid p.val k.val i.val v0 v1 = true then 2 else 0
    Yields (.shpWrite r p k i) s (fun c => c.fld (shpStat p.val) F.SHP_STAT.ERR = err ∧
      (err = 0 → c.eg p.val = (s.chip.eg p.val).store k.val i.val v0 v1 ∧
        c = { s.chip with regs := c.regs, reqs := c.reqs, log := c.log, freeCtr := c.freeCtr, egress := c.egress }) ∧
      (err ≠ 0 → c.egress = s.chip.egress ∧ c.log = s.chip.log) ∧ (∀ n, n ≠ p.val → c.eg n = s.chip.eg n))) ∧
  (∀ (e : EgPort) (i : Nat) (v0 v1 : W64),
    (((e.store 0 i v0 v1).queue i).bucket = { (e.queue i).bucket with next := some (fget v0 shpRefill, fget v0 shpBurst) } ∧
      ((e.store 0 i v0 v1).queue i).nextQuantum = some (fget v0 shpQuantum) ∧ ((e.store 0 i v0 v1).queue i).quantum = (e.queue i).quantum ∧
      ((e.store 0 i v0 v1).queue i).frames = (e.queue i).frames ∧
      ((e.queue i).frames ≠ [] → ((e.store 0 i v0 v1).queue i).place = (e.queue i).place) ∧
      ((e.queue i).frames = [] → ((e.store 0 i v0 v1).queue i).place = ⟨fget v1 shpEnable != 0, fget v1 shpClass, fget v1 shpSub, fget v1 shpGroup⟩)) ∧
    (e.store 1 i v0 v1).cls (i / 8) (i % 8) = { e.cls (i / 8) (i % 8) with nextQuantum := some (fget v0 shpQuantum) } ∧
    (e.store 2 i v0 v1).group i = { e.group i with next := some (fget v0 shpRefill, fget v0 shpBurst) } ∧
    (e.store 3 i v0 v1).c0 i = { e.c0 i with enable := fget v1 shpEnable != 0, subport := fget v1 shpSub, dropAfter := fget v0 shpDrop }) ∧
  (∀ (s : State) (r : Requester) (p : Fin 10) (k : Fin 4) (i : Fin 1024), s.chip.live = true → s.chip.reaches r = true → mayReachBar0 r = true →
    s.chip.early r = false → s.chip.portExists p.val = true →
    let w := (s.chip.eg p.val).words k.val i.val
    Yields (.shpReadBack r p k i) s (fun c => c.reg (shpStage p.val 0) = w.1 ∧ c.reg (shpStage p.val 1) = w.2 ∧ c.reg (shpStage p.val 2) = ~~~ w.1 ∧
      c.reg (shpStage p.val 3) = ~~~ w.2 ∧ c.fld (shpStat p.val) F.SHP_STAT.ERR = 0 ∧ c = { s.chip with regs := c.regs, reqs := c.reqs })) ∧
  (∀ s : State, s.chip.live = true → Yields .bucketRefill s (fun c =>
    (∀ p g, ∀ b, tabGet (s.chip.eg p).groups g = some b →
      let rate := b.next.getD (b.refill, b.burst)
      tabGet (c.eg p).groups g = some ⟨rate.1, rate.2, if rate.1 = 0 then b.level else min (rate.2 * 256 * 1024) (b.level + rate.1), none⟩) ∧
    (∀ p i, ∀ q, tabGet (s.chip.eg p).queues i = some q → ∃ q', tabGet (c.eg p).queues i = some q' ∧ q'.quantum = q.nextQuantum.getD q.quantum ∧
      q'.nextQuantum = none ∧ q'.frames = q.frames ∧ q'.deficit = q.deficit ∧ q'.place = q.place) ∧
    c = { s.chip with egress := c.egress })) ∧
  (∀ (s : State) (p : Fin 4) (i : Fin 1024) (t : Int), s.chip.live = true → ((s.chip.eg p.val).c0 i.val).released = some t →
    let q := (s.chip.eg p.val).c0 i.val
    (t + q.dropAfter ≤ s.chip.tick → Yields (.class0DropAfter p i) s (fun c =>
      (c.eg p.val).c0 i.val = { q with frames := [], txLate := min (2 ^ 32 - 1) (q.txLate + q.frames.length), released := none } ∧
      (∀ j, j ≠ i.val → (c.eg p.val).c0 j = (s.chip.eg p.val).c0 j) ∧ (∀ n, n ≠ p.val → c.eg n = s.chip.eg n) ∧
      c = { s.chip with egress := c.egress })) ∧
    (s.chip.tick < t + q.dropAfter → Becomes (.class0DropAfter p i) s s.chip))

/-- A STRM_CFG write that fits is stored and starts an enabled stream's groups at FIXED_GAIN; more than 64 groups set CFG_ERR, the four values of another stream raise INTEGRITY, and either keeps it. A frame with a bad check sequence, a bad length or a pause is counted and dropped. An eCPRI frame without a stream or of another revision is counted; one on time counts and puts its PRB in the grid; PTP goes to its domain, another frame to its steered ring or ring 0 of the host's slot. The oldest measured symbol moves each group's step as R158 says. A closed window ends with zeros in the PRBs not received, their bitmap, and its radio token complete. -/
def Obligations.FronthaulStreamsAndFrames : Prop :=
  (∀ (s : State) (r : Requester) (i : Fin 4096) (v : W64), s.chip.live = true → s.chip.reaches r = true → mayReachBar0 r = true → s.chip.early r = false →
    let old := s.chip.reg (R.STRM_CFG i.val)
    let fits := regFits .STRM_CFG v && !(fget v F.STRM_CFG.COMP == 2 && fget v F.STRM_CFG.DIR == 0)
    (fits = true → gainGroups v ≤ 64 → s.chip.strmTaken i.val v = false → Yields (.strmCfgWrite r i v (~~~ v)) s (fun c =>
      c.reg (R.STRM_CFG i.val) = regWrite .STRM_CFG old v ∧
      (fget old F.STRM_CFG.ENABLE = 0 → fget (regWrite .STRM_CFG old v) F.STRM_CFG.ENABLE = 1 →
        c.stream i.val = { streamReset with
          gains := List.replicate (gainGroups (regWrite .STRM_CFG old v)) (s.chip.fixedGain i.val)
          runs := List.replicate (gainGroups (regWrite .STRM_CFG old v)) 0 }) ∧
      (∀ j, j ≠ i.val → c.stream j = s.chip.stream j) ∧
      c = { s.chip with regs := c.regs, reqs := c.reqs, log := c.log, freeCtr := c.freeCtr, streams := c.streams, damaged := c.damaged })) ∧
    (fits = true → 64 < gainGroups v → Yields (.strmCfgWrite r i v (~~~ v)) s (fun c => c.reg (R.STRM_CFG i.val) = old ∧
      c.flag R.FH_STAT F.FH_STAT.CFG_ERR = true ∧ c.streams = s.chip.streams)) ∧
    (fits = true → gainGroups v ≤ 64 → s.chip.strmTaken i.val v = true → Yields (.strmCfgWrite r i v (~~~ v)) s (fun c =>
      c.reg (R.STRM_CFG i.val) = old ∧ tabGetD c.health.counts 9 0 = tabGetD s.chip.health.counts 9 0 + 1 ∧ c.streams = s.chip.streams)) ∧
    (fits = false → Yields (.strmCfgWrite r i v (~~~ v)) s (fun c => c.reg (R.STRM_CFG i.val) = old ∧ c.streams = s.chip.streams))) ∧
  (∀ (s : State) (p n : Fin 4) (f : RxFrame), s.chip.live = true → s.chip.linkIsUp p.val n.val = false → Becomes (.frameReceive p n f) s s.chip) ∧
  (∀ (s : State) (p n : Fin 4) (f : RxFrame), s.chip.live = true → s.chip.linkIsUp p.val n.val = true → f.corrected = 0 → f.uncorrectable = 0 →
    let long := 1 < f.tags ∨ f.length < 64 ∨ 9600 < f.length
    let count := fun (k : Nat) => (s.chip.reg (R.PORT_CNT p.val n.val k)).toNat + 1
    let dropped := fun (k : Nat) => Yields (.frameReceive p n f) s (fun c =>
      c.reg (R.PORT_CNT p.val n.val k) = BitVec.ofNat 64 (count k) ∧ c = { s.chip with regs := c.regs })
    (f.fcsOk = false → count portFcs < 2 ^ 64 → dropped portFcs) ∧
    (f.fcsOk = true → long → count portLen < 2 ^ 64 → dropped portLen) ∧
    (f.fcsOk = true → ¬ long → f.pause = true → count portPause < 2 ^ 64 → dropped portPause)) ∧
  (∀ (s : State) (p n : Fin 4) (f : RxFrame), s.chip.live = true → s.chip.linkIsUp p.val n.val = true → f.corrected = 0 → f.uncorrectable = 0 →
    f.fcsOk = true → f.tags ≤ 1 → 64 ≤ f.length → f.length ≤ 9600 → f.pause = false →
    let stamp := s.chip.rxStamp p.val f.boundary
    let only := fun (c : Chip) => c = { s.chip with regs := c.regs, out := c.out }
    (∀ e, f.body = .ecpri e → e.revision ≠ 1 ∨ e.concat = true → Yields (.frameReceive p n f) s (fun c =>
      c.fld R.FH_STAT F.FH_STAT.UNSUPPORTED = min (fmax F.FH_STAT.UNSUPPORTED) (s.chip.fld R.FH_STAT F.FH_STAT.UNSUPPORTED + 1) ∧ only c)) ∧
    (∀ e, f.body = .ecpri e → e.revision = 1 → e.concat = false → s.chip.streamFor p.val n.val f.vid e = none → Yields (.frameReceive p n f) s (fun c =>
      c.fld R.FH_STAT F.FH_STAT.NO_STREAM = min (fmax F.FH_STAT.NO_STREAM) (s.chip.fld R.FH_STAT F.FH_STAT.NO_STREAM + 1) ∧ only c)) ∧
    (∀ e i w x b m width, f.body = .ecpri e → e.revision = 1 → e.concat = false → e.type = 0 → s.chip.streamFor p.val n.val f.vid e = some i →
      e.subframe < 10 → e.slotId < 2 ^ fget (s.chip.reg (R.STRM_CFG i)) F.STRM_CFG.MU → e.symbol < 14 →
      s.chip.onTime i e (ticksAt stamp s.chip.rtOffset) = some w → w < (s.chip.stream i).windows.length → e.sections = [x] → x.prbs = [b] →
      sectionComp (s.chip.reg (R.STRM_CFG i)) x = some (m, width) → x.start < s.chip.strm i F.STRM_CFG.NUM_PRB →
      x.start ∉ ((s.chip.stream i).win w).prbs → s.chip.fld (R.STRM_GRID i) F.STRM_GRID.TARGET = 0 →
      let grp := x.start / 2 ^ s.chip.strm i F.STRM_CFG.GRP_LOG2
      let place := s.chip.fld (R.STRM_GRID i) F.STRM_GRID.REAM * 2 ^ 40 + s.chip.fld (R.STRM_GRID i) F.STRM_GRID.OFFSET * 256 +
        w * gridStride (s.chip.strm i F.STRM_CFG.NUM_PRB) + 40 * x.start
      Yields (.frameReceive p n f) s (fun c =>
        c.fld (R.STRM_CNT0 i) F.STRM_CNT0.ON_TIME = min (fmax F.STRM_CNT0.ON_TIME) (s.chip.fld (R.STRM_CNT0 i) F.STRM_CNT0.ON_TIME + 1) ∧
        ((c.stream i).win w).prbs = ((s.chip.stream i).win w).prbs ++ [x.start] ∧
        memRead c.radioMem place 40 = (prbConvert m width (nth ((s.chip.stream i).win w).gains grp 0) b).1 ∧
        (∀ a, a < place ∨ place + 40 ≤ a → memGet c.radioMem a = memGet s.chip.radioMem a) ∧
        c = { s.chip with regs := c.regs, out := c.out, radioMem := c.radioMem, streams := c.streams })) ∧
    (∀ num msg d, f.body = .ptp num msg → s.chip.ptpDomain p.val n.val num = some d → Yields (.frameReceive p n f) s (fun c =>
      c.time = (s.chip.ptpReceive d stamp msg).time ∧ c = { s.chip with regs := c.regs, out := c.out, time := c.time })) ∧
    (∀ data, f.body = .other data →
      let at_ := (s.chip.steer p.val f.dmac f.vid).getD (0, 0)
      (∀ g, s.chip.ring at_.1 3 at_.2 = some g → g.own ≠ g.soft → data.length ≤ 256 * g.bufUnits →
        s.chip.permitted at_.1 (s.chip.treadNat at_.1 (g.base + 32 * g.own) 8) data.length true = true →
        Yields (.frameReceive p n f) s (fun c => c.mem = (s.chip.rxDeliver at_.1 at_.2 p.val n.val stamp data).mem ∧
          c.host = (s.chip.rxDeliver at_.1 at_.2 p.val n.val stamp data).host ∧
          ((c.ring at_.1 3 at_.2).map (fun (x : Ring) => x.own)) = some ((g.own + 1) % g.size))) ∧
      (s.chip.ring at_.1 3 at_.2 = none → Yields (.frameReceive p n f) s (fun c =>
        c.fld (R.RX_NOBUF (s.chip.firstSlice at_.1)) F.RX_NOBUF.COUNT =
          min (fmax F.RX_NOBUF.COUNT) (s.chip.fld (R.RX_NOBUF (s.chip.firstSlice at_.1)) F.RX_NOBUF.COUNT + 1) ∧ only c)))) ∧
  (∀ (s : State) (i : Fin 4096), s.chip.live = true → (s.chip.stream i.val).measured = [] → Becomes (.gainStepUpdate i) s s.chip) ∧
  (∀ (s : State) (i : Fin 4096) (gs : List Int) (ms : List GainSum) (rest : List (List Int × List GainSum)), s.chip.live = true →
    (s.chip.stream i.val).measured = (gs, ms) :: rest →
    let a := s.chip.reg (R.STRM_AGC i.val)
    let x := s.chip.stream i.val
    Yields (.gainStepUpdate i) s (fun c => (c.stream i.val).measured = rest ∧
      (fget a F.STRM_AGC.AGC_EN = 0 → c.stream i.val = { x with measured := rest }) ∧
      (fget a F.STRM_AGC.AGC_EN = 1 → ∀ k < x.gains.length,
        let y := gainMove (fget a F.STRM_AGC.TARGET) (fget a F.STRM_AGC.BAND) (fget a F.STRM_AGC.UP_SYMS) (nth gs k 0) (nth x.gains k 0)
          (nth x.runs k 0) (nth ms k ⟨0, 0, false⟩)
        nth (c.stream i.val).gains k 0 = y.1 ∧ nth (c.stream i.val).runs k 0 = y.2.1) ∧
      c = { s.chip with streams := c.streams, regs := c.regs })) ∧
  (∀ (target band ups : Nat) (g step : Int) (run : Nat) (m : GainSum),
    (m.samples = 0 → gainMove target band ups g step run m = (step, run, 0)) ∧
    (m.samples ≠ 0 → m.clip = true → -8 < step → gainMove target band ups g step run m = (step - 1, 0, -1))) ∧
  (∀ (s : State) (i : Fin 4096) (w : Fin 4), s.chip.live = true → ((s.chip.stream i.val).win w.val).closing = false →
    Becomes (.windowFinalise i w) s s.chip) ∧
  (∀ (s : State) (i : Fin 4096) (w : Fin 4), s.chip.live = true → ((s.chip.stream i.val).win w.val).closing = true →
    w.val < (s.chip.stream i.val).windows.length → s.chip.fld (R.STRM_GRID i.val) F.STRM_GRID.TARGET = 0 →
    let n := s.chip.strm i.val F.STRM_CFG.NUM_PRB
    let x := (s.chip.stream i.val).win w.val
    let base := s.chip.fld (R.STRM_GRID i.val) F.STRM_GRID.REAM * 2 ^ 40 + s.chip.fld (R.STRM_GRID i.val) F.STRM_GRID.OFFSET * 256 + w.val * gridStride n
    let tok := (s.chip.fld (R.STRM_GRID i.val) F.STRM_GRID.TOKEN_BASE + w.val) % 2 ^ 32
    Yields (.windowFinalise i w) s (fun c => (c.stream i.val).win w.val = windowReset ∧
      (c.stream i.val).measured = (s.chip.stream i.val).measured ++ [(x.gains, x.sums)] ∧
      (∀ k < n, k ∉ x.prbs → memRead c.radioMem (base + 40 * k) 40 = List.replicate 40 0) ∧
      (∀ k < n, k ∈ x.prbs → memRead c.radioMem (base + 40 * k) 40 = memRead s.chip.radioMem (base + 40 * k) 40) ∧
      memRead c.radioMem (base + 40 * n) 64 = prbBitmap x.prbs ∧ tabGet c.tokens (tokenKey radioTokens tok) = some (tok, true) ∧
      c = { s.chip with radioMem := c.radioMem, tokens := c.tokens, streams := c.streams }))

/-- A tail doorbell of a submission queue or receive ring that its slice may ring puts the tail and lets a stopped queue go on. One with an index past the ring, one that goes back, and one of a ring that is not there are ignored, with DB_ERR's count and sticky bit; one with the tail as it is has no effect, and none has one through a slice that is not enabled. A transmit ring's doorbell reads its descriptors: a good one queues its frame, a bad one is counted, and the head is written behind the ring. A completion queue's head doorbell lets the held completion out. FAPI's tail is noted with the radio time, and its head lets the held message out. -/
def Obligations.DoorbellsMoveTheirRings : Prop :=
  (∀ (s : State) (slice : Fin 1024) (q : Fin 64) (v : W32) (g : Ring) (i : Instr) (kind : Nat) (tail : RegRef),
    (i, kind, tail) ∈ [(Instr.sqTailWrite slice q v, 0, R.SQ_TAIL slice.val q.val), (Instr.ethRxTailWrite slice q v, 3, R.ETH_RX_TAIL slice.val q.val)] →
    s.chip.live = true → s.chip.reaches (.slice slice) = true →
    let w := v.toNat % 65536
    (s.chip.TailMoves slice kind q.val w g → Yields i s (fun c =>
      c.ring (s.chip.sliceSlot slice.val) kind q.val = some { g with soft := w, stopped := false } ∧ c.reg tail = BitVec.ofNat 64 w ∧
      c = { s.chip with regs := c.regs, reqs := c.reqs, rings := c.rings })) ∧
    (s.chip.sliceOn slice.val = true → (s.chip.ring (s.chip.sliceSlot slice.val) kind q.val = none ∨
        (s.chip.ring (s.chip.sliceSlot slice.val) kind q.val = some g ∧ (g.size ≤ w ∨ g.ahead g.own w < g.ahead g.own g.soft))) →
      Yields i s (fun c => c.flag (R.DB_ERR slice.val) F.DB_ERR.STICKY_BAD = true ∧ c.fld (R.DB_ERR slice.val) F.DB_ERR.LAST_Q = q.val ∧
        c.fld (R.DB_ERR slice.val) F.DB_ERR.BAD_CNT = min (fmax F.DB_ERR.BAD_CNT) (s.chip.fld (R.DB_ERR slice.val) F.DB_ERR.BAD_CNT + 1) ∧
        c = { s.chip with regs := c.regs, reqs := c.reqs })) ∧
    (s.chip.sliceOn slice.val = true → s.chip.ring (s.chip.sliceSlot slice.val) kind q.val = some g → s.chip.slotState g.slot = 1 →
      g.slice = slice.val → g.soft < g.size → w = g.soft → Becomes i s (s.chip.supersede (.slice slice))) ∧
    (s.chip.sliceOn slice.val = false → Becomes i s (s.chip.supersede (.slice slice)))) ∧
  (∀ (s : State) (slice : Fin 1024) (q : Fin 64) (v : W32) (g : Ring), s.chip.live = true → s.chip.reaches (.slice slice) = true →
    s.chip.TailMoves slice 2 q.val (v.toNat % 65536) g → g.own = g.soft → v.toNat % 65536 = (g.own + 1) % g.size →
    let bs := s.chip.treadN g.slot (g.base + 32 * g.own) 32
    Yields (.ethTxTailWrite slice q v) s (fun c =>
      (c.ring (s.chip.sliceSlot slice.val) 2 q.val).map (fun (x : Ring) => (x.own, x.soft)) = some ((g.own + 1) % g.size, (g.own + 1) % g.size) ∧
      c.egress = (s.chip.txDescriptor g bs).egress ∧ c.fld (R.DB_ERR g.slice) F.DB_ERR.BAD_CNT = (s.chip.txDescriptor g bs).fld (R.DB_ERR g.slice) F.DB_ERR.BAD_CNT ∧
      c.mem = (s.chip.twrite g.slot (g.base + 32 * g.size) (bytesLE 4 ((g.own + 1) % g.size))).mem ∧
      c.host = (s.chip.twrite g.slot (g.base + 32 * g.size) (bytesLE 4 ((g.own + 1) % g.size))).host)) ∧
  (∀ (c : Chip) (g : Ring) (bs : List Byte),
    let len := byteField bs 8 2
    let p := (if (byteField bs 14 1).testBit 1 then 2 else 0) + (if (byteField bs 14 1).testBit 2 then 1 else 0)
    let k := byteField bs 12 2 % 1024
    (crcOk bs 28 = false ∨ len < 60 ∨ 9596 < len ∨ c.permitted g.slot (byteField bs 0 8) len false = false ∨ ((c.eg p).queue k).place.enable = false →
      c.txDescriptor g bs = c.bump (R.DB_ERR g.slice) F.DB_ERR.BAD_CNT 1) ∧
    (crcOk bs 28 = true → 60 ≤ len → len ≤ 9596 → byteField bs 12 2 < 1024 → byteField bs 14 1 < 8 → byteField bs 15 8 = 0 → byteField bs 23 5 = 0 →
      c.portExists p = true → ((c.eg p).queue k).place.enable = true → ((c.eg p).queue k).place.group = c.shpGroupOf g.slot p →
      c.permitted g.slot (byteField bs 0 8) len false = true →
      ∃ f : Frame, (((c.txDescriptor g bs).eg p).queue k).frames = ((c.eg p).queue k).frames ++ [f] ∧ f.data = c.treadN g.slot (byteField bs 0 8) len ∧
        f.length = len + 4)) ∧
  (∀ (s : State) (slice : Fin 1024) (q : Fin 64) (v : W32) (g : Ring) (e : Completion), s.chip.live = true → s.chip.reaches (.slice slice) = true →
    s.chip.sliceOn slice.val = true → s.chip.ring (s.chip.sliceSlot slice.val) 1 q.val = some g → s.chip.slotState g.slot = 1 → g.slice = slice.val →
    v.toNat % 65536 < g.size → g.ahead g.soft (v.toNat % 65536) ≤ g.ahead g.soft g.own → g.held = [e] →
    g.ahead (v.toNat % 65536) g.own ≠ g.size - 1 →
    Yields (.cqHeadWrite slice q v) s (fun c =>
      c.reg (R.CQ_HEAD slice.val q.val) = BitVec.ofNat 64 (v.toNat % 65536) ∧
      (c.ring (s.chip.sliceSlot slice.val) 1 q.val).map (fun (x : Ring) => (x.soft, x.own, x.held)) = some (v.toNat % 65536, (g.own + 1) % g.size, []) ∧
      c.mem = (s.chip.twrite g.slot (g.base + 64 * g.own) (e.bytes g.phase)).mem ∧
      c.host = (s.chip.twrite g.slot (g.base + 64 * g.own) (e.bytes g.phase)).host)) ∧
  (∀ (s : State) (slice : Fin 1024) (q : Fin 64) (v : W32) (g : Ring), s.chip.live = true → s.chip.reaches (.slice slice) = true →
    s.chip.sliceOn slice.val = true → s.chip.ring (s.chip.sliceSlot slice.val) 1 q.val = some g → s.chip.slotState g.slot = 1 → g.slice = slice.val →
    v.toNat % 65536 < g.size → g.ahead g.soft (v.toNat % 65536) ≤ g.ahead g.soft g.own → g.held = [] →
    Yields (.cqHeadWrite slice q v) s (fun c =>
      c.ring (s.chip.sliceSlot slice.val) 1 q.val = some { g with soft := v.toNat % 65536 } ∧
      c = { s.chip with regs := c.regs, reqs := c.reqs, rings := c.rings })) ∧
  (∀ (s : State) (slice : Fin 1024) (v : W32) (g : Ring), s.chip.live = true → s.chip.reaches (.slice slice) = true →
    s.chip.TailMoves slice 4 0 (v.toNat % 65536) g →
    Yields (.fapiTailWrite slice v []) s (fun c => c.ring (s.chip.sliceSlot slice.val) 4 0 = some { g with soft := v.toNat % 65536, stopped := false } ∧
      tabGetD c.fapiArrived (s.chip.sliceSlot slice.val) [] =
        tabGetD s.chip.fapiArrived (s.chip.sliceSlot slice.val) [] ++ [(v.toNat % 65536, s.chip.tick)] ∧
      c = { s.chip with regs := c.regs, reqs := c.reqs, rings := c.rings, fapiArrived := c.fapiArrived })) ∧
  (∀ (s : State) (slice : Fin 1024) (v : W32) (g : Ring) (m : FapiMsg), s.chip.live = true → s.chip.reaches (.slice slice) = true →
    s.chip.TailMoves slice 5 0 (v.toNat % 65536) g → v.toNat % 65536 ≠ g.own → tabGetD s.chip.fapiHeld (s.chip.sliceSlot slice.val) [] = [m] →
    Yields (.fapiHeadWrite slice v) s (fun c => c.out.head? = some (.fapi (s.chip.sliceSlot slice.val) m) ∧
      tabGetD c.fapiHeld (s.chip.sliceSlot slice.val) [] = [] ∧
      (c.ring (s.chip.sliceSlot slice.val) 5 0).map (fun (x : Ring) => x.soft) = some (v.toNat % 65536)))

/-- Without a whole message nothing happens; a message that names a cell outside its slot's range is answered with MSG_INVALID_CONFIG. PARAM.request is answered. CONFIG.request of a running cell, or of one a shadow relation holds, is answered MSG_INVALID_STATE; one whose values or weight do not fit, or that no ream admits, or outside LOCKED_A and LOCKED_B one of a cell that is not up, MSG_INVALID_CONFIG, with the cell as it was; otherwise the cell is active with its weight on a candidate ream and does not run. START.request sets it running and changes nothing else; STOP.request takes an active cell down, running or not: its work, its share of the load and its protection end, its shadow is told, and STOP.indication is sent. Either on a cell in another state is an ERROR.indication (model's choice, log entry 41). With the last message of a buffer the ring's index moves on. -/
def Obligations.FapiConfiguresStartsAndStopsCells : Prop :=
  (∀ (s : State) (slot : Fin 64) (last : Bool) (cfg : CellConfig) (frame : Fin 1024) (dl : List DlPdu) (ul : List UlPdu) (n : Nat)
      (tx : List (Nat × List Byte)), s.chip.live = true →
    ∀ i ∈ [Instr.paramRequest slot last, .configRequest slot last cfg, .startRequest slot last, .stopRequest slot last,
        .dlTtiRequest slot last frame 0 dl, .ulTtiRequest slot last frame 0 ul, .ulDciRequest slot last frame 0 n, .txDataRequest slot last frame 0 tx],
      (s.chip.fapiNext slot.val = none → Becomes i s s.chip) ∧
      (∀ g cell t next, s.chip.fapiNext slot.val = some (g, cell, t, next) → inRange cell (s.chip.cellRange slot.val) = false → Yields i s (fun c =>
        s.chip.Hears c slot.val (.errorInd cell (some .invalidConfig)) ∧ c.cells = s.chip.cells ∧ c.strips = s.chip.strips ∧
        (last = true → (c.ring slot.val 4 0).map (fun (x : Ring) => x.own) = some next)))) ∧
  (∀ (s : State) (slot : Fin 64) (last : Bool) (cell : Nat) (t : Int), s.chip.live = true → s.chip.Asks slot.val cell t →
    Yields (.paramRequest slot last) s (fun c => s.chip.Hears c slot.val (.paramResponse cell) ∧ c.cells = s.chip.cells ∧ c.strips = s.chip.strips)) ∧
  (∀ (s : State) (slot : Fin 64) (last : Bool) (cfg : CellConfig) (cell : Nat) (t : Int), s.chip.live = true → s.chip.Asks slot.val cell t →
    (((tabGet s.chip.cells cell).map (fun (x : Cell) => x.running)) = some true ∨ s.chip.cellState cell ∉ [cellDown, cellActive, cellShed]) →
    Yields (.configRequest slot last cfg) s (fun c => s.chip.Hears c slot.val (.configResponse cell (some .invalidState)) ∧
      c.cells = s.chip.cells ∧ c.strips = s.chip.strips ∧ c.streams = s.chip.streams)) ∧
  (∀ (s : State) (slot : Fin 64) (last : Bool) (cfg : CellConfig) (g : Ring) (cell : Nat) (t : Int) (next : Nat), s.chip.live = true →
    s.chip.fapiNext slot.val = some (g, cell, t, next) → inRange cell (s.chip.cellRange slot.val) = true → cell < 1024 →
    ((tabGet s.chip.cells cell).map (fun (x : Cell) => x.running)) ≠ some true → s.chip.cellState cell ∈ [cellDown, cellActive, cellShed] →
    let b := s.chip.fapiTake g next last
    (b.configWeight slot.val cfg = none ∨ s.chip.cellState cell ≠ cellActive ∧ s.chip.tmState ∉ [tmLockedA, tmLockedB] →
      b.configured slot.val cell cfg = none) ∧
    (b.configured slot.val cell cfg = none → Yields (.configRequest slot last cfg) s (fun c =>
      s.chip.Hears c slot.val (.configResponse cell (some .invalidConfig)) ∧ c.cells = s.chip.cells ∧ c.cellState cell = s.chip.cellState cell)) ∧
    (∀ d w, b.configured slot.val cell cfg = some d → b.configWeight slot.val cfg = some w → Yields (.configRequest slot last cfg) s (fun c =>
      s.chip.Hears c slot.val (.configResponse cell none) ∧ c.cellState cell = cellActive ∧ c.cuOf cell = w ∧
      (tabGet c.cells cell).map (fun (x : Cell) => (x.slot, x.cfg, x.running)) = some (slot.val, cfg, false) ∧
      (∀ j, j ≠ cell → tabGet c.cells j = tabGet s.chip.cells j) ∧
      (let e : Chip := { b.setCellState cell cellDown with cells := tabPut b.cells cell (cellNew slot.val cfg) }
       ∃ r ∈ e.candidates cell, (e.placeCell cell w cellActive r).loadFits r = true ∧ c.cellHome cell = r)))) ∧
  (∀ (s : State) (slot : Fin 64) (last : Bool) (cell : Nat) (t : Int) (x : Cell), s.chip.live = true → s.chip.Asks slot.val cell t →
    (tabGet s.chip.cells cell = some x → s.chip.cellState cell = cellActive → x.running = false → Yields (.startRequest slot last) s (fun c =>
      tabGet c.cells cell = some { x with running := true } ∧ (∀ j, j ≠ cell → tabGet c.cells j = tabGet s.chip.cells j) ∧
      c = { s.chip with cells := c.cells, rings := c.rings, fapiArrived := c.fapiArrived })) ∧
    (tabGet s.chip.cells cell = none ∨ (tabGet s.chip.cells cell = some x ∧ (s.chip.cellState cell ≠ cellActive ∨ x.running = true)) →
      Yields (.startRequest slot last) s (fun c => s.chip.Hears c slot.val (.errorInd cell (some .invalidState)) ∧ c.cells = s.chip.cells)) ∧
    (tabGet s.chip.cells cell = some x → s.chip.cellState cell = cellActive → Yields (.stopRequest slot last) s (fun c =>
      s.chip.Hears c slot.val (.stopInd cell) ∧ c.cellState cell = cellDown ∧ c.cellCounts cell = false ∧ c.protected_ cell = false ∧
      tabGet c.cells cell = some { cellNew x.slot x.cfg with ifSeq := x.ifSeq } ∧
      (s.chip.protected_ cell = true → ∃ p, .peer p (s.chip.fld (R.CELL_CTL cell) F.CELL_CTL.SHADOW_CHIP) (.released (Fin.ofNat 1024 cell)) ∈ c.out) ∧
      (∀ j, j ≠ cell → tabGet c.cells j = tabGet s.chip.cells j) ∧ c.strips = s.chip.strips)) ∧
    (tabGet s.chip.cells cell = none ∨ s.chip.cellState cell ≠ cellActive →
      Yields (.stopRequest slot last) s (fun c => s.chip.Hears c slot.val (.errorInd cell (some .invalidState)) ∧ c.cells = s.chip.cells)))

/-- A P7 request that is complete later than the cutoff, or for a slot its frame does not have, gets MSG_SLOT_ERR, and one for a cell that does not run an ERROR.indication; neither changes cells or strips. DL_TTI and UL_TTI take their PDUs in order. A PDSCH is charged 70.4 ns + E/30 ns a block against W × 250 µs of its slot's window, or refused and counted. A PUSCH is charged against W × 150 µs at the most iterations that fit, or decodes nothing, and queues a decode for each block; UCI on it, PUCCH and PRACH queue theirs; PRACH beyond 4 and PUCCH 0, 1 or 4 beyond 128 are refused. Candidates of PDCCH beyond 64 of a slot are refused. TX_Data's blocks are kept and queue their encodes. -/
def Obligations.FapiSlotRequestsAreChargedAndQueued : Prop :=
  (∀ (s : State) (slot : Fin 64) (last : Bool) (frame : Fin 1024) (sl : Nat) (cell : Nat) (t : Int) (x : Cell) (i : Instr) (us : Nat)
      (dl : List DlPdu) (ul : List UlPdu) (n : Nat) (tx : List (Nat × List Byte)), s.chip.live = true → sl < 65536 →
    (i, us) ∈ [(Instr.dlTtiRequest slot last frame sl dl, downCutoff x), (.ulTtiRequest slot last frame sl ul, uplinkCutoff.at_ (x.cfg.mu % 4)),
      (.ulDciRequest slot last frame sl n, downCutoff x), (.txDataRequest slot last frame sl tx, downCutoff x)] →
    s.chip.Asks slot.val cell t →
    let refused := fun (e : FapiError) => Yields i s (fun c => s.chip.Hears c slot.val (.errorInd cell (some e)) ∧ c.cells = s.chip.cells ∧
      c.strips = s.chip.strips)
    (tabGet s.chip.cells cell = none → refused .invalidState) ∧
    (tabGet s.chip.cells cell = some x → x.running = false → refused .invalidState) ∧
    (tabGet s.chip.cells cell = some x → x.running = true →
      slotsPerFrame (x.cfg.mu % 4) ≤ sl ∨ s.chip.airStart x frame.val sl - (usTicks us : Nat) < t → refused .slotErr)) ∧
  (∀ (s : State) (slot : Fin 64) (last : Bool) (frame : Fin 1024) (sl : Nat) (g : Ring) (cell : Nat) (t : Int) (next : Nat) (x : Cell),
    s.chip.live = true → sl < 65536 → s.chip.fapiNext slot.val = some (g, cell, t, next) →
    let b := s.chip.fapiTake g next last
    let start := s.chip.airStart x frame.val sl
    (s.chip.AsksInTime slot.val cell frame.val sl x (downCutoff x) →
      (∀ dl, Becomes (.dlTtiRequest slot last frame sl dl) s (dl.foldl (fun (c : Chip) p => c.dlPdu slot.val cell start frame.val sl p) b)) ∧
      (∀ n, Becomes (.ulDciRequest slot last frame sl n) s (b.dlPdu slot.val cell start frame.val sl (.pdcch n))) ∧
      Becomes (.txDataRequest slot last frame sl []) s b ∧
      (∀ index data w, x.dlWork.find? (fun v => v.index == some index && v.frame == frame.val && v.sl == sl && v.data.isNone) = some w →
        Yields (.txDataRequest slot last frame sl [(index, data)]) s (fun c =>
          tabGet c.cells cell = some { x with dlWork := x.dlWork.map (fun v => if v.id = w.id then { v with data := some data } else v) } ∧
          (c.strip (s.chip.cellHome cell)).queue = (s.chip.strip (s.chip.cellHome cell)).queue ++
            jobsOf .encode cell w.id w.left (start - (usTicks x.txAdv : Nat)) ∧
          c = { s.chip with cells := c.cells, strips := c.strips, rings := c.rings, fapiArrived := c.fapiArrived }))) ∧
    (s.chip.AsksInTime slot.val cell frame.val sl x (uplinkCutoff.at_ (x.cfg.mu % 4)) →
      ∀ ul, Becomes (.ulTtiRequest slot last frame sl ul) s
        (ul.zipIdx.foldl (fun (c : Chip) (p : UlPdu × Nat) => c.ulPdu slot.val cell start frame.val sl (ul.take p.2) p.1) b))) ∧
  (∀ (b : Chip) (slot cell : Nat) (start : Int) (frame sl index pm n : Nat) (blocks : List Nat) (x : Cell), tabGet b.cells cell = some x →
    let w := (windowOf start).toNat
    let used := tabGetD x.encUsed w 0
    let cost := blocks.foldl (fun k e => k + 2112 + e) 0
    let full := used + cost > b.cuOf cell * 937500
    let c := b.dlPdu slot cell start frame sl (.pdsch index blocks pm)
    let d := b.dlPdu slot cell start frame sl (.pdcch n)
    let r := b.cellHome cell
    (full → b.Hears c slot (.errorInd cell (some .slotErr)) ∧ c.cells = b.cells ∧ c.strips = b.strips ∧
      c.fld (R.STRIP_CNT2 r) F.STRIP_CNT2.ENC_REFUSED = min (fmax F.STRIP_CNT2.ENC_REFUSED) (b.fld (R.STRIP_CNT2 r) F.STRIP_CNT2.ENC_REFUSED + 1)) ∧
    (¬ full → windowOf b.tick ≤ (w : Int) → ∃ y, tabGet c.cells cell = some y ∧ tabGetD y.encUsed w 0 = used + cost ∧
      y = { x with encUsed := y.encUsed, dlWork := x.dlWork ++ [⟨x.nextWork, some index, pm, frame, sl, blocks.length, none⟩], nextWork := x.nextWork + 1 } ∧
      (∀ j, j ≠ cell → tabGet c.cells j = tabGet b.cells j) ∧ c = { b with cells := c.cells }) ∧
    (64 < x.candidates frame sl + n → b.Hears d slot (.errorInd cell (some .slotErr)) ∧ d.cells = b.cells ∧ d.strips = b.strips) ∧
    (x.candidates frame sl + n ≤ 64 → 0 < n → tabGet d.cells cell =
        some { x with dlWork := x.dlWork ++ [⟨x.nextWork, none, 0, frame, sl, n, none⟩], nextWork := x.nextWork + 1 } ∧
      (d.strip r).queue = (b.strip r).queue ++ jobsOf .polarEncode cell x.nextWork n (start - (usTicks x.txAdv : Nat)) ∧
      d = { b with cells := d.cells, strips := d.strips })) ∧
  (∀ (b : Chip) (slot cell : Nat) (start : Int) (frame sl : Nat) (before : List UlPdu) (p : Pusch) (x : Cell), tabGet b.cells cell = some x →
    b.protected_ cell = false →
    let highs := p.blocks.zipIdx.map (fun e => min p.ncb (max (if p.newData then 0 else ((x.buf p.ue p.process e.2).map (fun h => h.high)).getD 0) e.1))
    let rows := highs.map (fun e => ldpcRows p.bg2 e p.zc)
    let w := (windowOf start).toNat
    let used := tabGetD x.decUsed w 0
    let most := x.param 0xA000 8
    let r := b.cellHome cell
    let c := b.ulPdu slot cell start frame sl before (.pusch p)
    let jobs := fun (n : Nat) => highs.zipIdx.map (fun e => (⟨.decode, cell, b.resultBy x 2 frame sl p.last.val, x.nextWork, e.2, e.1, p.newData, n⟩ : CodeJob)) ++
      (if p.uciBits = 0 then [] else [⟨.polarDecode, cell, b.resultBy x 3 frame sl p.last.val, x.nextWork + 1, 0, 0, false, 0⟩])
    (∀ i, iterationsFor rows most (b.cuOf cell * 18750 - used) = some i →
      i ≤ most ∧ (i = most ∨ 2 ≤ i) ∧ decodeCost rows i ≤ b.cuOf cell * 18750 - used ∧ (c.strip r).queue = (b.strip r).queue ++ jobs i ∧
      (windowOf b.tick ≤ (w : Int) → (tabGet c.cells cell).map (fun (y : Cell) => tabGetD y.decUsed w 0) = some (used + decodeCost rows i)) ∧
      c.fld (R.STRIP_CNT1 r) F.STRIP_CNT1.ITER_CAP =
        (if i < most then min (fmax F.STRIP_CNT1.ITER_CAP) (b.fld (R.STRIP_CNT1 r) F.STRIP_CNT1.ITER_CAP + 1) else b.fld (R.STRIP_CNT1 r) F.STRIP_CNT1.ITER_CAP)) ∧
    (iterationsFor rows most (b.cuOf cell * 18750 - used) = none →
      (∀ i, 2 ≤ i → i ≤ most → b.cuOf cell * 18750 - used < decodeCost rows i) ∧ (c.strip r).queue = (b.strip r).queue ++ jobs 0 ∧
      (tabGet c.cells cell).map (fun (y : Cell) => y.decUsed) = some x.decUsed ∧
      c.fld (R.STRIP_CNT1 r) F.STRIP_CNT1.TB_UNDECODED =
        min (fmax F.STRIP_CNT1.TB_UNDECODED) (b.fld (R.STRIP_CNT1 r) F.STRIP_CNT1.TB_UNDECODED + 1)) ∧
    (tabGet c.cells cell).map (fun (y : Cell) => (y.work, y.harq)) =
      some (x.work ++ [⟨x.nextWork, 2, p.ue, p.process, frame, sl, p.last.val, p.blocks.length, true, [], none⟩] ++
        (if p.uciBits = 0 then [] else [⟨x.nextWork + 1, 3, p.ue, 0, frame, sl, p.last.val, 1, true, [], none⟩]),
        if p.newData then x.harq.filter (fun h => !(h.ue == p.ue && h.process == p.process && !h.decoding)) else x.harq) ∧
    c = { b with cells := c.cells, strips := c.strips, regs := c.regs }) ∧
  (∀ (b : Chip) (slot cell : Nat) (start : Int) (frame sl : Nat) (before : List UlPdu) (p : UlPdu) (x : Cell), tabGet b.cells cell = some x →
    let c := b.ulPdu slot cell start frame sl before p
    let n := occasions (before ++ [p])
    let r := b.cellHome cell
    let queued := fun (kind ue sym : Nat) (job : JobKind) (high : Nat) =>
      (c.strip r).queue = (b.strip r).queue ++ [⟨job, cell, b.resultBy x kind frame sl sym, x.nextWork, 0, high, false, 0⟩] ∧
      tabGet c.cells cell = some { x with work := x.work ++ [⟨x.nextWork, kind, ue, 0, frame, sl, sym, 1, true, [], none⟩], nextWork := x.nextWork + 1 } ∧
      c = { b with cells := c.cells, strips := c.strips }
    let refused := b.Hears c slot (.errorInd cell (some .slotErr)) ∧ c.cells = b.cells ∧ c.strips = b.strips
    (∀ sym, p = .prach sym → (n.1 ≤ 4 → queued 4 0 sym.val .prach 0) ∧ (4 < n.1 → refused)) ∧
    (∀ ue f k sym, p = .pucch ue f k sym → (f = 2 ∨ f = 3 → queued 3 ue sym.val .polarDecode 0) ∧
      (f ≠ 2 → f ≠ 3 → n.2 ≤ 128 → queued 3 ue sym.val .pucch f) ∧ (f ≠ 2 → f ≠ 3 → 128 < n.2 → refused)) ∧
    (∀ ue sym, p = .srs ue sym → c.strips = b.strips ∧ tabGet c.cells cell =
      some { x with work := x.work ++ [⟨x.nextWork, 5, ue, 0, frame, sl, sym.val, 1, true, [], none⟩], nextWork := x.nextWork + 1 }))

/-- A free engine in service takes the first job of its class by deadline, cell and code block, a decode only while no other holds its buffer; it opens the buffer, reclaiming the least recently written one when the store is full (HARQ_EVICT). A decode writes back as R190 says, from zeros after a read error, and is counted; with the last block CRC.indication leaves, and on a pass RX_Data too, and the buffers are released. Encodes end their PDU with its last block. UCI, RACH (64 preambles at most), PUCCH and SRS send their indication and end their work; format 4 goes on to the polar unit. Interference is written to its ring, SEQ last. An engine that fails gives its job back and is disabled; a watchdog only reports. -/
def Obligations.CodingStripTakesAndEndsJobs : Prop :=
  (∀ (s : State) (ream : Fin 4) (e : Fin 36), s.chip.live = true →
    s.chip.engineOn ream.val e.val = false ∨ (tabGet (s.chip.strip ream.val).engines e.val).isSome = true ∨ s.chip.nextJob ream.val e.val = none →
    Becomes (.codingJobStart ream e) s s.chip) ∧
  (∀ (b : Chip) (ream e : Nat) (j : CodeJob), b.nextJob ream e = some j →
    let mine := fun (k : CodeJob) => k ∈ (b.strip ream).queue ∧ k.kind.engines = (engineClass e).1 ∧ b.jobReady k = true
    mine j ∧ ∀ k, mine k → jobBefore k j = false) ∧
  (∀ (s : State) (ream : Fin 4) (e : Fin 36) (j : CodeJob), s.chip.live = true → s.chip.engineOn ream.val e.val = true →
    tabGet (s.chip.strip ream.val).engines e.val = none → s.chip.nextJob ream.val e.val = some j →
    let q := s.chip.strip ream.val
    (j.kind ≠ .decode ∨ s.chip.ulWork j = none → Yields (.codingJobStart ream e) s (fun c =>
      c.strip ream.val = ⟨tabPut q.engines e.val j, q.queue.erase j⟩ ∧ c = { s.chip with strips := c.strips })) ∧
    (∀ x w, j.kind = .decode → s.chip.ulWork j = some (x, w) → Yields (.codingJobStart ream e) s (fun c =>
      c.strip ream.val = ⟨tabPut q.engines e.val j, q.queue.erase j⟩ ∧
      (∃ y h, tabGet c.cells j.cell = some y ∧ y.buf w.ue w.process j.block = some h ∧ h.decoding = true ∧
        (j.newData = true ∨ x.buf w.ue w.process j.block = none → h.values = []) ∧
        (x.buf w.ue w.process j.block = none → x.harq.length < harqBuffers (s.chip.cuOf j.cell) → y.harq = x.harq ++ [h]) ∧
        (∀ g, x.buf w.ue w.process j.block = none → harqBuffers (s.chip.cuOf j.cell) ≤ x.harq.length → x.oldest = some g →
          y.harq = x.harq.filter (fun a => !a.is g.ue g.process g.block) ++ [h] ∧
          c.fld (R.STRIP_CNT2 ream.val) F.STRIP_CNT2.HARQ_EVICT =
            min (fmax F.STRIP_CNT2.HARQ_EVICT) (s.chip.fld (R.STRIP_CNT2 ream.val) F.STRIP_CNT2.HARQ_EVICT + 1))) ∧
      (∀ k, k ≠ j.cell → tabGet c.cells k = tabGet s.chip.cells k) ∧ c = { s.chip with strips := c.strips, cells := c.cells, regs := c.regs }))) ∧
  (∀ (s : State) (ream : Fin 4) (res : JobResult) (e : Nat) (kind : JobKind), s.chip.live = true → jobFrom res = some (e, kind) →
    (∀ j, tabGet (s.chip.strip ream.val).engines e = some j → j.kind ≠ kind) → Becomes (.codingJobComplete ream res) s s.chip) ∧
  (∀ (s : State) (ream : Fin 4) (e : Fin 16) (j : CodeJob) (llrs : List (Nat × Int)) (readOk passed : Bool) (its : Nat) (data : List Byte) (m : Measures)
      (x : Cell) (w : UlWork) (b : HarqBuf), s.chip.live = true → tabGet (s.chip.strip ream.val).engines e.val = some j → j.kind = .decode →
    its ≤ j.iterations → s.chip.ulWork j = some (x, w) → x.buf w.ue w.process j.block = some b → 1 ≤ w.left →
    let ok := passed && j.iterations != 0
    let r := ream.val
    let up := fun (f : Fld) (ref : RegRef) (c : Chip) => c.fld ref f = min (fmax f) (s.chip.fld ref f + 1)
    Yields (.codingJobComplete ream (.decoded e llrs readOk passed its data m)) s (fun c =>
      tabGet (c.strip r).engines e.val = none ∧ (c.strip r).queue = (s.chip.strip r).queue ∧
      (readOk = false → up F.STRIP_CNT2.HARQ_UE (R.STRIP_CNT2 r) c ∧ c.flag (R.STRIP_ERR r) F.STRIP_ERR.STICKY_UE = true) ∧
      (0 < j.iterations → up F.STRIP_CNT0.CB_DECODED (R.STRIP_CNT0 r) c ∧ (ok = false → up F.STRIP_CNT0.CB_CRC_FAIL (R.STRIP_CNT0 r) c) ∧
        (its < j.iterations → up F.STRIP_CNT1.EARLY_STOP (R.STRIP_CNT1 r) c)) ∧
      (1 < w.left ∨ (w.passed && ok) = false → (tabGet c.cells j.cell).bind (fun (y : Cell) => y.buf w.ue w.process j.block) =
        some (b.combine llrs readOk j.high x.nextOrder)) ∧
      (1 < w.left → (tabGet c.cells j.cell).bind (fun (y : Cell) => y.work.find? (fun v => v.id == w.id)) =
        some { w with left := w.left - 1, passed := w.passed && ok, data := tabPut w.data j.block data }) ∧
      (w.left = 1 → (w.passed && ok) = false → s.chip.Hears c x.slot (.crcInd j.cell w.frame w.sl w.ue w.process false m) ∧
        (tabGet c.cells j.cell).map (fun (y : Cell) => y.work) = some (x.work.filter (fun v => v.id != w.id))) ∧
      (w.left = 1 → (w.passed && ok) = true → (tabGet c.cells j.cell).map (fun (y : Cell) => (y.work, y.harq.any (fun h => h.ue == w.ue && h.process == w.process))) =
          some (x.work.filter (fun v => v.id != w.id), false) ∧
        (∀ g, s.chip.ring x.slot 5 0 = some g → ∃ d, ∀ k ∈ [FapiMsg.crcInd j.cell w.frame w.sl w.ue w.process true m, .rxData j.cell w.frame w.sl w.ue w.process d],
          (.fapi x.slot k) ∈ c.out ∨ k ∈ tabGetD c.fapiHeld x.slot [])) ∧
      (∀ k, k ≠ j.cell → tabGet c.cells k = tabGet s.chip.cells k) ∧ c.streams = s.chip.streams ∧ c.contexts = s.chip.contexts ∧ c.commands = s.chip.commands)) ∧
  (∀ (b : HarqBuf) (llrs : List (Nat × Int)) (readOk : Bool) (high order p : Nat) (l : Int), llrs.Pairwise (fun u v => u.1 ≠ v.1) → (p, l) ∈ llrs →
    (b.values.map (fun v => v.1)).Nodup →
    tabGetD (b.combine llrs readOk high order).values p 0 =
      max (-15) (min 15 (rneEighth (max (-127) (min 127 (8 * (if readOk then tabGetD b.values p 0 else 0) + l)))))) ∧
  (∀ (s : State) (ream : Fin 4) (j : CodeJob) (x : Cell) (w : DlWork) (res : JobResult) (e : Nat), s.chip.live = true →
    (res, e, j.kind) ∈ (List.finRange 12).map (fun n => (JobResult.encoded n, 16 + n.val, JobKind.encode)) ++
      (List.finRange 4).map (fun n => (JobResult.polarEncoded n, 28 + n.val, JobKind.polarEncode)) →
    tabGet (s.chip.strip ream.val).engines e = some j → tabGet s.chip.cells j.cell = some x → x.dlWork.find? (fun v => v.id == j.work) = some w →
    Yields (.codingJobComplete ream res) s (fun c => c.strip ream.val = ⟨tabDel (s.chip.strip ream.val).engines e, (s.chip.strip ream.val).queue⟩ ∧
      (let less := if 1 < w.left then x.dlWork.map (fun v => if v.id = w.id then { v with left := v.left - 1 } else v) else x.dlWork.filter (fun v => v.id != w.id)
       tabGet c.cells j.cell = some { x with dlWork := less }) ∧
      (1 < w.left ∨ s.chip.tick ≤ s.chip.airStart x w.frame w.sl - (usTicks x.txAdv : Nat) → c = { s.chip with strips := c.strips, cells := c.cells, regs := c.regs }) ∧
      (w.left ≤ 1 → s.chip.airStart x w.frame w.sl - (usTicks x.txAdv : Nat) < s.chip.tick → s.chip.missRing.length < 64 →
        c.missRing.length = s.chip.missRing.length + 1))) ∧
  (∀ (s : State) (ream : Fin 4) (e : Fin 4) (j : CodeJob) (x : Cell) (w : UlWork), s.chip.live = true → s.chip.ulWork j = some (x, w) →
    let q := s.chip.strip ream.val
    let ends := fun (res : JobResult) (n : Nat) (m : FapiMsg) => tabGet q.engines n = some j → Yields (.codingJobComplete ream res) s (fun c =>
      s.chip.Hears c x.slot m ∧ c.strip ream.val = ⟨tabDel q.engines n, q.queue⟩ ∧ tabGet c.cells j.cell = some { x with work := x.work.filter (fun v => v.id != w.id) } ∧
      (∀ k, k ≠ j.cell → tabGet c.cells k = tabGet s.chip.cells k))
    (∀ ok payload m, j.kind = .polarDecode → ends (.uci e ok payload m) (28 + e.val) (.uciInd j.cell w.frame w.sl w.ue ok false payload 0 m)) ∧
    (∀ found, j.kind = .prach → ends (.prach e found) (32 + e.val) (.rachInd j.cell w.frame w.sl (preambles found)) ∧ (preambles found).length ≤ 64) ∧
    (∀ dtx payload k m, j.kind = .pucch → j.high ≠ 4 →
      ends (.pucch e dtx payload k m) (32 + e.val) (.uciInd j.cell w.frame w.sl w.ue true dtx payload k.val m)) ∧
    (∀ dtx payload k m, j.kind = .pucch → j.high = 4 → tabGet q.engines (32 + e.val) = some j → Yields (.codingJobComplete ream (.pucch e dtx payload k m)) s (fun c =>
      c.strip ream.val = ⟨tabDel q.engines (32 + e.val), q.queue ++ [{ j with kind := .polarDecode, high := 0 }]⟩ ∧ c = { s.chip with strips := c.strips }))) ∧
  (∀ (s : State) (ream : Fin 4) (cell : Fin 1024) (snr : List Int) (x : Cell) (w : UlWork), s.chip.live = true → tabGet s.chip.cells cell.val = some x →
    x.work.find? (fun v => v.kind == 5) = some w → Yields (.codingJobComplete ream (.srs cell snr)) s (fun c =>
      s.chip.Hears c x.slot (.srsInd cell.val w.frame w.sl w.ue snr) ∧ tabGet c.cells cell.val = some { x with work := x.work.filter (fun v => v.id != w.id) })) ∧
  (∀ (s : State) (ream : Fin 4) (cell : Fin 1024) (values : List Int) (x : Cell), s.chip.live = true → tabGet s.chip.cells cell.val = some x → x.running = true →
    x.param 0xA007 0 ≠ 0 →
    let seq := if x.ifSeq + 1 = 2 ^ 32 then 1 else x.ifSeq + 1
    let place := x.param 0xA007 0 + roundUp (8 + 2 * x.cfg.prbs) 64 * (seq % 16)
    let u := s.chip.lastUplink x
    let body := bytesLE 2 u.1 ++ bytesLE 1 u.2 ++ bytesLE 1 0 ++ (values.take x.cfg.prbs).flatMap (fun v => bytesLE 2 (unsign 16 v))
    let d := if s.chip.check x.slot place (roundUp (8 + 2 * x.cfg.prbs) 64) true = .ok then
      (s.chip.twrite x.slot (place + 4) body).twrite x.slot place (bytesLE 4 seq) else s.chip
    Yields (.codingJobComplete ream (.interference cell values)) s (fun c => tabGet c.cells cell.val = some { x with ifSeq := seq } ∧ c = { d with cells := c.cells })) ∧
  (∀ (s : State) (ream : Fin 4) (e : Fin 36), s.chip.live = true →
    (s.chip.engineOn ream.val e.val = false → Becomes (.stripEngineError ream e) s s.chip) ∧
    (s.chip.engineOn ream.val e.val = true → Yields (.stripEngineError ream e) s (fun c => c.engineOn ream.val e.val = false ∧
      (∀ k < 36, k ≠ e.val → c.engineOn ream.val k = s.chip.engineOn ream.val k) ∧ tabGet (c.strip ream.val).engines e.val = none ∧
      (∀ j, tabGet (s.chip.strip ream.val).engines e.val = some j → (c.strip ream.val).queue = (s.chip.strip ream.val).queue ++ [j]) ∧
      c.flag (R.STRIP_ERR ream.val) F.STRIP_ERR.STICKY_UE = true ∧ c.fld (R.STRIP_ERR ream.val) F.STRIP_ERR.LAST_ENGINE = e.val ∧
      c.capacityLost = some s.chip.tick ∧ SameStore s.chip c)) ∧
    (tabGet (s.chip.strip ream.val).engines e.val = none → Becomes (.stripEngineWatchdog ream e) s s.chip) ∧
    ((tabGet (s.chip.strip ream.val).engines e.val).isSome = true → Yields (.stripEngineWatchdog ream e) s (fun c =>
      c.fld (R.STRIP_ERR ream.val) F.STRIP_ERR.LAST_ENGINE = e.val ∧ c.fld (R.STRIP_ERR ream.val) F.STRIP_ERR.LAST_CAUSE = 3 ∧ c = { s.chip with regs := c.regs })))

/-- A ream's capacity is the smallest figure of its resources; a carrier outside the bandwidths of R169 has no weight; a cell is admitted on a candidate ream on which the load fits, which its CELL_STAT and streams then name, and no other cell's state changes. The next cell to shed is first in the order of R212: standby first, then rising rank. A shed standby cell goes down, an active one with a live shadow is handed over, another stops at its next slot boundary; the slices of its slot hear SHED. CAPACITY_RECOMPUTE leaves reams that fit as they are. COOLING_SHED sheds once a THERM_STEP, and below 100 °C ends the fault. CELL_BOUNDARY_STOP waits for its instant, then takes the cell out of service; a reloaded pool gives its ream capacity again. -/
def Obligations.CellsAreWeighedAdmittedAndShed : Prop :=
  (∀ (b : Chip) (ream : Nat) (em : Bool), (∀ n ∈ b.capRows ream em, (smallest (b.capRows ream em)).1 ≤ n) ∧
    (b.capRows ream em)[(smallest (b.capRows ream em)).2]? = some (smallest (b.capRows ream em)).1) ∧
  (∀ x : CellConfig, (x.mhz < 5 ∨ 400 < x.mhz ∨ (x.mu = 0 ∧ 50 < x.mhz) ∨ (x.mu = 1 ∧ 100 < x.mhz) ∨ (x.mu = 3 ∧ x.mhz < 50) → cellWeight x = none) ∧
    (weightRow x = none → cellWeight x = none)) ∧
  (∀ (x : CellConfig) (k : WeightRow), weightRow x = some k → bandwidthOk x = true →
    (10 * uplinkShare x.pattern ≤ 6 * x.pattern.length → cellWeight x = some k.weight) ∧
    (6 * x.pattern.length < 10 * uplinkShare x.pattern → uplinkShare x.pattern ≤ x.pattern.length → cellWeight x = some ((5 * k.weight + 3) / 4)) ∧
    (x.pattern.length < uplinkShare x.pattern → 6 * x.pattern.length < 10 * uplinkShare x.pattern → cellWeight x = none) ∧
    k ∈ weightRows ∧ x.mhz ≤ k.mhz) ∧
  (∀ (b d : Chip) (i w : Nat) (x : Cell), i < 1024 → w < 64 → b.admitCell i w cellActive = some d → tabGet b.cells i = some x →
    ∃ r ∈ b.candidates i, r < 4 → (b.placeCell i w cellActive r).loadFits r = true ∧ d.cellState i = cellActive ∧ d.cuOf i = w ∧ d.cellHome i = r ∧
      (∀ j < 1024, j ≠ i → d.cellState j = b.cellState j ∧ d.cuOf j = b.cuOf j) ∧ d.cells = b.cells ∧
      (∀ n ∈ x.cfg.streams, d.fld (R.STRM_GRID n.val) F.STRM_GRID.REAM = r)) ∧
  (∀ (b : Chip) (ream i : Nat), b.shedNext ream = some i → i ∈ b.sheddable ream ∧ (∀ k ∈ b.sheddable ream, b.shedBefore k i = false) ∧
    (b.cellState i = cellActive → ∀ k ∈ b.sheddable ream, b.cellState k ≠ cellStandby)) ∧
  (∀ (b : Chip) (i : Nat) (x : Cell), i < 1024 → tabGet b.cells i = some x → x.stop = none →
    (b.cellState i = cellStandby → (b.shedCell i).cellState i = cellDown ∧ tabGet (b.shedCell i).cells i = none) ∧
    (b.cellState i = cellActive → b.protected_ i = true → (b.shedCell i).cellState i = cellHanding ∧
      (tabGet (b.shedCell i).cells i).map (fun (y : Cell) => y.boundary) = some (some (boundaryAfter b.tick))) ∧
    (b.cellState i = cellActive → b.protected_ i = false →
      tabGet (b.shedCell i).cells i = some { x with stop := some (nextSlot (x.cfg.mu % 4) b.tick, stopShed) }) ∧
    (∀ j : Fin 1024, b.sliceOn j.val = true → b.sliceSlot j.val = x.slot →
      let q := tabGetD b.mbxQueue (mbxKey (.slice j) 0) []
      tabGetD (b.shedCell i).mbxQueue (mbxKey (.slice j) 0) [] = if 16 ≤ q.length then q else q ++ [BitVec.ofNat 32 (2 * 2 ^ 28 + i * 2 ^ 18)]) ∧
    (∀ j, j ≠ i → tabGet (b.shedCell i).cells j = tabGet b.cells j)) ∧
  (∀ s : State, s.chip.live = true →
    Becomes .capacityRecompute s (s.chip.reamList.foldl (fun c r => c.recompute r) s.chip) ∧
    ((∀ r ∈ s.chip.reamList, (∀ q < 8, s.chip.quireIn (r * 8 + q) = true) ∧ s.chip.emergency r = false ∧
        s.chip.stayingLoad r ≤ (smallest (s.chip.capRows r false)).1) → Becomes .capacityRecompute s s.chip)) ∧
  (∀ (b : Chip) (r : Nat), r < 4 → (∀ q < 8, b.quireIn (r * 8 + q) = true) →
    let c := b.recompute r
    (b.emergency r = true → b.stayingLoad r ≤ (smallest (b.capRows r false)).1 → c.emergency r = false ∧ c.cells = b.cells) ∧
    ((smallest (b.capRows r false)).1 < b.stayingLoad r → (c.emergency r = true ∨ c.fitsNormal r = true) ∧
      (b.emergency r = true → b.stayingLoad r ≤ (smallest (b.capRows r true)).1 → c = b))) ∧
  (∀ s : State, s.chip.live = true →
    let step := s.chip.fld R.RADIO_CFG F.RADIO_CFG.THERM_STEP * 10 ^ 7
    (s.chip.power.cooling = false → Becomes .coolingShed s s.chip) ∧
    (s.chip.power.cooling = true → s.chip.power.junction < 100 →
      Becomes .coolingShed s { s.chip with power := { s.chip.power with cooling := false } }) ∧
    (s.chip.power.cooling = true → 100 ≤ s.chip.power.junction → s.chip.time.uptime < s.chip.power.lastShed + step → Becomes .coolingShed s s.chip) ∧
    (s.chip.power.cooling = true → 100 ≤ s.chip.power.junction → s.chip.power.lastShed + step ≤ s.chip.time.uptime →
      let b : Chip := { s.chip with power := { s.chip.power with lastShed := s.chip.time.uptime } }
      ((∀ r ∈ b.reamList, b.shedNext r = none) → Becomes .coolingShed s b) ∧
      ((∃ r ∈ b.reamList, b.shedNext r ≠ none) → ∃ r ∈ b.reamList, ∃ i, b.shedNext r = some i ∧ Becomes .coolingShed s (b.shedCell i)))) ∧
  (∀ (s : State) (cell : Fin 1024), s.chip.live = true →
    ((tabGet s.chip.cells cell.val).bind (fun (x : Cell) => x.stop) = none → Becomes (.cellBoundaryStop cell) s s.chip) ∧
    (∀ x t why, tabGet s.chip.cells cell.val = some x → x.stop = some (t, why) →
      (s.chip.tick < t → Becomes (.cellBoundaryStop cell) s s.chip) ∧
      (t ≤ s.chip.tick → Yields (.cellBoundaryStop cell) s (fun c =>
        tabGet c.cells cell.val = some { cellNew x.slot x.cfg with ifSeq := x.ifSeq } ∧
        c.cellState cell.val = (if why = stopShed then cellShed else cellDown) ∧ c.cellCounts cell.val = false ∧ c.protected_ cell.val = false ∧
        c.flag (R.CELL_CTL cell.val) F.CELL_CTL.RELEASE = false ∧ (why ≠ stopRelease → s.chip.Hears c x.slot (.stopInd cell.val)) ∧
        (why = stopShed → ∀ u k, c.command u = some k → k.cell = some cell.val → k.ending.isSome = true) ∧
        (why = stopRelease → c.commands = s.chip.commands ∧ c.out = s.chip.out) ∧
        (∀ j, j ≠ cell.val → tabGet c.cells j = tabGet s.chip.cells j))))) ∧
  (∀ (s : State) (ream : Fin 4), s.chip.live = true →
    Becomes (.radioPoolReloadComplete ream) s { s.chip with poolReload := s.chip.poolReload.filter (· != ream.val) })

/-- A FLOOR_CFG write with matching words that R204 accepts is stored; a value out of range, no multiple of 8, or a region too small for the ream's load keeps the old value and sets CFG_REFUSED; words that do not match keep it too and raise INTEGRITY. CLASS0_TASK_PLACE does nothing where no ready task lacks a sheet on the way. Otherwise the best source of the ream gives one: an idle sheet starts the task, it leaves the ready list, and joined groups on the sheet's quire are killed (R106); a sheet that a kill is freeing is marked as on its way; a sheet of another class is killed for it, and a joined group whole, counted in GUST_CNT. No other sheet of the ream comes earlier in the order. -/
def Obligations.FloorsAreSetAndClassZeroTakesSheets : Prop :=
  (∀ (s : State) (r : Requester) (ream : Fin 4) (v : W64), s.chip.live = true → s.chip.reaches r = true → mayReachBar0 r = true → s.chip.early r = false →
    let old := s.chip.reg (R.FLOOR_CFG ream.val)
    let f := fget v F.FLOOR_CFG.FLOOR_SHEETS
    let m := fget v F.FLOOR_CFG.RADIO_POOL_MIB
    let ok := regFits .FLOOR_CFG v = true ∧ f % 8 = 0 ∧ f ≤ 256 ∧ (s.chip.emergency ream.val = true ∨ s.chip.reamLoad ream.val ≤ (m - 1) * 1024 / 6)
    (ok → Yields (.floorCfgWrite r ream v (~~~ v)) s (fun c => c.reg (R.FLOOR_CFG ream.val) = regWrite .FLOOR_CFG old v ∧
      c.cells = s.chip.cells ∧ c.streams = s.chip.streams ∧ SameStore s.chip c)) ∧
    (¬ ok → Yields (.floorCfgWrite r ream v (~~~ v)) s (fun c => c.reg (R.FLOOR_CFG ream.val) = old ∧
      c.flag (R.ACQ_STAT ream.val) F.ACQ_STAT.CFG_REFUSED = true ∧ c.sheets = s.chip.sheets ∧ c.contexts = s.chip.contexts ∧ SameStore s.chip c)) ∧
    (∀ k, k ≠ ~~~ v → Yields (.floorCfgWrite r ream v k) s (fun c => c.reg (R.FLOOR_CFG ream.val) = old ∧
      tabGetD c.health.counts 9 0 = tabGetD s.chip.health.counts 9 0 + 1 ∧ c.sheets = s.chip.sheets ∧ SameStore s.chip c))) ∧
  (∀ (s : State) (ream : Fin 4), s.chip.live = true →
    let r := ream.val
    let ready := (s.chip.radioAt r).filter s.chip.runnable
    let coming := (s.chip.sheets.filter (fun x => keyQuire x.1 / 8 == r && x.2.acquired.isSome)).length
    (ready.length ≤ coming ∨ s.chip.nextRadio r = none ∨ s.chip.radioSource r = none → Becomes (.class0TaskPlace ream) s s.chip) ∧
    (∀ t m k p, coming < ready.length → s.chip.nextRadio r = some t → s.chip.command t.cmd = some m → s.chip.radioSource r = some (k, p) →
      (p.headD 0 ≤ 1 → s.chip.joinedOn (keyQuire k) = [] → Yields (.class0TaskPlace ream) s (fun c => (c.sheetK k).task = some { t with logical := (s.chip.keyLogical k).getD 0 } ∧
        t ∉ c.radioAt r ∧ (∀ j, j ≠ k → tabGet c.sheets j = tabGet s.chip.sheets j) ∧
        c = { s.chip with sheets := c.sheets, radioReady := c.radioReady, radioFirst := c.radioFirst, regs := c.regs })) ∧
      (p.headD 0 ≤ 1 → s.chip.joinedOn (keyQuire k) ≠ [] → Yields (.class0TaskPlace ream) s (fun c => (c.sheetK k).task = some { t with logical := (s.chip.keyLogical k).getD 0 } ∧
        t ∉ c.radioAt r ∧ (∀ j ∈ s.chip.joinedOn (keyQuire k), (c.sheetK j).task = none ∧ (c.sheetK j).killing = true) ∧
        c.fld (R.GUST_CNT r) F.GUST_CNT.KILLS =
          min (fmax F.GUST_CNT.KILLS) (s.chip.fld (R.GUST_CNT r) F.GUST_CNT.KILLS + (s.chip.joinedOn (keyQuire k)).length))) ∧
      (p.headD 0 = 2 → Yields (.class0TaskPlace ream) s (fun c => (c.sheetK k).acquired = some s.chip.time.uptime ∧
        (∀ j, j ≠ k → tabGet c.sheets j = tabGet s.chip.sheets j) ∧ c = { s.chip with sheets := c.sheets })) ∧
      (p.headD 0 = 3 → Yields (.class0TaskPlace ream) s (fun c => (c.sheetK k).acquired = some s.chip.time.uptime ∧ (c.sheetK k).killing = true ∧
        (∀ j, j ≠ k → tabGet c.sheets j = tabGet s.chip.sheets j) ∧
        c.fld (R.GUST_CNT r) F.GUST_CNT.KILLS = min (fmax F.GUST_CNT.KILLS) (s.chip.fld (R.GUST_CNT r) F.GUST_CNT.KILLS + 1))) ∧
      (p.headD 0 = 4 → ∀ u, (s.chip.sheetK k).task = some u → Yields (.class0TaskPlace ream) s (fun c => (c.sheetK k).acquired = some s.chip.time.uptime ∧
        (∀ j ∈ s.chip.groupKeys u.cmd (u.index / 64), (c.sheetK j).killing = true) ∧
        c.fld (R.GUST_CNT r) F.GUST_CNT.KILLS =
          min (fmax F.GUST_CNT.KILLS) (s.chip.fld (R.GUST_CNT r) F.GUST_CNT.KILLS + (s.chip.groupKeys u.cmd (u.index / 64)).length))))) ∧
  (∀ (b : Chip) (r k : Nat) (p : List Nat), b.radioSource r = some (k, p) → b.sourceRank k = some p ∧
    ∀ i < 8, ∀ j ∈ quireKeys (r * 8 + i), ∀ o, b.sourceRank j = some o → listLt o p = false) ∧
  (∀ (b : Chip) (k l : Nat), b.keyLogical k = some l → b.quireUp (keyQuire k) = true → (b.sheetK (keyPrimary k)).retireAsked = false →
    ((b.sheetK k).task = none → (b.sheetK k).killing = false →
      b.sourceRank k = some [if b.inFloor (keyQuire k) l then 0 else 1, keyQuire k, k]) ∧
    ((b.sheetK k).task = none → (b.sheetK k).killing = true → (b.sheetK k).acquired = none → b.sourceRank k = some [2, keyQuire k, k]) ∧
    (∀ t, (b.sheetK k).task = some t → t.cls = 0 ∨ (b.sheetK k).commitSlot = true → b.sourceRank k = none) ∧
    (∀ t m, (b.sheetK k).task = some t → t.cls ≠ 0 → (b.sheetK k).commitSlot = false → b.command t.cmd = some m →
      b.sourceRank k = some (if m.desc.mode = 2 then [4, keyQuire k, k] else [3, 3 - t.cls, b.time.uptime - (b.sheetK k).started, keyQuire k, k])))

/-- A standby request for a cell that the chip does not serve is admitted on a radio slot in range with radio time valid, and answered; otherwise it is refused and nothing is disturbed. The home repeats its request 10 s after the last. A protected cell's mirror set of its last slot goes out within MIRROR_KIB per CU of weight per window, code blocks beyond it as lost markers, counted; the shadow applies a whole set and acknowledges it. A heartbeat goes out every HB_PERIOD on each port of HB_PATHS that is up to each shadow chip; a received one is answered with the epochs held here, and a served cell held at a higher epoch stops at its next frame boundary. A refusal sets SHADOW_LOST. A1 does none of this. -/
def Obligations.CellsStandByAndAreMirrored : Prop :=
  (∀ (s : State) (src : W16) (cell : Fin 1024) (slot : Fin 64) (cfg : CellConfig), s.chip.live = true →
    let n := src.toNat
    let answer := fun (c : Chip) (ok : Bool) => c.out.head? = some (.peer ((s.chip.routePort n).getD 6) n (.standbyAnswer cell ok))
    ((tabGet s.chip.cells cell.val).bind (fun (x : Cell) => x.peer) = some n → s.chip.cellState cell.val = cellStandby →
      Yields (.standbyRequest src cell slot cfg) s (fun c => answer c true ∧ c = { s.chip with out := c.out })) ∧
    ((tabGet s.chip.cells cell.val).bind (fun (x : Cell) => x.peer) ≠ some n → s.chip.cellCounts cell.val = true →
      Yields (.standbyRequest src cell slot cfg) s (fun c => answer c false ∧ c = { s.chip with out := c.out })) ∧
    (s.chip.cellCounts cell.val = false → s.chip.standby n cell.val slot.val cfg = none →
      Yields (.standbyRequest src cell slot cfg) s (fun c => answer c false ∧ c = { s.chip with out := c.out })) ∧
    (∀ d, s.chip.cellCounts cell.val = false → s.chip.standby n cell.val slot.val cfg = some d → Yields (.standbyRequest src cell slot cfg) s (fun c =>
      answer c true ∧ c.cellState cell.val = cellStandby ∧ tabGet c.cells cell.val = some { cellNew slot.val cfg with peer := some n } ∧
      s.chip.shadowing = true ∧ s.chip.rtValid = true ∧ s.chip.slotKind slot.val = 1 ∧ inRange cell.val (s.chip.cellRange slot.val) = true ∧
      (∀ j, j ≠ cell.val → tabGet c.cells j = tabGet s.chip.cells j) ∧
      c = { s.chip with cells := c.cells, regs := c.regs, peers := c.peers, out := c.out, log := c.log, freeCtr := c.freeCtr, damaged := c.damaged }))) ∧
  (∀ (s : State) (cell : Fin 1024) (x : Cell), s.chip.live = true → tabGet s.chip.cells cell.val = some x →
    let k := R.CELL_CTL cell.val
    (s.chip.time.uptime < x.retryAt → Becomes (.standbyRetry cell) s s.chip) ∧
    (x.retryAt ≤ s.chip.time.uptime → s.chip.shadowing = true → s.chip.flag k F.CELL_CTL.SHADOW_EN = true → s.chip.cellState cell.val = cellActive →
      s.chip.protected_ cell.val = false → Yields (.standbyRetry cell) s (fun c =>
        c.out.head? = some (.standbyRequest (s.chip.fld k F.CELL_CTL.SHADOW_CHIP) cell.val (s.chip.fld k F.CELL_CTL.SHADOW_SLOT) x.cfg) ∧
        tabGet c.cells cell.val = some { x with retryAt := s.chip.time.uptime + 10 * nsPerSec } ∧ c = { s.chip with cells := c.cells, out := c.out })) ∧
    (s.chip.shadowing = false ∨ s.chip.flag k F.CELL_CTL.SHADOW_EN = false ∨ s.chip.cellState cell.val ≠ cellActive ∨ s.chip.protected_ cell.val = true →
      Becomes (.standbyRetry cell) s s.chip)) ∧
  (∀ (s : State) (cell : Fin 1024) (x : Cell), s.chip.live = true → tabGet s.chip.cells cell.val = some x →
    let w := (windowOf s.chip.tick).toNat
    let used := if x.mirrorUsed.1 = w then x.mirrorUsed.2 else 0
    let fit := mirrorFit x.toMirror used (s.chip.fld R.RADIO_CFG F.RADIO_CFG.MIRROR_KIB * 1024 * s.chip.cuOf cell.val / 8)
    let at_ := s.chip.slotBefore x
    (s.chip.protected_ cell.val = true → s.chip.cellState cell.val ∈ [cellActive, cellHanding] → Yields (.mirrorRecordSend cell) s (fun c =>
      c.out.head? = some (.mirrorSet (s.chip.fld (R.CELL_CTL cell.val) F.CELL_CTL.SHADOW_CHIP) cell.val at_.1 at_.2 fit.1) ∧
      tabGet c.cells cell.val = some { x with toMirror := [], mirrorUsed := (w, fit.2.1) } ∧
      c.fld R.SHADOW_STAT F.SHADOW_STAT.MIRROR_TRUNC = min (fmax F.SHADOW_STAT.MIRROR_TRUNC) (s.chip.fld R.SHADOW_STAT F.SHADOW_STAT.MIRROR_TRUNC + fit.2.2) ∧
      c = { s.chip with cells := c.cells, regs := c.regs, out := c.out })) ∧
    (s.chip.protected_ cell.val = false ∨ s.chip.cellState cell.val ∉ [cellActive, cellHanding] → Becomes (.mirrorRecordSend cell) s s.chip)) ∧
  (∀ (l : List MirrorItem) (used limit : Nat), used ≤ limit → (mirrorFit l used limit).2.1 ≤ limit ∧ (mirrorFit l used limit).1.length = l.length ∧
    (mirrorFit l used limit).2.2 = (l.filter (fun m => match m with | .lost .. => false | _ => true)).length -
      ((mirrorFit l used limit).1.filter (fun m => match m with | .lost .. => false | _ => true)).length) ∧
  (∀ (s : State) (src : W16) (cell : Fin 1024) (frame : Fin 1024) (sl : Nat) (items : List MirrorItem) (x : Cell), s.chip.live = true → sl < 65536 →
    tabGet s.chip.cells cell.val = some x →
    (x.peer = some src.toNat → s.chip.cellState cell.val ∈ [cellStandby, cellTaking] → Yields (.mirrorRecordReceive src cell frame sl items) s (fun c =>
      tabGet c.cells cell.val = some { items.foldl Cell.applyMirror x with mirrored := some (frame.val, sl) } ∧
      c.out.head? = some (.peer ((s.chip.routePort src.toNat).getD 6) src.toNat (.mirrored cell frame sl)) ∧ c = { s.chip with cells := c.cells, out := c.out })) ∧
    (x.peer ≠ some src.toNat ∨ s.chip.cellState cell.val ∉ [cellStandby, cellTaking] → Becomes (.mirrorRecordReceive src cell frame sl items) s s.chip)) ∧
  (∀ s : State, s.chip.live = true →
    let due := s.chip.lastHeartbeat + s.chip.fld R.RADIO_CFG F.RADIO_CFG.HB_PERIOD * 1000
    (s.chip.shadowing = false ∨ s.chip.time.uptime < due → Becomes .heartbeatSend s s.chip) ∧
    (s.chip.shadowing = true → due ≤ s.chip.time.uptime → Yields .heartbeatSend s (fun c => c.lastHeartbeat = s.chip.time.uptime ∧
      (∀ d ∈ s.chip.shadowChips, ∀ p < 6, (s.chip.fld R.RADIO_CFG F.RADIO_CFG.HB_PATHS).testBit p = true → s.chip.fabUp p = true →
        .peer p d (.heartbeat (BitVec.ofNat 32 (s.chip.fld R.FAB_STAT F.FAB_STAT.CHIP_INC)) (s.chip.shadowed d)) ∈ c.out) ∧
      c = { s.chip with lastHeartbeat := c.lastHeartbeat, out := c.out }))) ∧
  (∀ (s : State) (port : Fin 6) (src : W16) (msg : PeerMsg), s.chip.live = true → s.chip.shadowing = false → Becomes (.heartbeatReceive port src msg) s s.chip) ∧
  (∀ (s : State) (port : Fin 6) (src : W16) (inc e : W32) (cell : Fin 1024) (x : Cell), s.chip.live = true → s.chip.shadowing = true →
    tabGet s.chip.cells cell.val = some x → x.stop = none →
    let n := src.toNat
    let held := s.chip.cellState cell.val = cellStandby ∧ x.peer = some n
    let served := s.chip.cellState cell.val ∈ [cellActive, cellHanding]
    let stops := { x with stop := some (nextFrame s.chip.tick, stopEpoch) }
    Yields (.heartbeatReceive port src (.heartbeat inc [(cell, e)])) s (fun c => tabGet c.peers n = some ⟨s.chip.time.uptime, false⟩ ∧
      (held → c.epoch cell.val = e.toNat ∧ c.cells = s.chip.cells) ∧
      (served → s.chip.epoch cell.val < e.toNat → tabGet c.cells cell.val = some stops) ∧
      (served → e.toNat ≤ s.chip.epoch cell.val → c.cells = s.chip.cells) ∧
      c.out.head? = some (.peer port.val n (.heartbeatAck [(cell, BitVec.ofNat 32 (c.epoch cell.val))])) ∧
      c = { s.chip with peers := c.peers, cells := c.cells, regs := c.regs, out := c.out }) ∧
    Yields (.heartbeatReceive port src (.heartbeatAck [(cell, e)])) s (fun c => tabGet c.peers n = some ⟨s.chip.time.uptime, false⟩ ∧
      (served → s.chip.epoch cell.val < e.toNat → tabGet c.cells cell.val = some stops) ∧ (served → e.toNat ≤ s.chip.epoch cell.val → c.cells = s.chip.cells) ∧
      c = { s.chip with peers := c.peers, cells := c.cells })) ∧
  (∀ (s : State) (port : Fin 6) (src : W16) (cell : Fin 1024) (frame : Fin 1024) (sl : Nat) (x : Cell), s.chip.live = true → s.chip.shadowing = true →
    tabGet s.chip.cells cell.val = some x →
    let n := src.toNat
    (s.chip.cellState cell.val = cellActive → s.chip.flag (R.CELL_CTL cell.val) F.CELL_CTL.SHADOW_EN = true →
      s.chip.fld (R.CELL_CTL cell.val) F.CELL_CTL.SHADOW_CHIP = n →
      Yields (.heartbeatReceive port src (.standbyAnswer cell true)) s (fun c => c.protected_ cell.val = true ∧
        c.flag (R.CELL_STAT cell.val) F.CELL_STAT.SHADOW_LOST = false ∧ c = { s.chip with peers := c.peers, regs := c.regs }) ∧
      Yields (.heartbeatReceive port src (.standbyAnswer cell false)) s (fun c => c.protected_ cell.val = false ∧
        c.flag (R.CELL_STAT cell.val) F.CELL_STAT.SHADOW_LOST = true ∧ c.cellState cell.val = cellActive ∧ c.flag R.GLB_IRQ_STAT ⟨13, 1⟩ = true)) ∧
    (s.chip.protected_ cell.val = true → s.chip.fld (R.CELL_CTL cell.val) F.CELL_CTL.SHADOW_CHIP = n →
      Yields (.heartbeatReceive port src (.mirrored cell frame sl)) s (fun c => tabGet c.cells cell.val = some { x with mirrored := some (frame.val, sl) } ∧
        c = { s.chip with cells := c.cells })) ∧
    (s.chip.cellState cell.val = cellStandby → x.peer = some n → Yields (.heartbeatReceive port src (.released cell)) s (fun c =>
      c.cellState cell.val = cellDown ∧ tabGet c.cells cell.val = none ∧ c = { s.chip with cells := c.cells, regs := c.regs })))

/-- A peer heard within HB_MISS periods is not lost. One that was not is declared lost once, counted: cells served here that it shadowed keep running with SHADOW_LOST, and cells held for it prepare to take over at the first frame boundary at least 8 ms later. HANDOVER of a protected active cell tells its shadow of that boundary, as does a link down for LINK_HO ms; the message makes a standby cell prepare, with its streams enabled. At the boundary a cell taking over is active at the next epoch, or down without valid radio time; at the home it is down and its L2 gets STOP.indication. RELEASE stops a cell at its next frame boundary. A damaged CELL_CTL is not acted on. -/
def Obligations.CellsAreTakenOverHandedOverAndReleased : Prop :=
  (∀ (s : State) (peer : W16) (events : List ArmedEvent), s.chip.live = true →
    let n := peer.toNat
    let limit := s.chip.fld R.RADIO_CFG F.RADIO_CFG.HB_PERIOD * s.chip.fld R.RADIO_CFG F.RADIO_CFG.HB_MISS * 1000
    (tabGet s.chip.peers n = none → Becomes (.homeLossDetect peer events) s s.chip) ∧
    (∀ p, tabGet s.chip.peers n = some p → p.lost = true ∨ s.chip.time.uptime < p.heard + limit → Becomes (.homeLossDetect peer events) s s.chip) ∧
    (∀ p, tabGet s.chip.peers n = some p → p.lost = false → p.heard + limit ≤ s.chip.time.uptime → Yields (.homeLossDetect peer events) s (fun c =>
      tabGet c.peers n = some { p with lost := true } ∧
      c.fld R.SHADOW_STAT F.SHADOW_STAT.HB_LOSS = min (fmax F.SHADOW_STAT.HB_LOSS) (s.chip.fld R.SHADOW_STAT F.SHADOW_STAT.HB_LOSS + 1) ∧
      (∀ i < 1024, (tabGet s.chip.cells i).isSome = true → s.chip.cellState i = cellActive → s.chip.protected_ i = true →
        s.chip.fld (R.CELL_CTL i) F.CELL_CTL.SHADOW_CHIP = n → c.cellState i = cellActive ∧ c.protected_ i = false ∧
        c.flag (R.CELL_STAT i) F.CELL_STAT.SHADOW_LOST = true) ∧
      (∀ i < 1024, ∀ x, tabGet s.chip.cells i = some x → s.chip.cellState i = cellStandby → x.peer = some n → c.cellState i = cellTaking ∧
        (tabGet c.cells i).map (fun (y : Cell) => (y.slot, y.cfg, y.boundary, y.harq)) = some (x.slot, x.cfg, some (boundaryAfter s.chip.tick), x.harq)) ∧
      c.time = s.chip.time ∧ c.ident = s.chip.ident ∧ c.flash = s.chip.flash ∧ c.contexts = s.chip.contexts ∧ c.commands = s.chip.commands))) ∧
  (∀ t : Int, t + (usTicks 8000 : Nat) ≤ boundaryAfter t ∧ boundaryAfter t < t + (usTicks 8000 : Nat) + (ticksPerFrame : Nat) ∧
    boundaryAfter t % (ticksPerFrame : Nat) = 0) ∧
  (∀ (s : State) (cell : Fin 1024) (x : Cell), s.chip.live = true → tabGet s.chip.cells cell.val = some x →
    let k := R.CELL_CTL cell.val
    let t := boundaryAfter s.chip.tick
    let begun := fun (c : Chip) => c.cellState cell.val = cellHanding ∧ tabGet c.cells cell.val = some { x with boundary := some t } ∧
      c.out.head? = some (.handoverMsg (s.chip.fld k F.CELL_CTL.SHADOW_CHIP) cell.val t) ∧
      c = { s.chip with cells := c.cells, regs := c.regs, out := c.out, log := c.log, freeCtr := c.freeCtr, damaged := c.damaged }
    let may := s.chip.cellState cell.val = cellActive ∧ s.chip.protected_ cell.val = true
    let long := (s.chip.cellPaths x).any (fun p => match tabGet s.chip.linkDownAt (p.1 * 4 + p.2.1) with
      | some t => decide (t + s.chip.fld k F.CELL_CTL.LINK_HO * 1000000 ≤ s.chip.time.uptime)
      | none => false)
    (may → s.chip.cellCtlBad cell.val = false → Yields (.handover cell) s (fun c => begun c ∧ c.flag k F.CELL_CTL.HANDOVER = true)) ∧
    (¬ may ∨ s.chip.cellCtlBad cell.val = true → Becomes (.handover cell) s s.chip) ∧
    (may → s.chip.fld k F.CELL_CTL.LINK_HO ≠ 0 → long = true → Yields (.linkHoExpiry cell) s begun) ∧
    (¬ may ∨ s.chip.fld k F.CELL_CTL.LINK_HO = 0 ∨ long = false → Becomes (.linkHoExpiry cell) s s.chip)) ∧
  (∀ (s : State) (src : W16) (cell : Fin 1024) (t : Int) (events : List ArmedEvent) (x : Cell), s.chip.live = true → tabGet s.chip.cells cell.val = some x →
    (s.chip.cellState cell.val ≠ cellStandby ∨ x.peer ≠ some src.toNat → Becomes (.handoverMessage src cell t events) s s.chip) ∧
    (s.chip.cellState cell.val = cellStandby → x.peer = some src.toNat → Yields (.handoverMessage src cell t events) s (fun c =>
      c.cellState cell.val = cellTaking ∧ tabGet c.cells cell.val = some { x with boundary := some t } ∧
      (∀ n ∈ x.cfg.streams, s.chip.strmTaken n.val (fput (s.chip.reg (R.STRM_CFG n.val)) F.STRM_CFG.ENABLE 1) = false →
        gainGroups (s.chip.reg (R.STRM_CFG n.val)) ≤ 64 → x.cfg.streams = [n] → c.fld (R.STRM_CFG n.val) F.STRM_CFG.ENABLE = 1) ∧
      (∀ j : Fin 1024, s.chip.sliceOn j.val = true → s.chip.sliceSlot j.val = x.slot → ∀ f n, x.mirrored = some (f, n) →
        let q := tabGetD s.chip.mbxQueue (mbxKey (.slice j) 0) []
        tabGetD c.mbxQueue (mbxKey (.slice j) 0) [] =
          if 16 ≤ q.length then q else q ++ [BitVec.ofNat 32 (2 ^ 28 + cell.val * 2 ^ 18 + f % 1024 * 2 ^ 8 + n % 256)]) ∧
      (∀ j, j ≠ cell.val → tabGet c.cells j = tabGet s.chip.cells j) ∧ SameStore s.chip c))) ∧
  (∀ (s : State) (cell : Fin 1024), s.chip.live = true →
    (s.chip.cellCounts cell.val = false ∨ s.chip.cellCtlBad cell.val = true → Becomes (.cellRelease cell) s s.chip) ∧
    (∀ x, tabGet s.chip.cells cell.val = some x → x.stop = none → s.chip.cellCounts cell.val = true → s.chip.cellCtlBad cell.val = false →
      Yields (.cellRelease cell) s (fun c => c.flag (R.CELL_CTL cell.val) F.CELL_CTL.RELEASE = true ∧
        tabGet c.cells cell.val = some { x with stop := some (nextFrame s.chip.tick, stopRelease) } ∧
        (s.chip.protected_ cell.val = true → ∃ p d, c.out.head? = some (.peer p d (.released cell)) ∧
          d = s.chip.fld (R.CELL_CTL cell.val) F.CELL_CTL.SHADOW_CHIP) ∧
        c = { s.chip with cells := c.cells, regs := c.regs, out := c.out, log := c.log, freeCtr := c.freeCtr, damaged := c.damaged }))) ∧
  (∀ (s : State) (cell : Fin 1024) (x : Cell), s.chip.live = true → tabGet s.chip.cells cell.val = some x →
    let i := cell.val
    let took := fun (c : Chip) => c.fld R.SHADOW_STAT F.SHADOW_STAT.TAKEOVERS =
      min (fmax F.SHADOW_STAT.TAKEOVERS) (s.chip.fld R.SHADOW_STAT F.SHADOW_STAT.TAKEOVERS + 1) ∧ c.flag R.GLB_IRQ_STAT ⟨13, 1⟩ = true
    (x.boundary = none → Becomes (.takeoverBoundary cell) s s.chip) ∧
    (∀ t, x.boundary = some t → s.chip.tick < t → Becomes (.takeoverBoundary cell) s s.chip) ∧
    (∀ t, x.boundary = some t → t ≤ s.chip.tick →
      (s.chip.cellState i = cellTaking → s.chip.rtValid = true → Yields (.takeoverBoundary cell) s (fun c => c.cellState i = cellActive ∧
        c.epoch i = (s.chip.epoch i + 1) % 2 ^ 32 ∧ tabGet c.cells i = some { x with running := true, boundary := none, peer := none } ∧ took c ∧
        c = { s.chip with cells := c.cells, regs := c.regs, out := c.out })) ∧
      (s.chip.cellState i = cellTaking → s.chip.rtValid = false → Yields (.takeoverBoundary cell) s (fun c => c.cellState i = cellDown ∧
        tabGet c.cells i = none ∧ c = { s.chip with cells := c.cells, regs := c.regs })) ∧
      (s.chip.cellState i = cellHanding → Yields (.takeoverBoundary cell) s (fun c => c.cellState i = cellDown ∧ took c ∧
        (∀ g, s.chip.ring x.slot 5 0 = some g → (.fapi x.slot (.stopInd i)) ∈ c.out ∨ (.stopInd i) ∈ tabGetD c.fapiHeld x.slot []) ∧
        tabGet c.cells i = some { cellNew x.slot x.cfg with ifSeq := x.ifSeq } ∧ c.flag (R.CELL_CTL i) F.CELL_CTL.HANDOVER = false))))

/-- COMMAND_FETCH does nothing while the queue is empty, stopped or deleted, its slot is not active, or the entry's completion queue holds completions. Otherwise the head moves past the entry; the first failing check of R118 gives the status of a completion that is posted, and a command that passes all is accepted with its token not done. An aborted fetch stops the queue. TASK_PLACE waits for order, barrier and token, then the tasks go in index order to their queues, or wait with their couched context, or are ready for class 0. An idle sheet steals the tail half of the longest queue, and a quire without tasks is moved one. -/
def Obligations.CommandsAreFetchedCheckedAndPlaced : Prop :=
  (∀ (s : State) (slot : Fin 64) (q : Fin 64), s.chip.live = true →
    (s.chip.ring slot.val 0 q.val = none ∨ (∃ g, s.chip.ring slot.val 0 q.val = some g ∧ (g.own = g.soft ∨ g.stopped = true ∨ g.deleting = true ∨
      s.chip.slotState slot.val ≠ 1 ∨ s.chip.cqHolds slot.val (byteField (s.chip.treadN slot.val (g.base + 64 * g.own) 64) 12 1 % 64) = true)) →
      Becomes (.commandFetch slot q) s s.chip) ∧
    (∀ g, s.chip.ring slot.val 0 q.val = some g → g.own ≠ g.soft → g.stopped = false → g.deleting = false → s.chip.slotState slot.val = 1 →
      let t := slot.val
      let bs := s.chip.treadN t (g.base + 64 * g.own) 64
      let cq := byteField bs 12 1 % 64
      let head := (g.own + 1) % g.size
      let b := s.chip.updRing t 0 q.val (fun (r : Ring) => { r with own := head })
      let db := b.treadN t (byteField bs 0 8) 128
      let d := parseDesc db
      let entryOk := byteField bs 0 8 % 128 == 0 && byteField bs 12 1 / 64 == 0 && byteField bs 13 47 == 0
      let seen := b.intake t t (g.radio && b.slotKind t == 1) entryOk d
      let refused := fun (st : Nat) => Yields (.commandFetch slot q) s (fun c => c.commands = s.chip.commands ∧ c.tokens = s.chip.tokens ∧
        (c.ring t 0 q.val).map (fun (r : Ring) => r.own) = some head ∧
        ∃ e : Completion, e.tag = byteField bs 8 4 ∧ e.status = st ∧ e.sq = q.val ∧ e.sqHead = head ∧ c.mem = (b.post t cq e).mem ∧ c.host = (b.post t cq e).host ∧
          c.rings = (b.post t cq e).rings)
      s.chip.cqHolds t cq = false →
      (crcOk bs 60 = false → refused 0x20) ∧
      (crcOk bs 60 = true → b.permitted t (byteField bs 0 8) 128 false = false → refused 0x10) ∧
      (crcOk bs 60 = true → b.permitted t (byteField bs 0 8) 128 false = true → crcOk db 124 = false → refused 0x20) ∧
      (crcOk bs 60 = true → b.permitted t (byteField bs 0 8) 128 false = true → crcOk db 124 = true →
        (seen.1 ≠ 0 → refused seen.1) ∧ (seen.1 = 0 → b.needsLost d = true → refused 0x21) ∧
        (seen.1 = 0 → b.needsLost d = false → Yields (.commandFetch slot q) s (fun c =>
          (∃ k, c.commands = s.chip.commands ++ [k] ∧ k.uid = s.chip.nextCmd ∧ k.slot = t ∧ k.desc = d ∧ k.tensors = seen.2 ∧ k.source = .sq q.val cq (byteField bs 8 4) head ∧
            k.placed = false ∧ k.committed = [] ∧ k.ending = none ∧
            (d.token ≠ 0 → tabGet c.tokens (tokenKey k.tokenTable d.token) = some (d.token, false)) ∧ (d.token = 0 → c.tokens = s.chip.tokens)) ∧
          (c.ring t 0 q.val).map (fun (r : Ring) => r.own) = some head ∧ c.nextCmd = s.chip.nextCmd + 1 ∧
          c.sheets = s.chip.sheets ∧ c.quires = s.chip.quires ∧ c.contexts = s.chip.contexts ∧ SameStore s.chip c))))) ∧
  (∀ (b : Chip) (slot table : Nat) (radio entryOk : Bool) (d : Desc),
    let tab := if d.tensorTab = 0 then [] else (List.range 16).map (fun i => b.treadN slot (d.tensorTab + 32 * i) 32)
    let ts := tab.map parseTensor
    let ins := (ts.take 8).map (fun (t : Tensor) => (t.base, t.length))
    let outs := (ts.drop 8).map (fun (t : Tensor) => (t.base, t.length))
    let checks : List (Bool × Nat) :=
      [(!entryOk || !d.reservedOk || !b.programOk slot d, 0x14), (d.cls == 0 && !radio, 0x10),
       (d.tensorTab != 0 && !b.permitted slot d.tensorTab 512 false, 0x10), (tab.any (fun bs => !crcOk bs 28), 0x20), (tab.any (fun bs => !tensorOk bs), 0x14),
       (ins.any (fun r => r.2 != 0 && !b.permitted slot r.1 r.2 false) || outs.any (fun r => r.2 != 0 && !b.permitted slot r.1 r.2 true), 0x10),
       (outs.any (fun r => r.2 != 0 && b.touchesSealed slot r.1 r.2), 0x11), (overlapBad ins outs, 0x12),
       (d.token != 0 && b.commands.any (fun (k : Command) => k.slot == slot && k.tokenTable == table && k.desc.token != 0 && k.desc.token % 4096 == d.token % 4096), 0x14),
       (decide (d.program < builtinFirst) && decide (b.tierQuota slot 0 < b.couchBytes slot), 0x50), (d.cls == 0 && !b.rtValid, 0x71)]
    (b.intake slot table radio entryOk d).1 = ((checks.find? (fun x => x.1)).map (fun x => x.2)).getD 0 ∧ (b.intake slot table radio entryOk d).2 = ts) ∧
  (∀ (s : State) (slot : Fin 64) (q : Fin 64), s.chip.live = true →
    (s.chip.ring slot.val 0 q.val = none → Becomes (.fetchAbort slot q) s s.chip) ∧
    (∀ g, s.chip.ring slot.val 0 q.val = some g →
      (g.own = g.soft ∨ g.stopped = true → Becomes (.fetchAbort slot q) s s.chip) ∧
      (g.own ≠ g.soft → g.stopped = false → Yields (.fetchAbort slot q) s (fun c => c.ring slot.val 0 q.val = some { g with stopped := true } ∧
        c.flag (R.DB_ERR g.slice) F.DB_ERR.STICKY_BAD = true ∧ c.fld (R.DB_ERR g.slice) F.DB_ERR.LAST_Q = q.val ∧
        c = { s.chip with rings := c.rings, regs := c.regs })))) ∧
  (∀ (s : State) (uid : Nat) (k : Command), s.chip.live = true →
    (s.chip.command uid = none → Becomes (.taskPlace uid) s s.chip) ∧
    (s.chip.command uid = some k → k.placed = true ∨ k.ending.isSome = true ∨ builtinFirst ≤ k.desc.program ∨ s.chip.mayStart k = false →
      Becomes (.taskPlace uid) s s.chip) ∧
    (s.chip.command uid = some k → k.placed = false → k.ending = none → k.desc.program < builtinFirst → s.chip.mayStart k = true →
      let b := s.chip.updCommand uid (fun (m : Command) => { m with placed := true })
      (k.desc.cls = 0 → let r := b.radioReam k
        Becomes (.taskPlace uid) s { b with radioReady := tabPut b.radioReady r (b.radioAt r ++ (List.range k.desc.tasks).map (fun i => taskOf k i 0)) }) ∧
      (k.desc.cls ≠ 0 → ∀ x, (b.keepOnChip (fun y => y.1 == k.desc.ctx)).context k.desc.ctx = some x →
        let d := b.keepOnChip (fun y => y.1 == k.desc.ctx)
        let ts := (List.range k.desc.tasks).map (fun i => taskOf k i ((x.indexOf (Chip.homePos x k i)).getD 0))
        (x.place ≠ .onChip → Becomes (.taskPlace uid) s { d with contexts := tabPut d.contexts k.desc.ctx { x with queued := x.queued ++ ts } }) ∧
        (x.place = .onChip → Yields (.taskPlace uid) s (fun c => (c.command uid).map (fun (m : Command) => m.placed) = some true ∧ c.contexts = d.contexts ∧
          ∃ e : Chip, e.quires = (ts.foldl (fun (c : Chip) t => c.enqueue t) d).quires ∧ e.waiting = (ts.foldl (fun (c : Chip) t => c.enqueue t) d).waiting ∧
            c = ((x.gang.map (fun p => p / 64)).eraseDups).foldl (fun (c : Chip) q => c.assignQuire q) e))))) ∧
  (∀ (b : Chip) (t : Task),
    ((b.queueAt (b.taskPos t)).length < 16 → (b.enqueue t).queueAt (b.taskPos t) = b.queueAt (b.taskPos t) ++ [t] ∧ (b.enqueue t).waiting = b.waiting) ∧
    (16 ≤ (b.queueAt (b.taskPos t)).length → (b.enqueue t).quires = b.quires ∧
      (b.enqueue t).waitingAt (posReam (b.taskPos t)) = b.waitingAt (posReam (b.taskPos t)) ++ [t])) ∧
  (∀ (s : State) (at_ : SheetAt), s.chip.live = true →
    let k := sheetKey at_
    let pos := s.chip.keyPos k
    let r := keyQuire k / 8
    (s.chip.flag (R.SCHED_CFG r) F.SCHED_CFG.STEAL_EN = false ∨ s.chip.freeSheet k = false ∨ s.chip.queueAt pos ≠ [] ∨ s.chip.inFloor (keyQuire k) (pos % 64) = true ∨
      s.chip.ctxAt pos = none → Becomes (.taskSteal at_) s s.chip) ∧
    (∀ n x src, s.chip.flag (R.SCHED_CFG r) F.SCHED_CFG.STEAL_EN = true → s.chip.freeSheet k = true → s.chip.queueAt pos = [] →
      s.chip.inFloor (keyQuire k) (pos % 64) = false → s.chip.ctxAt pos = some (n, x) → s.chip.longest (x.posIn (keyQuire k)) = some src →
      let ts := s.chip.tailHalf (s.chip.queueAt src)
      (ts = [] → Becomes (.taskSteal at_) s s.chip) ∧
      (ts ≠ [] → Yields (.taskSteal at_) s (fun c => c.commands = s.chip.commands ∧ c.contexts = s.chip.contexts ∧
        ∃ d : Chip, d.quires = (s.chip.moveTasks x src pos ts).quires ∧ d.sheets = s.chip.sheets ∧ c = (d.refill r).assign k ∧
          d.fld (R.SCHED_CNT0 r) F.SCHED_CNT0.STEALS = min (fmax F.SCHED_CNT0.STEALS) (s.chip.fld (R.SCHED_CNT0 r) F.SCHED_CNT0.STEALS + 1))))) ∧
  (∀ (b : Chip) (l : List Nat) (p : Nat) (ts : List Task) (x : Context) (src dst : Nat),
    (b.longest l = some p → p ∈ l ∧ ∀ o ∈ l, (b.queueAt o).length ≤ (b.queueAt p).length) ∧
    ((b.tailHalf ts).length = ((ts.filter b.stealable).length + 1) / 2 ∧ b.tailHalf ts <:+ ts.filter b.stealable) ∧
    (src ≠ dst → src / 64 < 32 → dst / 64 < 32 → (b.moveTasks x src dst ts).queueAt src = (b.queueAt src).filter (fun t => !ts.contains t) ∧
      (b.moveTasks x src dst ts).queueAt dst = b.queueAt dst ++ ts.map (fun t => { t with logical := (x.indexOf dst).getD 0 }))) ∧
  (∀ (s : State) (ream : Fin 4), s.chip.live = true →
    (s.chip.flag (R.SCHED_CFG ream.val) F.SCHED_CFG.MOVE_EN = false → Becomes (.loadBalanceCheck ream) s s.chip) ∧
    (s.chip.flag (R.SCHED_CFG ream.val) F.SCHED_CFG.MOVE_EN = true →
      let moved := (s.chip.contexts.filter (fun x => x.2.place == .onChip)).foldl (fun (c : Chip) (x : Nat × Context) =>
        ((((x.2.gang.filter (fun p => posReam p == ream.val)).map (fun p => p / 64)).eraseDups).filter (fun q => c.loadOf x.2 q == 0)).foldl
          (fun (c : Chip) q => c.moveTo ream.val x.2 q) c) s.chip
      Becomes (.loadBalanceCheck ream) s ((moved.refill ream.val).assignReam ream.val))) ∧
  (∀ (b : Chip) (ream : Nat) (x : Context) (q : Nat), (b.loadOf x q ≠ 0 ∨ b.quireUp q = false → b.moveTo ream x q = b) ∧
    (∀ src dst p, b.loadOf x q = 0 → b.quireUp q = true →
      b.mostLoaded x ((((x.gang.filter (fun p => posReam p == ream)).map (fun p => p / 64)).eraseDups).filter (· != q)) = some src →
      (x.posIn q).head? = some dst → b.longest (x.posIn src) = some p → b.tailHalf (b.queueAt p) ≠ [] →
      ∃ d : Chip, d.quires = (b.moveTasks x p dst (b.tailHalf (b.queueAt p))).quires ∧ d.sheets = b.sheets ∧ b.moveTo ream x q = d.assignQuire q ∧
        d.fld (R.SCHED_CNT1 ream) F.SCHED_CNT1.MOVES = min (fmax F.SCHED_CNT1.MOVES) (b.fld (R.SCHED_CNT1 ream) F.SCHED_CNT1.MOVES + 1)))

/-- A passed deadline of a class 1 to 3 command sets LATE, and with ABORT_LATE ends it with 0x60. A command completes when every task has committed and drained and its fabric records, partials, deferred requests and digests are done, or when it has ended and its begun commits have drained: it is gone, its token done, its status posted, at once where its queue has room, else held; a command of a draining slot gets no entry. A joined command waits for the reruns of its groups (log entry 27). A built-in runs only when it may start, and completes with a status: PROGRAM_LOAD and UNLOAD, CONTEXT_CREATE, DESTROY (waiting for the context's commands), EXPORT (couching it out first) and IMPORT, each as R124, R142 and R431 say, and JOB_TEARDOWN from slot 0 or the job's slot. -/
def Obligations.CommandsEndAndBuiltinsRun : Prop :=
  (∀ (s : State) (uid : Nat) (k : Command), s.chip.live = true →
    (s.chip.command uid = none → Becomes (.deadlineExpiry uid) s s.chip) ∧
    (s.chip.command uid = some k → k.desc.cls = 0 ∨ k.desc.deadline = 0 ∨ s.chip.taiNs ≤ k.desc.deadline → Becomes (.deadlineExpiry uid) s s.chip) ∧
    (s.chip.command uid = some k → k.desc.cls ≠ 0 → k.desc.deadline ≠ 0 → k.desc.deadline < s.chip.taiNs →
      (k.desc.flags.testBit 4 = false → Becomes (.deadlineExpiry uid) s (s.chip.updCommand uid (fun (m : Command) => { m with late := true }))) ∧
      (k.desc.flags.testBit 4 = true → k.ending = none → Yields (.deadlineExpiry uid) s (fun c =>
        (c.command uid).map (fun (m : Command) => (m.late, m.ending)) = some (true, some ⟨0x60, 0, 0⟩) ∧
        (∀ j t, (c.sheetK j).task = some t → t.cmd ≠ uid) ∧
        c.contexts.map (fun x => x.1) = s.chip.contexts.map (fun x => x.1) ∧ SameStore s.chip c)))) ∧
  (∀ (s : State) (uid : Nat) (k : Command), s.chip.live = true → s.chip.command uid = some k →
    let digested := !k.desc.flags.testBit 0 || (s.chip.digestSlots k).all (fun i => k.digests.any (fun x => x.1 == i))
    let done := k.committed.length = k.desc.tasks ∧ k.fabricOpen = 0 ∧ k.partials = [] ∧ k.deferred = [] ∧ digested = true
    let gone := fun (c : Chip) => c.commands = s.chip.commands.filter (fun (m : Command) => m.uid != uid)
    let completes := fun (e : CmdEnd) => Yields (.commandComplete uid) s (fun c => gone c ∧
      (k.desc.token ≠ 0 → tabGet c.tokens (tokenKey k.tokenTable k.desc.token) = some (k.desc.token, true)) ∧
      (∀ q cq tag head, k.source = .sq q cq tag head → ∃ (d : Chip) (z : Completion), d.rings = s.chip.rings ∧ d.mem = s.chip.mem ∧ d.host = s.chip.host ∧
        c = d.post k.slot cq z ∧ z.tag = tag ∧ z.token = k.desc.token ∧ z.status = e.status ∧ z.cause = e.cause ∧ z.trapPc = e.pc ∧ z.flags = k.flags ∧
        z.nonrepro = k.nonrepro ∧ z.sq = q ∧ z.sqHead = head ∧ z.reruns = k.reruns ∧ z.step = k.desc.step ∧
        (z.late = true ↔ k.late = true ∨ (k.desc.cls ≠ 0 ∧ k.desc.deadline ≠ 0 ∧ k.desc.deadline < s.chip.taiNs))) ∧
      c.sheets = s.chip.sheets ∧ c.quires = s.chip.quires ∧ c.programs = s.chip.programs)
    let free := k.desc.mode = 2 → s.chip.keysWhere (fun t => t.cmd == uid) = []
    (builtinFirst ≤ k.desc.program → k.ending = none → Becomes (.commandComplete uid) s s.chip) ∧
    (k.drained ≠ k.committed.length ∨ ¬ free → Becomes (.commandComplete uid) s s.chip) ∧
    (k.desc.program < builtinFirst → k.ending = none → s.chip.slotState k.slot ≠ 2 → ¬ done → Becomes (.commandComplete uid) s s.chip) ∧
    (k.desc.program < builtinFirst ∨ k.ending ≠ none → k.drained = k.committed.length → free →
      (s.chip.slotState k.slot = 2 → Yields (.commandComplete uid) s (fun c => gone c ∧ c.rings = s.chip.rings ∧ c.tokens = s.chip.tokens)) ∧
      (s.chip.slotState k.slot ≠ 2 → (∀ e, k.ending = some e → completes e) ∧ (k.ending = none → done → completes ⟨0, 0, 0⟩)))) ∧
  (∀ (b : Chip) (slot cq : Nat) (e : Completion),
    (b.ring slot 1 cq = none → b.post slot cq e = b) ∧
    (∀ g, b.ring slot 1 cq = some g → (g.full = true ∨ g.held ≠ [] → b.post slot cq e = b.updRing slot 1 cq (fun (r : Ring) => { r with held := r.held ++ [e] })) ∧
      (g.full = false → g.held = [] → let next := (g.own + 1) % g.size
        let c := b.post slot cq e
        c.mem = (b.twrite slot (g.base + 64 * g.own) (e.bytes g.phase)).mem ∧ c.host = (b.twrite slot (g.base + 64 * g.own) (e.bytes g.phase)).host ∧
        c.ring slot 1 cq = some { g with own := next, phase := if next = 0 then !g.phase else g.phase } ∧ c.commands = b.commands))) ∧
  (∀ (e : Completion) (phase : Bool), e.watermark.length ≤ 32 → (e.bytes phase).length = 64 ∧ byteField (e.bytes phase) 8 1 = e.status % 256 ∧
    byteField (e.bytes phase) 0 4 = e.tag % 2 ^ 32 ∧ byteField (e.bytes phase) 0x14 4 = e.trapPc % 2 ^ 32) ∧
  (∀ (s : State) (uid : Nat) (k : Command) (i : Instr) (n : Nat), s.chip.live = true →
    (i, n) ∈ [(Instr.programLoad uid, 1), (.programUnload uid, 2), (.contextCreate uid, 3), (.contextDestroy uid, 4), (.contextExport uid, 5), (.contextImport uid, 6),
      (.jobTeardown uid, 7)] →
    (s.chip.command uid = none → Becomes i s s.chip) ∧
    (s.chip.command uid = some k → k.desc.program ≠ 0xFFFFFF00 + n ∨ k.ending.isSome = true ∨ s.chip.mayStart k = false → Becomes i s s.chip)) ∧
  (∀ (s : State) (uid : Nat) (k : Command), s.chip.live = true → s.chip.command uid = some k → k.ending = none → s.chip.mayStart k = true →
    let b := s.chip.updCommand uid (fun (m : Command) => { m with placed := true })
    let ends := fun (i : Instr) (x : Chip) (status : Nat) => Becomes i s (x.finishCommand k ⟨status, 0, 0⟩)
    let tin := k.tensorRange 0
    let tout := k.tensorRange 8
    (k.desc.program = 0xFFFFFF01 →
      let image := b.treadN k.slot tin.1 tin.2
      (Config.imageVerifies image = false → ends (.programLoad uid) b 0x20) ∧ (Config.imageVerifies image = true → tout.2 < 16 → ends (.programLoad uid) b 0x10) ∧
      (Config.imageVerifies image = true → 16 ≤ tout.2 → ∃ x : Chip, ends (.programLoad uid) x 0 ∧
        tabGet x.programs b.nextProgram = some ⟨some k.slot, image, sha256 image, Config.imageDraw image⟩ ∧ x.nextProgram = b.nextProgram + 1 ∧
        x.mem = (b.twrite k.slot tout.1 (bytesLE 4 b.nextProgram ++ bytesLE 4 0 ++ (sha256 image).take 8)).mem ∧ x.commands = b.commands ∧ x.contexts = b.contexts)) ∧
    (k.desc.program = 0xFFFFFF02 →
      (∀ p, tabGet b.programs (k.param 0) = some p → p.slot = some k.slot → (∀ m ∈ b.commands, m.desc.program ≠ k.param 0) →
        ends (.programUnload uid) { b with programs := tabDel b.programs (k.param 0) } 0) ∧
      (tabGet b.programs (k.param 0) = none → ends (.programUnload uid) b 0x14) ∧
      (∀ p, tabGet b.programs (k.param 0) = some p → p.slot ≠ some k.slot ∨ (∃ m ∈ b.commands, m.desc.program = k.param 0) → ends (.programUnload uid) b 0x14)) ∧
    (k.desc.program = 0xFFFFFF03 →
      let x : Context := { slot := k.slot, footprint := k.param 0 % 2048 + 1, reamMask := k.param 1 % 16, joinedCapable := (k.param 1).testBit 4, poolBytes := k.param 2 * 4096, place := .onChip, gang := [], images := [], queued := [], blockedSince := none, runnableSince := none, aic := b.aic, aicOverride := false, couchPages := 0, pools := [], couchStart := 0, evicting := false }
      (tout.2 < 4 → ends (.contextCreate uid) b 0x10) ∧ (4 ≤ tout.2 → b.newContext x = none → ends (.contextCreate uid) b 0x50) ∧
      (∀ n d, 4 ≤ tout.2 → b.newContext x = some (n, d) → ∃ y : Chip, ends (.contextCreate uid) y 0 ∧ b.context n = none ∧ y.contexts = d.contexts ∧
        y.mem = (d.twrite k.slot tout.1 (bytesLE 4 n)).mem ∧
        (y.context n).map (fun (z : Context) => (z.slot, z.footprint, z.reamMask, z.poolBytes)) = some (x.slot, x.footprint, x.reamMask, x.poolBytes) ∧
        (∀ m, m ≠ n → y.context m = b.context m))) ∧
    (k.desc.program = 0xFFFFFF04 →
      (b.context k.desc.ctx = none → ends (.contextDestroy uid) b 0x14) ∧
      (b.context k.desc.ctx ≠ none → (∃ m ∈ b.commands, m.uid ≠ uid ∧ m.desc.ctx = k.desc.ctx) → Becomes (.contextDestroy uid) s b) ∧
      (b.context k.desc.ctx ≠ none → (∀ m ∈ b.commands, m.uid ≠ uid → m.desc.ctx ≠ k.desc.ctx) → ∃ y : Chip, ends (.contextDestroy uid) y 0 ∧
        y.context k.desc.ctx = none ∧ (∀ m, m ≠ k.desc.ctx → y.context m = b.context m) ∧ y.mem = b.mem ∧ y.commands = b.commands)) ∧
    (k.desc.program = 0xFFFFFF05 →
      (b.context k.desc.ctx = none → ends (.contextExport uid) b 0x14) ∧
      (∀ x, b.context k.desc.ctx = some x → x.place = .onChip → 
        (let out : Context := { x with place := .couchingOut, couchStart := b.time.uptime, evicting := true }
         Becomes (.contextExport uid) s { b with contexts := tabPut b.contexts k.desc.ctx out })) ∧
      (∀ x, b.context k.desc.ctx = some x → x.place = .couchingOut ∨ x.place = .couchingIn → Becomes (.contextExport uid) s b) ∧
      (∀ x, b.context k.desc.ctx = some x → x.place = .couched → tout.2 < (x.image (b.programsOf x)).length → ends (.contextExport uid) b 0x10) ∧
      (∀ x, b.context k.desc.ctx = some x → x.place = .couched → (x.image (b.programsOf x)).length ≤ tout.2 →
        ends (.contextExport uid) (b.twrite k.slot tout.1 (x.image (b.programsOf x))) 0)) ∧
    (k.desc.program = 0xFFFFFF06 →
      let head := b.treadN k.slot tin.1 64
      let bytes := byteField head 0x10 8
      let rest := uncrcBlocks (bytes / 65536 + 1) (b.treadN k.slot (tin.1 + 64) (bytes - 64))
      let aic := byteField head 4 2
      (tin.2 < 64 ∨ tout.2 < 4 → ends (.contextImport uid) b 0x10) ∧
      (64 ≤ tin.2 → 4 ≤ tout.2 → (crcOk head 60 = false → ends (.contextImport uid) b 0x20) ∧ (crcOk head 60 = true → tin.2 < bytes → ends (.contextImport uid) b 0x10) ∧
        (crcOk head 60 = true → bytes ≤ tin.2 → (rest = none → ends (.contextImport uid) b 0x20) ∧
          (rest ≠ none → byteField head 2 2 ≠ 0x4044 → ends (.contextImport uid) b 0x40) ∧
          (rest ≠ none → byteField head 2 2 = 0x4044 → aic ≠ b.aic → k.param 0 % 2 = 0 → ends (.contextImport uid) b 0x41) ∧
          (rest ≠ none → byteField head 2 2 = 0x4044 → aic = b.aic ∨ k.param 0 % 2 = 1 → ends (.contextImport uid) b 0x50 ∨
            ∃ (n : Nat) (y : Chip), ends (.contextImport uid) y 0 ∧ b.context n = none ∧ (∀ m, m ≠ n → y.context m = b.context m) ∧
              (y.context n).map (fun (z : Context) => (z.slot, z.footprint, z.place)) = some (k.slot, byteField head 6 2 + 1, .couched))))) ∧
    (k.desc.program = 0xFFFFFF07 →
      (b.jobAt (k.param 0) = none → ends (.jobTeardown uid) b 0) ∧
      (∀ i j, b.jobAt (k.param 0) = some (i, j) → k.slot ≠ 0 → k.slot ≠ fget j.v0 ⟨26, 6⟩ → ends (.jobTeardown uid) b 0x10) ∧
      (∀ i j, b.jobAt (k.param 0) = some (i, j) → k.slot = 0 ∨ k.slot = fget j.v0 ⟨26, 6⟩ → j.torn = true → ends (.jobTeardown uid) b 0) ∧
      (∀ i j, b.jobAt (k.param 0) = some (i, j) → k.slot = 0 ∨ k.slot = fget j.v0 ⟨26, 6⟩ → j.torn = false → ∃ y : Chip,
        ends (.jobTeardown uid) y 0 ∧ (tabGet y.jobs i).map (fun (z : FabJob) => z.torn) = some true ∧
        (∀ u m, y.command u = some m → m.desc.job = k.param 0 → m.ending.isSome = true))))

/-- The check first notes since when each context is blocked on chip or runnable off it. Without SWAP_EN, or while the ream swaps, it does no more. Runnable contexts that fit come in. Otherwise, when every unpinned context on the ream is blocked beyond the threshold, the first runnable one is picked by class, time and number, and the longest blocked leave until it fits, or none does. COUCH_OUT_COMPLETE keeps the context on chip where an awaited event has arrived, waits while a sheet of it cannot be saved or a commit drains, and else saves images and tasks and frees its gang. COUCH_IN_COMPLETE waits for the sheets and then restores them; both count themselves. -/
def Obligations.ContextsCouchOutAndInAndSwap : Prop :=
  (∀ (s : State) (ctx : Nat), s.chip.live = true →
    (s.chip.context ctx = none → Becomes (.couchOutComplete ctx) s s.chip ∧ Becomes (.couchInComplete ctx) s s.chip) ∧
    (∀ x, s.chip.context ctx = some x → (x.place ≠ .couchingOut → Becomes (.couchOutComplete ctx) s s.chip) ∧ (x.place ≠ .couchingIn → Becomes (.couchInComplete ctx) s s.chip))) ∧
  (∀ (s : State) (ctx : Nat) (x : Context), s.chip.live = true → s.chip.context ctx = some x → x.place = .couchingOut →
    let keys := s.chip.gangKeys x
    let sheets := keys.map (fun k => s.chip.sheetK k.2.2)
    let arrived := sheets.any (fun sh => match sh.task, sh.wait with
      | some t, some w => t.ctx == ctx && s.chip.waitMet t w
      | _, _ => false)
    (arrived = true → x.evicting = false → Yields (.couchOutComplete ctx) s (fun c => (c.context ctx).map (fun (y : Context) => (y.place, y.gang)) = some (.onChip, x.gang) ∧
      c = { s.chip with contexts := c.contexts, swaps := c.swaps })) ∧
    (arrived = false ∨ x.evicting = true → sheets.all (fun sh => sh.savable ctx) = false ∨ s.chip.undrained ctx = true → Becomes (.couchOutComplete ctx) s s.chip) ∧
    (arrived = false ∨ x.evicting = true → sheets.all (fun sh => sh.savable ctx) = true → s.chip.undrained ctx = false → s.chip.swaps = [] →
      Yields (.couchOutComplete ctx) s (fun c =>
        (c.context ctx).map (fun (y : Context) => (y.place, y.gang, y.queued)) = some (.couched, [], x.queued ++ s.chip.queuedOf ctx x) ∧
        (c.context ctx).map (fun (y : Context) => (y.images, y.pools)) =
          some (keys.map (fun k => (s.chip.sheetK k.2.2).imageOf ctx k.1), x.quires.map (fun q => (s.chip.quire q).poolFor ctx)) ∧
        (∀ n, n ≠ ctx → c.context n = s.chip.context n) ∧ c.commands = s.chip.commands ∧ SameStore s.chip c))) ∧
  (∀ (s : State) (ctx : Nat) (x : Context), s.chip.live = true → s.chip.context ctx = some x → x.place = .couchingIn →
    let keys := s.chip.gangKeys x
    let image := fun (i : Nat) => x.images.find? (fun m => m.logical == i)
    let busy := keys.any (fun k => match image k.1 with
      | some m => m.task.isSome && ((s.chip.sheetK k.2.2).task.isSome || (s.chip.sheetK k.2.2).killing)
      | none => false)
    (busy = true ∨ keys.length ≠ x.footprint → Becomes (.couchInComplete ctx) s s.chip) ∧
    (busy = false → keys.length = x.footprint → Yields (.couchInComplete ctx) s (fun c =>
      (c.context ctx).map (fun (y : Context) => (y.place, y.gang, y.images, y.queued.length)) = some (.onChip, x.gang, [], 0) ∧
      (∀ n, n ≠ ctx → c.context n = s.chip.context n) ∧ (∀ p ∈ c.swaps, p.2 ≠ ctx) ∧ c.commands = s.chip.commands ∧ SameStore s.chip c ∧
      (∀ n p k m t, keys = [(n, p, k)] → image n = some m → m.task = some t → (c.sheetK k).task = some { t with logical := p % 64 } ∧
        (c.sheetK k).vregs = m.vregs ∧ (c.sheetK k).xregs = m.xregs ∧ (c.sheetK k).pc = m.pc ∧ (c.sheetK k).csrs = m.csrs)))) ∧
  (∀ (s : State) (ream : Fin 4), s.chip.live = true →
    let b := s.chip.noteBlocked
    let r := ream.val
    (b.flag (R.SCHED_CFG r) F.SCHED_CFG.SWAP_EN = false ∨ (tabGet b.swaps r).isSome = true → Becomes (.blockedSwapCheck ream) s b) ∧
    (b.flag (R.SCHED_CFG r) F.SCHED_CFG.SWAP_EN = true → tabGet b.swaps r = none →
      let d := (b.runnableOff r).foldl (fun (c : Chip) y => c.couchIn y.1) b
      (d.runnableOff r = [] → Becomes (.blockedSwapCheck ream) s d) ∧
      (∀ n x rest, d.runnableOff r = (n, x) :: rest →
        let on := d.contexts.filter (fun (y : Nat × Context) => y.2.place != .couched && y.2.onReam r && !d.pinned y.1)
        let long := fun (y : Nat × Context) => y.2.place == .onChip && (match y.2.blockedSince with
          | some t => decide (t + 1000 * d.fld (R.SCHED_CFG r) F.SCHED_CFG.BLOCK_THRESH < d.time.uptime)
          | none => false)
        let order := (sortBy (fun (a b : Nat × Context) => listLt [a.2.blockedSince.getD 0, a.1] [b.2.blockedSince.getD 0, b.1]) on).map (fun y => y.1)
        (on.all long = false → Becomes (.blockedSwapCheck ream) s d) ∧
        (on.all long = true → d.outFor x [] order = none → Becomes (.blockedSwapCheck ream) s d) ∧
        (∀ off, on.all long = true → d.outFor x [] order = some off → Yields (.blockedSwapCheck ream) s (fun c => tabGet c.swaps r = some n ∧
          (∀ m ∈ off, ∀ y, d.context m = some y → (c.context m).map (fun (z : Context) => z.place) = some .couchingOut) ∧
          (∀ m, m ∉ off → c.context m = d.context m) ∧ c = { s.chip with contexts := c.contexts, swaps := c.swaps }))))) ∧
  (∀ (b : Chip) (n : Nat) (x : Context), b.context n = some x →
    (x.place = .onChip → (b.noteBlocked.context n).map (fun (y : Context) => y.blockedSince) =
      some (if b.blocked n x then some (x.blockedSince.getD b.time.uptime) else none)) ∧
    (x.place = .couched → (b.noteBlocked.context n).map (fun (y : Context) => y.runnableSince) =
      some (if b.couchedReady x then some (x.runnableSince.getD b.time.uptime) else none))) ∧
  (∀ (b : Chip) (x : Context) (off order l : List Nat), b.outFor x off order = some l →
    (b.findGang x l).isSome = true ∧ ∃ k, l = off ++ order.take k ∧ ∀ j < k, b.findGang x (off ++ order.take j) = none) ∧
  (∀ (b : Chip) (n : Nat) (x : Context) (g : List Nat), b.context n = some x → x.place = .couched → b.findGang x [] = some g →
    b.couchIn n = (let y : Context := { x with place := .couchingIn, gang := g, couchStart := b.time.uptime }
      { b with contexts := tabPut b.contexts n y }) ∧ g.length = x.footprint ∧ (∀ p ∈ g, x.reamMask.testBit (p / 64 / 8) = true ∧ b.quireUp (p / 64) = true))

/-- At rest, a word of one of the four FX opcodes whose FUNCT6 names an instruction acts as that instruction's command. Any other word takes its 32-bit form, its own or the one its compressed form stands for, and the sheet stands as the base ISA leaves it, its felt and registers included, past 4 or 2 bytes; nothing else of the part moves but counters. A word that is none, and one that traps (a reserved form, a misaligned or outside access, ECALL, EBREAK), ends its command with the trap's status. The add, compare, logic, shift, multiply and divide forms, LUI, AUIPC, jumps, branches, loads and stores are given word for word; x0 reads 0 and keeps it. -/
def Obligations.ScalarInstructionsOfTheControlCore : Prop :=
  (∀ (s : State) (q : SheetAt) (t : Task) (m : Command) (word : W32) (w len : Nat), s.chip.AtRest q t m → rvWord word = some (w, len) →
    (fxOpcode w = true → ∀ i, fxDecode q w = some i → exec (.scalarInstruction q word) s = exec i s) ∧
    (fxOpcode w = false → ∀ sh, rvExec (s.chip.fxCtxAt q t m) (s.chip.sheet q) w len = .ok sh → Computes (.scalarInstruction q word) s q sh)) ∧
  (∀ (s : State) (q : SheetAt) (t : Task) (m : Command) (word : W32) (cause : Nat), s.chip.AtRest q t m → m.ending = none →
    (rvWord word = none ∧ cause = trIllegal) ∨ (∃ w len, rvWord word = some (w, len) ∧ fxOpcode w = true ∧ fxDecode q w = none ∧ cause = trIllegal) ∨
      (∃ w len, rvWord word = some (w, len) ∧ fxOpcode w = false ∧ rvExec (s.chip.fxCtxAt q t m) (s.chip.sheet q) w len = .trap cause) →
    Yields (.scalarInstruction q word) s (fun c => (c.command t.cmd).map (fun (k : Command) => k.ending) =
        some (some ⟨trapStatus cause, cause, (s.chip.sheet q).pc.toNat⟩) ∧
      (c.sheet q).task = none ∧ c.contexts = s.chip.contexts ∧ SameStore s.chip c)) ∧
  (∀ (x : FxCtx) (sh : Sheet) (f3 rd rs1 rs2 : Nat) (imm : Int), rd < 32 → rs1 < 32 → rs2 < 32 → f3 < 8 → -2048 ≤ imm → imm < 2048 →
    let next := sh.pc + 4
    let puts := fun (w : Nat) (v : W32) => rvExec x sh w 4 = .ok { sh.setX rd v with pc := next }
    let a := sh.x rs1
    let b := sh.x rs2
    let i := BitVec.ofInt 32 imm
    puts (encI 0x13 0 rd rs1 imm) (a + i) ∧ puts (encI 0x13 2 rd rs1 imm) (if a.slt i then 1 else 0) ∧ puts (encI 0x13 3 rd rs1 imm) (if a.ult i then 1 else 0) ∧
    puts (encI 0x13 4 rd rs1 imm) (a ^^^ i) ∧ puts (encI 0x13 6 rd rs1 imm) (a ||| i) ∧ puts (encI 0x13 7 rd rs1 imm) (a &&& i) ∧
    puts (encI 0x13 1 rd rs1 rs2) (a <<< rs2) ∧ puts (encI 0x13 5 rd rs1 rs2) (a >>> rs2) ∧ puts (encI 0x13 5 rd rs1 (rs2 + 1024 : Nat)) (a.sshiftRight rs2) ∧
    puts (encR 0 0 rd rs1 rs2) (a + b) ∧ puts (encR 32 0 rd rs1 rs2) (a - b) ∧ puts (encR 0 1 rd rs1 rs2) (a <<< (b.toNat % 32)) ∧
    puts (encR 0 2 rd rs1 rs2) (if a.slt b then 1 else 0) ∧ puts (encR 0 3 rd rs1 rs2) (if a.ult b then 1 else 0) ∧ puts (encR 0 4 rd rs1 rs2) (a ^^^ b) ∧
    puts (encR 0 5 rd rs1 rs2) (a >>> (b.toNat % 32)) ∧ puts (encR 32 5 rd rs1 rs2) (a.sshiftRight (b.toNat % 32)) ∧
    puts (encR 0 6 rd rs1 rs2) (a ||| b) ∧ puts (encR 0 7 rd rs1 rs2) (a &&& b) ∧
    puts (encR 1 0 rd rs1 rs2) (a * b) ∧ puts (encR 1 1 rd rs1 rs2) (BitVec.ofInt 32 (a.toInt * b.toInt / 2 ^ 32)) ∧
    puts (encR 1 3 rd rs1 rs2) (BitVec.ofNat 32 (a.toNat * b.toNat / 2 ^ 32)) ∧
    puts (encR 1 4 rd rs1 rs2) (if b = 0 then BitVec.ofInt 32 (-1) else BitVec.ofInt 32 (a.toInt.tdiv b.toInt)) ∧
    puts (encR 1 5 rd rs1 rs2) (if b = 0 then BitVec.ofInt 32 (-1) else a.udiv b) ∧
    puts (encR 1 6 rd rs1 rs2) (if b = 0 then a else BitVec.ofInt 32 (a.toInt.tmod b.toInt)) ∧
    puts (encR 1 7 rd rs1 rs2) (if b = 0 then a else a.umod b) ∧
    (∀ u < 2 ^ 20, puts (0x37 + rd * 2 ^ 7 + u * 2 ^ 12) (BitVec.ofNat 32 (u * 2 ^ 12)) ∧ puts (0x17 + rd * 2 ^ 7 + u * 2 ^ 12) (sh.pc + BitVec.ofNat 32 (u * 2 ^ 12))) ∧
    (∀ j : Int, -2 ^ 20 ≤ j → j < 2 ^ 20 → j % 2 = 0 → rvExec x sh (encJ rd j) 4 = .ok { sh.setX rd next with pc := sh.pc + BitVec.ofInt 32 j }) ∧
    rvExec x sh (encI 0x67 0 rd rs1 imm) 4 = .ok { sh.setX rd next with pc := (a + i) &&& 0xFFFFFFFE } ∧
    (∀ j : Int, -4096 ≤ j → j < 4096 → j % 2 = 0 → ∀ holds, (f3, holds) ∈ [(0, a == b), (1, a != b), (4, a.slt b), (5, !a.slt b), (6, a.ult b), (7, !a.ult b)] →
      rvExec x sh (encB f3 rs1 j + rs2 * 2 ^ 20) 4 = .ok { sh with pc := if holds then sh.pc + BitVec.ofInt 32 j else next }) ∧
    (∀ n sx, (f3, n, sx) ∈ [(0, 1, true), (1, 2, true), (2, 4, true), (4, 1, false), (5, 2, false)] →
      let at_ := (a + i).toNat
      let r := rvExec x sh (encI 0x03 f3 rd rs1 imm) 4
      (feltOk at_ n = false → r = .trap trFelt) ∧ (feltOk at_ n = true → at_ % n ≠ 0 → r = .trap trScalar) ∧
      (feltOk at_ n = true → at_ % n = 0 → r = .ok { sh.setX rd (if sx then BitVec.ofInt 32 (signed (8 * n) (rdNat sh.rd at_ n)) else BitVec.ofNat 32 (rdNat sh.rd at_ n)) with
        pc := next })) ∧
    (∀ n, (f3, n) ∈ [(0, 1), (1, 2), (2, 4)] →
      let at_ := (a + i).toNat
      let r := rvExec x sh (encS f3 rs1 rs2 (unsign 12 imm)) 4
      (feltOk at_ n = false → r = .trap trFelt) ∧ (feltOk at_ n = true → at_ % n ≠ 0 → r = .trap trScalar) ∧
      (feltOk at_ n = true → at_ % n = 0 → r = .ok { sh.wr at_ (bytesLE n b.toNat) with pc := next })) ∧
    rvExec x sh 0x73 4 = .trap trScalar ∧ rvExec x sh 0x100073 4 = .trap trScalar) ∧
  (∀ (sh : Sheet) (v : W32) (r : Nat), sh.x 0 = 0 ∧ (sh.setX 0 v).x r = sh.x r)

/-- A row for a request that the sheet does not hold unserved changes nothing. Serving a request marks it served with its block at its RESULT address and leaves memory and every other sheet alone. ROPE answers 0x11 for an invalid descriptor, 0x10 past the last position, and else cos and sin of p times the frequency word for each position and frequency. WALK_BEGIN answers 0x11 for an invalid descriptor or page list and 3 for an empty sequence, waits without a free slot and counts that once, and else fills the lowest free slot and lists its pages. WALK_STEP waits behind earlier steps of the quire, answers 0x10 for a slot not its own, lists pages in order when dense, and otherwise, past statistics with positive sums, answers 0, 2 or 1 by the check, MAX_PAGES and the ranking. WALK_END frees a slot of its own. PAGE_FETCH answers 0x10 for a slot, page or head out of range, and else carries both sides with the tokens delivered. SAMPLE and VERIFY wait for the sampler's turn and unready rows, answer 0x10 where the settings keep nothing, and else the token with its log-probabilities, KEPT and ACCEPTED. The result block row writes a served block once nothing more is to fill, and drops the request. -/
def Obligations.EngineRequestsAreServedWithResultBlocks : Prop :=
  (∀ (s : State) (at_ : SheetAt) (tag : Nat), s.chip.live = true →
    (∀ r ∈ [(Instr.rope at_ tag, 0x40), (.walkBegin at_ tag, 0x41), (.walkStep at_ tag, 0x42), (.walkEnd at_ tag, 0x43), (.pageFetch at_ tag, 0x44),
      (.sample at_ tag, 0x48), (.verify at_ tag, 0x49)], s.chip.engineReq at_ tag r.2 = none → Becomes r.1 s s.chip)) ∧
  (∀ (c : Chip) (at_ : SheetAt) (tag kind : Nat) (d : DmaReq) (t : Task), c.engineReq at_ tag kind = some (d, t) ↔
    (c.sheet at_).request tag = some d ∧ (c.sheet at_).task = some t ∧ d.kind = kind ∧ d.served = false) ∧
  (∀ (c : Chip) (at_ : SheetAt) (tag : Nat) (d : DmaReq) (bs : List Byte), (c.sheet at_).request tag = some d →
    ((c.engineDone at_ tag bs).sheet at_).request tag = some { d with served := true, block := some (body d.words 0 4, bs) } ∧
    (∀ k, k ≠ sheetKey at_ → tabGet (c.engineDone at_ tag bs).sheets k = tabGet c.sheets k) ∧
    SameStore c (c.engineDone at_ tag bs) ∧ (c.engineDone at_ tag bs).walks = c.walks ∧ (c.engineDone at_ tag bs).commands = c.commands) ∧
  (∀ (s : State) (at_ : SheetAt) (tag : Nat) (d : DmaReq) (t : Task), s.chip.live = true →
    let c := s.chip
    let k := sheetKey at_
    let q := keyQuire k
    let b := body d.words
    let done := fun (bs : List Byte) => c.engineDone at_ tag bs
    (c.engineReq at_ tag 0x40 = some (d, t) →
      let pos := b 8 4
      let n := b 12 4
      (c.readSeq t.slot (c.seqVa t.cmd (b 4 4 / 2 ^ 24, 128 * (b 4 4 % 2 ^ 24))) = none → Becomes (.rope at_ tag) s (done (bytesLE 8 0x11))) ∧
      (∀ sq, c.readSeq t.slot (c.seqVa t.cmd (b 4 4 / 2 ^ 24, 128 * (b 4 4 % 2 ^ 24))) = some sq →
        (2 ^ 32 < pos + n → Becomes (.rope at_ tag) s (done (bytesLE 8 0x10))) ∧
        (pos + n ≤ 2 ^ 32 → c.readEnd t.slot sq.ropeTab (8 * (sq.ropeDim / 2)) = .ok →
          Becomes (.rope at_ tag) s (done (bytesLE 8 0 ++ (List.range n).flatMap (fun j => (List.range (sq.ropeDim / 2)).flatMap (fun i =>
            let phi : W64 := BitVec.ofNat 64 ((pos + j) * c.treadNat t.slot (sq.ropeTab + 8 * i) 8)
            bytesLE 4 (Config.ropeCos c.aic phi).toNat ++ bytesLE 4 (Config.ropeSin c.aic phi).toNat))))))) ∧
    (c.engineReq at_ tag 0x43 = some (d, t) →
      (∀ w, c.walkSlot q (b 4 4) = some w → w.key = k → Becomes (.walkEnd at_ tag) s ((c.setWalkSlot q (b 4 4) none).engineDone at_ tag (bytesLE 8 0))) ∧
      ((∀ w, c.walkSlot q (b 4 4) = some w → w.key ≠ k) → Becomes (.walkEnd at_ tag) s (done (bytesLE 8 0x10)))) ∧
    (c.engineReq at_ tag 0x44 = some (d, t) →
      (∀ w, c.walkSlot q (b 4 4) = some w → w.key = k → b 8 4 < w.pages → (b 12 4 = 0xFF ∨ b 12 4 < w.heads) →
        let object := nth w.entries (b 8 4) 0
        let ks := kvSize w.pageLog2 w.heads w.dim w.kfmt
        let n := w.pageTokens (b 8 4)
        c.readEnd t.slot object (ks + kvSize w.pageLog2 w.heads w.dim w.vfmt) = .ok →
        Becomes (.pageFetch at_ tag) s (((c.countRead t.slot object).updSheet at_ (fun sh => sh.updRequest tag (fun r =>
          { r with pieces := piecesAt (b 16 4) (c.fetchSide w object w.kfmt (b 12 4) n) ++ piecesAt (b 20 4) (c.fetchSide w (object + ks) w.vfmt (b 12 4) n) }))).engineDone
            at_ tag (bytesLE 4 0 ++ bytesLE 4 n))) ∧
      ((∀ w, c.walkSlot q (b 4 4) = some w → w.key ≠ k ∨ w.pages ≤ b 8 4 ∨ (b 12 4 ≠ 0xFF ∧ w.heads ≤ b 12 4)) →
        Becomes (.pageFetch at_ tag) s ((c.updSheet at_ (fun sh => (sh.mkReady d.lines).updRequest tag (fun r => { r with lines := [] }))).engineDone at_ tag (bytesLE 8 0x10))))) ∧
  (∀ (s : State) (at_ : SheetAt) (tag : Nat) (d : DmaReq) (t : Task), s.chip.live = true → s.chip.engineReq at_ tag 0x41 = some (d, t) →
    let c := s.chip
    let k := sheetKey at_
    let q := keyQuire k
    let b := body d.words
    let va := c.seqVa t.cmd (b 4 4 / 2 ^ 24, 128 * (b 4 4 % 2 ^ 24))
    let answers := fun (status : Nat) => Becomes (.walkBegin at_ tag) s (c.engineDone at_ tag (blockHead status 0 0 0 0))
    (c.readSeq t.slot va = none → answers 0x11) ∧
    (∀ sq, c.readSeq t.slot va = some sq →
      let snap := ceilDiv sq.tokens (2 ^ sq.pageLog2)
      let entries := (List.range snap).map (fun i => c.pageEntry t.slot sq i)
      let need := 4 * b 12 1 * sq.dim
      (sq.tokens = 0 → answers 3) ∧
      (sq.tokens ≠ 0 → sq.pages < snap → answers 0x11) ∧
      (sq.tokens ≠ 0 → snap ≤ sq.pages → c.readEnd t.slot sq.pageList (8 * snap) = .ok →
        ((∃ e ∈ entries, e.2 = 0) → answers 0x11) ∧
        ((∀ e ∈ entries, e.2 ≠ 0) → b 12 1 % sq.heads = 0 → feltOk (b 8 4) need = true →
          ((∃ l ∈ linesOf (b 8 4) need, (c.sheet at_).ready l = false) → Becomes (.walkBegin at_ tag) s c) ∧
          ((∀ l ∈ linesOf (b 8 4) need, (c.sheet at_).ready l = true) →
            (c.freeWalkSlot q = none → c.walkWait.contains (k, tag) = true → Becomes (.walkBegin at_ tag) s c) ∧
            (c.freeWalkSlot q = none → c.walkWait.contains (k, tag) = false → Becomes (.walkBegin at_ tag) s
              (({ c with walkWait := c.walkWait ++ [(k, tag)] } : Chip).bump (R.WALK_CNT1 (q / 8) (q % 8)) F.WALK_CNT1.SLOT_WAIT 1)) ∧
            (∀ i, c.freeWalkSlot q = some i → Yields (.walkBegin at_ tag) s (fun e =>
              let list := if b 13 1 = 0 then List.range (min (b 22 2) snap)
                else (List.range snap).filter (fun p => decide (p < b 20 1) || decide (snap < p + 1 + b 21 1))
              (∃ w : WalkSlot, e.walkSlot q i = some w ∧ w.key = k ∧ w.tokens = sq.tokens ∧ w.entries = entries.map (fun x => x.1) ∧ w.selected = list ∧
                w.query = feltWords (c.sheet at_) (b 8 4) (b 12 1 * sq.dim) ∧ w.mode = b 13 1 ∧ w.round = b 22 2 ∧ w.maxPages = b 24 4) ∧
              (∀ j, j ≠ i → e.walkSlot q j = c.walkSlot q j) ∧
              (e.sheet at_).request tag = some { d with served := true, block := some (b 0 4, blockHead 0 i sq.tokens snap list.length ++ indexBytes list) } ∧
              SameStore c e ∧ e.commands = c.commands))))))) ∧
  (∀ (s : State) (at_ : SheetAt) (tag : Nat) (d : DmaReq) (t : Task), s.chip.live = true → s.chip.engineReq at_ tag 0x42 = some (d, t) →
    let c := s.chip
    let k := sheetKey at_
    let q := keyQuire k
    let i := body d.words 4 4
    let stat := body d.words 8 4
    (c.stepBefore q d.issue = true → Becomes (.walkStep at_ tag) s c) ∧
    (c.stepBefore q d.issue = false →
      ((∀ w, c.walkSlot q i = some w → w.key ≠ k) → Becomes (.walkStep at_ tag) s (c.engineDone at_ tag (blockHead 0x10 0 0 0 0))) ∧
      (∀ w, c.walkSlot q i = some w → w.key = k →
        let left := (List.range w.pages).filter (fun p => !w.selected.contains p)
        (w.mode = 0 → let list := left.take w.round
          Becomes (.walkStep at_ tag) s (c.stepDone at_ tag q i w (if w.pages ≤ w.selected.length + list.length then 0 else 1) list 0)) ∧
        (w.mode ≠ 0 → feltOk stat (8 * w.nq) = true → (∃ l ∈ linesOf stat (8 * w.nq), (c.sheet at_).ready l = false) → Becomes (.walkStep at_ tag) s c) ∧
        (w.mode ≠ 0 → feltOk stat (8 * w.nq) = true → (∀ l ∈ linesOf stat (8 * w.nq), (c.sheet at_).ready l = true) →
          (∀ p ∈ left, c.readEnd t.slot (nth w.entries p 0 + sketchOff w.pageLog2 w.heads w.dim w.kfmt w.vfmt) (4 * w.heads * w.dim) = .ok) →
          let ws := feltWords (c.sheet at_) stat (2 * w.nq)
          let stats := (List.range w.nq).map (fun v => (nth ws (2 * v) 0, nth ws (2 * v + 1) 0))
          let scan := c.walkScan w
          let bs := stats.zipIdx.map (fun x => walkMass c.aic w scan x.2 x.1.1)
          (∀ x ∈ stats, fltW 0 x.2 = true ∧ f32 x.1 ≠ .nan) →
          let mass := ((bs.zip stats).map (fun x => fdivR 2 x.1 x.2.2)).foldl fmaxW 0
          let pass := (bs.zip stats).all (fun x => walkPasses w x.1 x.2.1 x.2.2)
          (pass = true ∨ left = [] → Becomes (.walkStep at_ tag) s (c.stepDone at_ tag q i w 0 [] mass)) ∧
          (pass = false → left ≠ [] →
            (w.maxPages ≠ 0 → w.maxPages ≤ w.selected.length → Becomes (.walkStep at_ tag) s (c.stepDone at_ tag q i w 2 [] mass)) ∧
            (w.maxPages = 0 ∨ w.selected.length < w.maxPages →
              let room := if w.maxPages = 0 then w.round else min w.round (w.maxPages - w.selected.length)
              Becomes (.walkStep at_ tag) s (c.stepDone at_ tag q i w 1
                (((sortBy rankLt (scan.map (fun x => (x.1, walkRank stats x.2)))).take room).map (fun x => x.1)) mass))))))) ∧
  (∀ (s : State) (at_ : SheetAt) (tag : Nat) (d : DmaReq) (t : Task), s.chip.live = true → s.chip.engineReq at_ tag 0x48 = some (d, t) →
    let c := s.chip
    let a := sampleArgs d.words
    let e := c.bump (R.SMP_CNT at_.ream.val) F.SMP_CNT.SAMPLES 1
    (c.samplerNext at_.ream.val t.cls d.issue = false → Becomes (.sample at_ tag) s c) ∧
    (c.samplerNext at_.ream.val t.cls d.issue = true →
      (c.rowsOf at_ t d.words (body d.words 4 4) 1 = .inl none → Becomes (.sample at_ tag) s c) ∧
      (∀ row, c.rowsOf at_ t d.words (body d.words 4 4) 1 = .inl (some [row]) →
        (sampleBad a [row] = true → Becomes (.sample at_ tag) s (e.engineDone at_ tag (sampleBlock 0x10 0 0 0 0 0))) ∧
        (sampleBad a [row] = false → (f32 a.temp).isZero = true → Yields (.sample at_ tag) s (fun g => ∃ kept,
          (g.sheet at_).request tag = some { d with served := true, block := some (body d.words 0 4, sampleBlock 0 (greedy c.aic row).1 0 (greedy c.aic row).2 kept 0) } ∧
          SameStore c g ∧ g.commands = c.commands)) ∧
        (sampleBad a [row] = false → (f32 a.temp).isZero = false →
          let k := keep c.aic a row
          let token := drawToken c.aic (c.seedOf t) a a.step (k.kept.map (fun x => (x.1, valueOf k.xs x.1)))
          Becomes (.sample at_ tag) s (e.engineDone at_ tag
            (sampleBlock 0 token (Config.samplerLn c.aic (fdivR 0 (valueOf k.kept token) k.z)) (logpFull c.aic k.xs token) k.kept.length 0)))))) ∧
  (∀ (s : State) (at_ : SheetAt) (tag : Nat) (d : DmaReq) (t : Task), s.chip.live = true → s.chip.engineReq at_ tag 0x49 = some (d, t) →
    let c := s.chip
    let a := sampleArgs d.words
    let n := body d.words 44 4
    let drafts := (List.range n).map (fun i => (nth d.words (64 + i) 0).toNat)
    let e := c.bump (R.SMP_CNT at_.ream.val) F.SMP_CNT.SAMPLES 1
    (c.samplerNext at_.ream.val t.cls d.issue = false → Becomes (.verify at_ tag) s c) ∧
    (∀ target draft, c.samplerNext at_.ream.val t.cls d.issue = true → c.rowsOf at_ t d.words (body d.words 4 4) (n + 1) = .inl (some target) →
      c.rowsOf at_ t d.words (body d.words 40 4) n = .inl (some draft) →
      (sampleBad a (target ++ draft) = true → Becomes (.verify at_ tag) s (e.engineDone at_ tag (sampleBlock 0x10 0 0 0 0 0))) ∧
      (sampleBad a (target ++ draft) = false → (f32 a.temp).isZero = true →
        let acc := greedyRun c.aic target drafts
        Yields (.verify at_ tag) s (fun g => ∃ kept, (g.sheet at_).request tag = some { d with served := true, block := some (body d.words 0 4,
          sampleBlock 0 (greedy c.aic (nth target acc [])).1 0 (greedy c.aic (nth target acc [])).2 kept acc) } ∧ SameStore c g ∧ g.commands = c.commands)) ∧
      (sampleBad a (target ++ draft) = false → (f32 a.temp).isZero = false →
        let ps := target.map (keep c.aic a)
        let qs := draft.map (keep c.aic a)
        let acc := acceptRun (c.seedOf t) a ps qs drafts 0
        let r := verifyToken c.aic (c.seedOf t) a ps qs acc n
        Becomes (.verify at_ tag) s ((e.bump (R.SMP_CNT at_.ream.val) F.SMP_CNT.DRAFTS_ACCEPTED acc).engineDone at_ tag
          (sampleBlock 0 r.1 r.2.1 (logpFull c.aic (nth ps acc ⟨[], [], 0⟩).xs r.1) r.2.2 acc))))) ∧
  (∀ (s : State) (at_ : SheetAt) (tag : Nat), s.chip.live = true →
    (((s.chip.sheet at_).request tag = none ∨ ∃ d, (s.chip.sheet at_).request tag = some d ∧ (d.kind < 0x40 ∨ d.served = false ∨ d.lines ≠ [] ∨ d.block = none)) →
      Becomes (.engineResultBlockWrite at_ tag) s (s.chip.pump (sheetKey at_))) ∧
    (∀ d a bs, (s.chip.sheet at_).request tag = some d → 0x40 ≤ d.kind → d.served = true → d.lines = [] → d.block = some (a, bs) →
      Becomes (.engineResultBlockWrite at_ tag) s ((s.chip.updSheet at_ (fun sh =>
        ((sh.result a bs).mkReady (linesOf a ((d.sent.map (fun x => x.2)).getD 0))).dropRequest tag)).pump (sheetKey at_))))

/-- The row of a deferred action changes nothing unless that action heads its command's deferred list, with all tasks committed and drained. An invalid descriptor gives ERR 1 and only that. APPEND gives ERR 3 past the limits and 2 where a page is missing or not open, waits while an object to be sealed lies in another command's range, ends the command past unreadable data, and else adds the tokens and seals the pages that became full. PREFIX_PUBLISH takes pages in order: a page that is absent or not sealed stops with 4, one already in the pool is counted, one for which eviction makes no room stops with 5, and else it enters the pool with one reference and becomes shared. PREFIX_ATTACH refuses a sequence with tokens with 6, and else attaches the keys up to the first miss. SEQ_RELEASE gives up shared pages and resets the counts. WEIGHT_REGISTER waits for other commands, and else digests and seals the object and takes the lowest free index, or answers all ones. DIGEST_COMPLETE digests each slot of a watermarked command that needs it once. -/
def Obligations.CompletionActionsChangeSequencesPoolAndWeights : Prop :=
  (∀ (s : State) (uid : Nat), s.chip.live = true →
    (∀ r ∈ [(Instr.seqAppend uid, 0x50), (.prefixPublish uid, 0x51), (.prefixAttach uid, 0x52), (.seqRelease uid, 0x53), (.weightRegister uid, 0x54)],
      s.chip.headDeferred uid r.2 = none → Becomes r.1 s s.chip) ∧
    (∀ k d, ∀ r ∈ [(Instr.seqAppend uid, 0x50), (.prefixPublish uid, 0x51), (.prefixAttach uid, 0x52), (.seqRelease uid, 0x53)],
      s.chip.headDeferred uid r.2 = some (k, d) →
      let va := s.chip.seqVa uid (body d.words 0 4 / 2 ^ 24, 128 * (body d.words 0 4 % 2 ^ 24))
      s.chip.readSeq k.slot va = none → Becomes r.1 s ((s.chip.seqErr k.slot va 1).popDeferred uid))) ∧
  (∀ (c : Chip) (uid kind : Nat) (k : Command) (d : Deferred), c.headDeferred uid kind = some (k, d) ↔
    c.command uid = some k ∧ k.ending = none ∧ k.committed.length = k.desc.tasks ∧ k.drained = k.desc.tasks ∧ k.fabricOpen = 0 ∧ k.partials = [] ∧
      k.deferred.head? = some d ∧ d.kind = kind) ∧
  (∀ (c : Chip) (uid : Nat) (k : Command), c.command uid = some k → (c.popDeferred uid).command uid = some { k with deferred := k.deferred.drop 1 }) ∧
  (∀ (s : State) (uid : Nat) (k : Command) (d : Deferred) (q : SeqDesc), s.chip.live = true →
    let c := s.chip
    let va := c.seqVa uid (body d.words 0 4 / 2 ^ 24, 128 * (body d.words 0 4 % 2 ^ 24))
    c.readSeq k.slot va = some q →
    (c.headDeferred uid 0x50 = some (k, d) →
      let n := body d.words 4 4
      let p := 2 ^ q.pageLog2
      let full := span (q.tokens / p) ((q.tokens + n) / p)
      let objects := full.map (fun i => (c.pageEntry k.slot q i).1)
      let data := sketchOff q.pageLog2 q.heads q.dim q.kfmt q.vfmt
      let past := q.maxTokens < q.tokens + n ∨ 2 ^ 32 - 1 < q.posBase + (q.tokens + n) - 1
      let ready := ∀ i ∈ span (ceilDiv q.tokens p) (ceilDiv (q.tokens + n) p), i < q.pages ∧ (c.pageEntry k.slot q i).2 = 1
      (past → Becomes (.seqAppend uid) s ((c.seqErr k.slot va 3).popDeferred uid)) ∧
      (¬ past → ¬ ready → Becomes (.seqAppend uid) s ((c.seqErr k.slot va 2).popDeferred uid)) ∧
      (¬ past → ready →
        ((∃ o ∈ objects, c.covered k.slot o q.objectBytes (some uid) = true) → Becomes (.seqAppend uid) s c) ∧
        ((∀ o ∈ objects, c.covered k.slot o q.objectBytes (some uid) = false) →
          ((∃ o ∈ objects, c.poisoned k.slot o data = true) →
            Becomes (.seqAppend uid) s ((objects.foldl (fun (e : Chip) o => e.notePoison k.slot o data) c).actionFails uid)) ∧
          ((∀ o ∈ objects, c.poisoned k.slot o data = false) →
            let r := full.foldl (fun (a : SeqDesc × Chip) i => a.2.sealKvPage k.slot k.desc.step a.1 i) ({ q with tokens := q.tokens + n }, c)
            r.1.tokens = q.tokens + n ∧ r.1.sealed_ = q.sealed_ + full.length ∧
            Becomes (.seqAppend uid) s ((r.2.writeSeq k.slot r.1 0).popDeferred uid))))) ∧
    (c.headDeferred uid 0x51 = some (k, d) →
      let r := c.publish k.slot q d.words (body d.words 4 4) (List.range (body d.words 8 4))
      Becomes (.prefixPublish uid) s ((r.2.writeSeq k.slot q r.1).popDeferred uid)) ∧
    (c.headDeferred uid 0x52 = some (k, d) →
      (q.tokens ≠ 0 → Becomes (.prefixAttach uid) s ((c.writeSeq k.slot q 6).popDeferred uid)) ∧
      (q.tokens = 0 →
        let r := c.attach k.slot q d.words (List.range (body d.words 4 4)) 0 q.chain
        r.1 ≤ body d.words 4 4 ∧
        Becomes (.prefixAttach uid) s ((r.2.2.writeSeq k.slot { q with tokens := r.1 * 2 ^ q.pageLog2, sealed_ := r.1, prefixPages := r.1, chain := r.2.1 } 0).popDeferred uid))) ∧
    (c.headDeferred uid 0x53 = some (k, d) →
      let shared := (List.range (min q.pages (ceilDiv q.tokens (2 ^ q.pageLog2)))).filter (fun i => (c.pageEntry k.slot q i).2 == 3)
      Yields (.seqRelease uid) s (fun e =>
        e = ((shared.foldl (fun (b : Chip) i => (b.pfxDrop k.slot (b.pageEntry k.slot q i).1).setPageEntry k.slot q i (b.pageEntry k.slot q i).1 0) c).writeSeq
          k.slot { q with tokens := 0, sealed_ := 0, prefixPages := 0 } 0).popDeferred uid ∧
        e.pfxPool.length = c.pfxPool.length ∧ e.pages = c.pages ∧ (shared = [] → e.pfxPool = c.pfxPool)))) ∧
  (∀ (c : Chip) (slot : Nat) (q : SeqDesc) (ws : List W32) (f k : Nat) (rest : List Nat),
    let e := c.pageEntry slot q (f + k)
    (q.pages ≤ f + k ∨ e.2 ≠ 2 → c.publish slot q ws f (k :: rest) = (4, c)) ∧
    (f + k < q.pages → e.2 = 2 →
      ((c.pfxFind slot (actionKey ws k) q).isSome = true → c.publish slot q ws f (k :: rest) = (c.bump R.PFX_CNT F.PFX_CNT.DUP 1).publish slot q ws f rest) ∧
      (c.pfxFind slot (actionKey ws k) q = none →
        let b := c.pfxMakeRoom slot e.1 q.objectBytes c.pfxPool.length
        (b.pfxRoom slot e.1 q.objectBytes = false → c.publish slot q ws f (k :: rest) = (5, b.bump R.PFX_CNT F.PFX_CNT.FULL 1)) ∧
        (b.pfxRoom slot e.1 q.objectBytes = true → ∃ g : Chip, c.publish slot q ws f (k :: rest) = (g.setPageEntry slot q (f + k) e.1 3).publish slot q ws f rest ∧
          g.pfxPool = b.pfxPool ++ [⟨slot, actionKey ws k, q.geometry, e.1, b.chainAt slot q (f + k), 1, b.time.uptime⟩] ∧
          (∀ a p, tabGet g.pages a = some p → p.pfx = true ∨ tabGet b.pages a = some p) ∧ g.mem = b.mem)))) ∧
  (∀ (c : Chip) (slot : Nat) (q : SeqDesc) (ws : List W32) (k h : Nat) (rest : List Nat) (ch : List Byte),
    (q.pages ≤ k ∨ c.pfxFind slot (actionKey ws k) q = none → c.attach slot q ws (k :: rest) h ch = (h, ch, c)) ∧
    (∀ e, k < q.pages → c.pfxFind slot (actionKey ws k) q = some e →
      e.slot = slot ∧ e.key = actionKey ws k ∧ e.geometry = q.geometry ∧
      c.attach slot q ws (k :: rest) h ch = (({ c with pfxPool := c.pfxPool.map (fun x => if x = e then { x with refs := x.refs + 1, lastUse := c.time.uptime } else x) } : Chip).setPageEntry
        slot q k e.object 3).attach slot q ws rest (h + 1) e.chain)) ∧
  (∀ (s : State) (uid : Nat) (k : Command) (d : Deferred), s.chip.live = true → s.chip.headDeferred uid 0x54 = some (k, d) →
    let c := s.chip
    let r := k.tensorRange (body d.words 0 4 / 2 ^ 24)
    let l := tabGetD c.weights k.slot []
    (c.covered k.slot r.1 r.2 (some uid) = true → Becomes (.weightRegister uid) s c) ∧
    (c.covered k.slot r.1 r.2 (some uid) = false → c.poisoned k.slot r.1 r.2 = true →
      Becomes (.weightRegister uid) s ((c.notePoison k.slot r.1 r.2).actionFails uid)) ∧
    (∀ i, freeWeight l = some i → i < 4096 ∧ (∀ w ∈ l, w.index ≠ i) ∧ ∀ j < i, ∃ w ∈ l, w.index = j) ∧
    (c.covered k.slot r.1 r.2 (some uid) = false → c.poisoned k.slot r.1 r.2 = false →
      let digest := sha256 (c.treadN k.slot r.1 r.2)
      let keys := ((c.pagesIn k.slot r.1 r.2).filter (fun x => !x.2.radio && !c.rxqOver k.slot (keyVa x.1) (pageBytes x.2.size))).map (fun x => x.1)
      let b := keys.foldl (fun (e : Chip) key => e.sealPage k.slot (keyVa key) k.desc.step) (c.digested (c.homeOf k) r.2)
      let rec_ := (k.tensorRange (body d.words 4 4 / 2 ^ 24)).1 + 16 * (body d.words 4 4 % 2 ^ 24)
      b.weights = c.weights ∧
      (∀ i, freeWeight l = some i → Becomes (.weightRegister uid) s ((({ b with weights := tabPut c.weights k.slot (l ++ [(⟨i, r.1, r.2, digest⟩ : Weight)]) } : Chip).twrite k.slot rec_
        (bytesLE 4 i ++ List.replicate 4 0 ++ digest ++ List.replicate 8 0)).popDeferred uid)) ∧
      (freeWeight l = none → Becomes (.weightRegister uid) s ((b.twrite k.slot rec_ (bytesLE 4 0xFFFFFFFF ++ List.replicate 4 0 ++ digest ++ List.replicate 8 0)).popDeferred uid)))) ∧
  (∀ (s : State) (uid : Nat) (i : Fin 8), s.chip.live = true →
    let c := s.chip
    (c.command uid = none → Becomes (.digestComplete uid i) s c) ∧
    (∀ k, c.command uid = some k →
      let r := k.tensorRange i.val
      (k.desc.flags.testBit 0 = false ∨ (c.digestSlots k).contains i.val = false ∨ (∃ x ∈ k.digests, x.1 = i.val) ∨ k.ending.isSome = true →
        Becomes (.digestComplete uid i) s c) ∧
      (k.desc.flags.testBit 0 = true → (c.digestSlots k).contains i.val = true → (∀ x ∈ k.digests, x.1 ≠ i.val) → k.ending = none →
        (c.poisoned k.slot r.1 r.2 = true → Becomes (.digestComplete uid i) s ((c.notePoison k.slot r.1 r.2).actionFails uid)) ∧
        (c.poisoned k.slot r.1 r.2 = false → Yields (.digestComplete uid i) s (fun e =>
          e.command uid = some { k with digests := k.digests ++ [(i.val, sha256 (c.treadN k.slot r.1 r.2))] } ∧
          (∀ j, j ≠ uid → e.command j = c.command j) ∧ SameStore c e ∧ e.weights = c.weights)))))

/-- A MAP_CMD row changes nothing of the mappings for a requester without access, before stage 2, while an operation runs, or where the staged complements do not match, which sets ERR 1 and raises INTEGRITY. A refused operation leaves the mappings and sets its reason. MAP enters zeroed T2 pages with the attributes staged; PROTECT sets READ and WRITE; PIN and UNPIN change PIN, which a radio page keeps; each ends with ERR 0. An operation that removes access sets BUSY and waits. When no request, migration or other command covers the range, it is checked again and takes effect: UNMAP frees the tenant's own pages and their data, SEAL and UNSEAL change SEALED, the latter in T2. After 10 ms behind a command it changes nothing and sets ERR 4, or refuses every page of its deferred request. READ puts the mapping of the first page into the staging words, or ERR 2. -/
def Obligations.MappingOperationsRunAsStaged : Prop :=
  (∀ (s : State) (r : Requester), s.chip.live = true → s.chip.reaches r = true →
    let d := s.chip.supersede r
    let staged := d.reg (R.MAP_STAGE 2) = ~~~ (d.reg (R.MAP_STAGE 0)) ∧ d.reg (R.MAP_STAGE 3) = ~~~ (d.reg (R.MAP_STAGE 1))
    (∀ i ∈ [Instr.map r, .unmap r, .protect r, .mapSeal r, .mapUnseal r, .pin r, .unpin r, .mapRead r],
      (mayReachBar0 r = false ∨ (d.early r = false ∧ d.flag R.MAP_STAT F.MAP_STAT.BUSY = true) → Becomes i s d) ∧
      (mayReachBar0 r = true → d.early r = true → Becomes i s d.noteEarly) ∧
      (mayReachBar0 r = true → d.early r = false → d.flag R.MAP_STAT F.MAP_STAT.BUSY = false → ¬ staged → Becomes i s ((d.integrity atChip).mapResult 1))) ∧
    (mayReachBar0 r = true → d.early r = false → d.flag R.MAP_STAT F.MAP_STAT.BUSY = false → staged →
      (∀ x ∈ [(Instr.map r, 1), (.unmap r, 2), (.protect r, 3), (.mapSeal r, 4), (.mapUnseal r, 5), (.pin r, 6), (.unpin r, 7)],
        let m := d.stagedMap x.2 (d.origin r)
        (d.opErr m ≠ 0 → Yields x.1 s (fun c => c.pages = d.pages ∧ c.mem = d.mem ∧ c.mapRun = d.mapRun ∧ c.migrations = d.migrations ∧
          c = (d.mapRefuse m (d.opErr m)).mapResult (d.opErr m))) ∧
        (d.opErr m = 0 → d.removes m = true → Yields x.1 s (fun c => c.pages = d.pages ∧ c.mem = d.mem ∧ c.flag R.MAP_STAT F.MAP_STAT.BUSY = true ∧
          c.mapRun = some ⟨m.op, m.slot, m.va, m.size, m.count, m.attrs, m.origin, d.time.uptime, none⟩)) ∧
        (d.opErr m = 0 → d.removes m = false → Becomes x.1 s (((d.logMap m).doOp m).mapResult 0) ∧ (d.logMap m).pages = d.pages ∧ (d.logMap m).mem = d.mem)) ∧
      (let m := d.stagedMap 8 (d.origin r)
       (d.pageAt m.slot m.va = none → Becomes (.mapRead r) s (d.mapResult 2)) ∧
       (∀ k p, d.pageAt m.slot m.va = some (k, p) → Yields (.mapRead r) s (fun c =>
         c.reg (R.MAP_STAGE 0) = BitVec.ofNat 64 (keyVa k / 4096 * 4096 + p.size * 1024) ∧
         c.reg (R.MAP_STAGE 1) = (pageWords m.slot (keyVa k) p m.count).2 ∧ c.pages = d.pages ∧ c.mem = d.mem))))) ∧
  (∀ (c : Chip) (err : Nat), (c.mapResult err).pages = c.pages ∧ (c.mapResult err).mem = c.mem ∧
    (err < 16 → (c.mapResult err).fld R.MAP_STAT F.MAP_STAT.ERR = err)) ∧
  (∀ (c : Chip) (m : MapOp), m.va % pageBytes m.size ≠ 0 ∨ 2 ^ 57 < m.va + m.bytes → c.opErr m = 7) ∧
  (∀ (c : Chip) (m : MapOp), m.op = 1 → m.va % pageBytes m.size = 0 → m.va + m.bytes ≤ 2 ^ 57 →
    (fget m.attrs mapHome = 5 ∨ fget m.attrs mapHome = 6 → c.opErr m = 7) ∧
    (c.opErr m = 0 → c.pagesIn m.slot m.va m.bytes = [] ∧ c.slotState m.slot = 1 ∧
      (fget m.attrs mapRadio = 0 → c.quotaRoom m.slot 0 m.bytes = true ∧ m.bytes ≤ c.t2Free)) ∧
    (∀ i < m.count, tabGet (c.doOp m).pages (devKey m.slot (m.va + i * pageBytes m.size)) = some
      ⟨m.size, fget m.attrs mapRead_ != 0, fget m.attrs mapWrite != 0, false, fget m.attrs mapRadio != 0 || fget m.attrs mapPin != 0, fget m.attrs mapRadio != 0,
        false, fget m.attrs mapHome, .t2 (c.homeReam m i), 0, 0⟩) ∧
    (∀ k, (∀ i < m.count, k ≠ devKey m.slot (m.va + i * pageBytes m.size)) → tabGet (c.doOp m).pages k = tabGet c.pages k) ∧
    (∀ a, memGet (c.doOp m).mem a = if devKey m.slot m.va ≤ a ∧ a < devKey m.slot m.va + m.bytes then 0 else memGet c.mem a) ∧
    (∀ i, (fget m.attrs mapHome < 4 → c.homeReam m i = fget m.attrs mapHome) ∧ (fget m.attrs mapHome = 4 → c.homeReam m i = i % 4))) ∧
  (∀ (c : Chip) (m : MapOp), 2 ≤ m.op → m.op ≤ 7 → m.va + m.bytes ≤ 2 ^ 57 →
    (m.va % pageBytes m.size = 0 → (∃ a ∈ m.vas, c.pageExact m.slot m.size a = none) → c.opErr m = 2) ∧
    (∀ i < m.count, ∀ p, c.pageExact m.slot m.size (m.va + i * pageBytes m.size) = some p →
      let k := devKey m.slot (m.va + i * pageBytes m.size)
      let after := tabGet (c.doOp m).pages k
      (m.op = 2 → (p.pfx = false → after = none ∧ ∀ a, k ≤ a → a < k + pageBytes p.size → memGet (c.doOp m).mem a = 0) ∧ (p.pfx = true → after = some p)) ∧
      (m.op = 3 → after = some { p with read := fget m.attrs mapRead_ != 0, write := fget m.attrs mapWrite != 0 }) ∧
      (m.op = 4 → after = some { p with sealed_ := true }) ∧
      (m.op = 5 → ∃ q, after = some q ∧ q.sealed_ = false ∧ q.read = p.read ∧ q.write = p.write ∧ (p.sealed_ = true → q.tier = some 0)) ∧
      (m.op = 6 → after = some { p with pin := true }) ∧
      (m.op = 7 → after = some { p with pin := p.radio })) ∧
    (∀ k, (∀ i < m.count, k ≠ devKey m.slot (m.va + i * pageBytes m.size)) → tabGet (c.doOp m).pages k = tabGet c.pages k)) ∧
  (∀ (c : Chip) (m : MapOp) (p : Page) (i : Nat), i < m.count → m.va % pageBytes m.size = 0 → m.va + m.bytes ≤ 2 ^ 57 → c.allMapped m = true →
    c.pageExact m.slot m.size (m.va + i * pageBytes m.size) = some p →
    (m.op = 3 → fget m.attrs mapWrite ≠ 0 → p.sealed_ = true → c.opErr m = 5) ∧
    (m.op = 4 → p.radio = true → c.opErr m = 5) ∧
    (m.op = 5 → p.sealed_ = true → c.unsealBarred m.slot (m.va + i * pageBytes m.size) p = true → c.opErr m = 5)) ∧
  (∀ s : State, s.chip.live = true → s.chip.mapRun = none → Becomes .mappingChangeComplete s s.chip ∧ Becomes .mappingChangeTimeout s s.chip) ∧
  (∀ (s : State) (m : MapRun), s.chip.live = true → s.chip.mapRun = some m →
    let c := s.chip
    let n := m.count * pageBytes m.size
    (c.runReady m = false → Becomes .mappingChangeComplete s c) ∧
    (c.runReady m = true → m.cmd ≠ none → Becomes .mappingChangeComplete s c.endRun) ∧
    (c.runReady m = true → m.cmd = none →
      (c.endRun.opErr m.toOp = 0 → Becomes .mappingChangeComplete s ((c.endRun.doOp m.toOp).mapResult 0)) ∧
      (c.endRun.opErr m.toOp ≠ 0 → Becomes .mappingChangeComplete s ((c.endRun.mapRefuse m.toOp (c.endRun.opErr m.toOp)).mapResult (c.endRun.opErr m.toOp)))) ∧
    (c.time.uptime < m.started + 10000000 ∨ c.covered m.slot m.va n m.cmd = false → Becomes .mappingChangeTimeout s c) ∧
    (m.started + 10000000 ≤ c.time.uptime → c.covered m.slot m.va n m.cmd = true →
      (m.cmd = none → Becomes .mappingChangeTimeout s (c.endRun.mapResult 4)) ∧
      (∀ uid k d, m.cmd = some uid → c.command uid = some k → k.deferred.head? = some d → Yields .mappingChangeTimeout s (fun e =>
        ∃ w, e = ((({ c.endRun with freeCtr := c.freeCtr + 1 } : Chip).tierRecord k (tierReq k d) 0 (c.pagesIn k.slot (tierReq k d).va (tierReq k d).n).length (w % 256)).popDeferred uid))))) ∧
  (∀ c : Chip, c.endRun.mapRun = none ∧ c.endRun.flag R.MAP_STAT F.MAP_STAT.BUSY = false ∧ c.endRun.pages = c.pages ∧ c.endRun.mem = c.mem)

/-- A deferred tier row changes nothing unless its request heads the command's list. SEAL and UNSEAL wait while an operation runs, and start one where another command covers the range; otherwise each page is done or refused with its reason, the record holds the counts and the first reason, and the request is done. HINT asks for migrations or changes PIN. At an interval, with nothing to evacuate, a page goes to T2 only with PROMOTE_HITS reads from T3 or T4, and down only sealed, not radio, and of a tenant only unpinned above DEMOTE_AT; without MIG_EN none moves; reads count anew. A completed copy switches the page; a failed or poisoned one, or one without room, leaves it. HOST_POOL and TIER_CFG writes are stored or refused as a whole; a disabled region that holds pages drains until it holds none. REQUEST_AGE_FORCE counts where the ream has an unserved request. -/
def Obligations.TierRequestsAreRecordedAndPagesMigrate : Prop :=
  (∀ (s : State) (uid : Nat), s.chip.live = true →
    (∀ x ∈ [(Instr.tierSeal uid, 0x58), (.tierUnseal uid, 0x59), (.tierHint uid, 0x5A)], s.chip.headDeferred uid x.2 = none → Becomes x.1 s s.chip) ∧
    (∀ k d, ∀ x ∈ [(Instr.tierSeal uid, 0x58, 4), (.tierUnseal uid, 0x59, 5)], s.chip.headDeferred uid x.2.1 = some (k, d) →
      let q := tierReq k d
      (s.chip.mapRun ≠ none → Becomes x.1 s s.chip) ∧
      (s.chip.mapRun = none → s.chip.covered k.slot q.va q.n (some uid) = true → Becomes x.1 s
        { (s.chip.mark R.MAP_STAT F.MAP_STAT.BUSY) with mapRun := some ⟨x.2.2, k.slot, q.va, 0, q.n / 4096, 0, k.slot + 2, s.chip.time.uptime, some uid⟩ }) ∧
      (s.chip.mapRun = none → s.chip.covered k.slot q.va q.n (some uid) = false → s.chip.wholePages k.slot q.va q.n = none →
        Becomes x.1 s ((s.chip.tierRecord k q 0 0 0).popDeferred uid)) ∧
      (∀ ps, s.chip.mapRun = none → s.chip.covered k.slot q.va q.n (some uid) = false → s.chip.wholePages k.slot q.va q.n = some ps →
        let act := if x.2.2 = 4 then sealAct k.slot k.desc.step else unsealAct k.slot
        let e := s.chip.tierEach ps act
        e.1.1 + e.1.2.1 = ps.length ∧ (e.1.2.1 = 0 ↔ e.1.2.2 = 0) ∧
        Becomes x.1 s (((e.2.logMap ⟨x.2.2, k.slot, q.va, (ps.head?.map (fun y => y.2.size)).getD 0, ps.length, 0, k.slot + 2⟩).tierRecord k q e.1.1 e.1.2.1 e.1.2.2).popDeferred uid))) ∧
    (∀ k d, s.chip.headDeferred uid 0x5A = some (k, d) →
      let q := tierReq k d
      (2 ≤ q.action → s.chip.mapRun ≠ none → Becomes (.tierHint uid) s s.chip) ∧
      (∀ ps, q.action < 2 → s.chip.wholePages k.slot q.va q.n = some ps →
        let e := s.chip.tierEach ps (hintAct q.action k.slot)
        e.1.1 + e.1.2.1 = ps.length ∧ e.2.pages = s.chip.pages ∧ Becomes (.tierHint uid) s ((e.2.tierRecord k q e.1.1 e.1.2.1 e.1.2.2).popDeferred uid)) ∧
      (∀ ps, 2 ≤ q.action → s.chip.mapRun = none → s.chip.wholePages k.slot q.va q.n = some ps →
        let e := s.chip.tierEach ps (hintAct q.action k.slot)
        e.1.1 + e.1.2.1 = ps.length ∧ Becomes (.tierHint uid) s
          (((e.2.logMap ⟨q.action + 4, k.slot, q.va, (ps.head?.map (fun y => y.2.size)).getD 0, ps.length, 0, k.slot + 2⟩).tierRecord k q e.1.1 e.1.2.1 e.1.2.2).popDeferred uid)))) ∧
  (∀ (c : Chip) (slot step va : Nat) (p : Page),
    (p.radio = true ∨ c.rxqOver slot va (pageBytes p.size) = true → sealAct slot step c va p = (1, c)) ∧
    (p.radio = false → c.rxqOver slot va (pageBytes p.size) = false → sealAct slot step c va p = (0, c.sealPage slot va step)) ∧
    (p.sealed_ = false → unsealAct slot c va p = (0, c)) ∧
    (p.sealed_ = true → c.unsealBarred slot va p = true → (unsealAct slot c va p).1 = 1 ∧ (unsealAct slot c va p).2.pages = c.pages) ∧
    (p.sealed_ = true → c.unsealBarred slot va p = false → p.tier = some 0 → unsealAct slot c va p = (0, c.unsealPage slot va)) ∧
    (p.sealed_ = true → c.unsealBarred slot va p = false → p.tier ≠ some 0 →
      (c.quotaRoom slot 0 (pageBytes p.size) = false → (unsealAct slot c va p).1 = 2 ∧ (unsealAct slot c va p).2.pages = c.pages) ∧
      (c.quotaRoom slot 0 (pageBytes p.size) = true → c.t2Free < pageBytes p.size → unsealAct slot c va p = (3, c)) ∧
      (c.quotaRoom slot 0 (pageBytes p.size) = true → pageBytes p.size ≤ c.t2Free → unsealAct slot c va p = (0, c.unsealPage slot va))) ∧
    ((hintAct 0 slot c va p).1 = 0 → p.tier = some 1 ∨ (p.sealed_ = true ∧ p.radio = false ∧ p.pfx = false ∧ c.quotaRoom slot 1 (pageBytes p.size) = true ∧
      ∃ pl ∈ t3Places, c.placeRoom pl (pageBytes p.size) = true ∧ hintAct 0 slot c va p = (0, c.startMigration (devKey slot va) pl))) ∧
    ((hintAct 1 slot c va p).1 = 0 → p.tier = some 0 ∨ (p.isRevoked = false ∧ c.quotaRoom slot 0 (pageBytes p.size) = true ∧ pageBytes p.size ≤ c.t2Free ∧
      hintAct 1 slot c va p = (0, c.startMigration (devKey slot va) (c.homePlace p)))) ∧
    (tabGet c.pages (devKey slot va) = some p → tabGet (hintAct 2 slot c va p).2.pages (devKey slot va) = some { p with pin := true } ∧
      tabGet (hintAct 3 slot c va p).2.pages (devKey slot va) = some { p with pin := p.radio })) ∧
  (∀ s : State, s.chip.live = true → (∀ h < 8, s.chip.flag (R.HOST_POOL_STAT h) F.HOST_POOL_STAT.DRAINING = false) →
    (∀ w < 16, s.chip.borrowState w ≠ 3) → Yields .migrationInterval s (fun c =>
      c.interval = s.chip.interval + 1 ∧ c = { s.chip with interval := c.interval, pages := c.pages, migrations := c.migrations } ∧
      (∀ k, tabGet c.pages k = (tabGet s.chip.pages k).map (fun p => { p with reads := 0 })) ∧
      (s.chip.flag R.TIER_CFG F.TIER_CFG.MIG_EN = false → c.migrations = s.chip.migrations) ∧
      (∀ g ∈ c.migrations, g ∉ s.chip.migrations → ∃ p, (g.key, p) ∈ s.chip.pages ∧
        ((∃ r, g.goal = .t2 r) → s.chip.fld R.MIG_CFG F.MIG_CFG.PROMOTE_HITS ≤ p.reads ∧ (p.tier = some 1 ∨ p.tier = some 2)) ∧
        ((∀ r, g.goal ≠ .t2 r) → p.tier = some 0 ∧ g.goal ∈ t3Places ++ t4Places ∧ (p.pfx = true → g.goal ∈ t3Places) ∧
          (p.pfx = false → p.sealed_ = true ∧ p.pin = false ∧ p.radio = false ∧
            s.chip.tierQuota (keySlot g.key) 0 * s.chip.fld R.MIG_CFG F.MIG_CFG.DEMOTE_AT <
              (s.chip.tierUse (keySlot g.key) 0 - s.chip.outboundT2 (keySlot g.key)) * 100))))) ∧
  (∀ (s : State) (slot : Fin 64) (va : Nat) (ok : Bool), s.chip.live = true → va < 2 ^ 57 →
    let c := s.chip
    let key := devKey slot.val va
    let going := c.migrations.find? (fun g => g.key == key)
    let rest := c.migrations.filter (fun g => g.key != key)
    (going = none ∨ tabGet c.pages key = none → Becomes (.pageMigrationComplete slot va ok) s c) ∧
    (∀ g p, going = some g → tabGet c.pages key = some p →
      let d : Chip := { c with migrations := rest }
      (ok = false → c.pagePoisoned key p = false → Becomes (.pageMigrationComplete slot va ok) s (d.bump R.TIER_CNT2 F.TIER_CNT2.MIG_UE 1)) ∧
      (c.pagePoisoned key p = true → Becomes (.pageMigrationComplete slot va ok) s
        (((d.bump R.TIER_CNT2 F.TIER_CNT2.MIG_UE 1).notePoison slot.val va (pageBytes p.size)).softError atChip 0x06 .dataUncorrectable)) ∧
      (ok = true → c.pagePoisoned key p = false → d.destOk slot.val p g.goal = false → Becomes (.pageMigrationComplete slot va ok) s d) ∧
      (ok = true → c.pagePoisoned key p = false → d.destOk slot.val p g.goal = true → Yields (.pageMigrationComplete slot va ok) s (fun e =>
        e.pages = tabPut c.pages key { p with place := g.goal } ∧ e.migrations = rest ∧ e.mem = c.mem ∧ e.host = c.host)))) ∧
  (∀ (s : State) (r : Requester) (h : Fin 8) (v : W64), s.chip.live = true → s.chip.reaches r = true → mayReachBar0 r = true → s.chip.early r = false →
    let old := s.chip.reg (R.HOST_POOL h.val)
    let new := regWrite .HOST_POOL 0 v
    let en := fget new F.HOST_POOL.ENABLE ≠ 0
    let holds := s.chip.pages.any (fun x => x.2.place == .hostPool h.val)
    (en → fget new F.HOST_POOL.SIZE_GIB = 0 → Yields (.hostPoolWrite r h v (~~~ v)) s (fun c => c.reg (R.HOST_POOL h.val) = old ∧
      c.flag R.TIER_STAT F.TIER_STAT.CFG_REFUSED = true ∧ c.migrations = s.chip.migrations ∧ c.pages = s.chip.pages)) ∧
    (¬ (en ∧ fget new F.HOST_POOL.SIZE_GIB = 0) → Yields (.hostPoolWrite r h v (~~~ v)) s (fun c => c.reg (R.HOST_POOL h.val) = new ∧ c.pages = s.chip.pages ∧
      (fget old F.HOST_POOL.ENABLE ≠ 0 → ¬ en → holds = true → c.flag (R.HOST_POOL_STAT h.val) F.HOST_POOL_STAT.DRAINING = true ∧
        (∀ g ∈ c.migrations, g ∉ s.chip.migrations → ∃ p, (g.key, p) ∈ s.chip.pages ∧ p.place = .hostPool h.val ∧ g.goal ≠ .hostPool h.val)) ∧
      (fget old F.HOST_POOL.ENABLE = 0 ∨ en ∨ holds = false → c.migrations = s.chip.migrations))) ∧
    (∀ k, k ≠ ~~~ v → Yields (.hostPoolWrite r h v k) s (fun c => c.reg (R.HOST_POOL h.val) = old ∧
      tabGetD c.health.counts 9 0 = tabGetD s.chip.health.counts 9 0 + 1 ∧ c.pages = s.chip.pages ∧ c.migrations = s.chip.migrations)) ∧
    (holds = true → Becomes (.hostPoolRelease h) s s.chip) ∧
    (holds = false → Becomes (.hostPoolRelease h) s (s.chip.setFlag (R.HOST_POOL_STAT h.val) F.HOST_POOL_STAT.DRAINING false))) ∧
  (∀ (s : State) (r : Requester) (v : W64), s.chip.live = true → s.chip.reaches r = true → mayReachBar0 r = true → s.chip.early r = false →
    let old := s.chip.reg R.TIER_CFG
    let gib := fget v F.TIER_CFG.RADIO_T2_GIB
    let ok := regFits .TIER_CFG v = true ∧ (fget old F.TIER_CFG.RADIO_T2_GIB ≤ gib ∨ ∀ ream ∈ s.chip.reamList, s.chip.reamLoad ream ≤ 256 * (gib / 4))
    (ok → Yields (.tierCfgWrite r v (~~~ v)) s (fun c => c.reg R.TIER_CFG = regWrite .TIER_CFG old v ∧ c.pages = s.chip.pages)) ∧
    (¬ ok → Yields (.tierCfgWrite r v (~~~ v)) s (fun c => c.reg R.TIER_CFG = old ∧ c.flag R.TIER_STAT F.TIER_STAT.CFG_REFUSED = true)) ∧
    (∀ k, k ≠ ~~~ v → Yields (.tierCfgWrite r v k) s (fun c => c.reg R.TIER_CFG = old ∧ tabGetD c.health.counts 9 0 = tabGetD s.chip.health.counts 9 0 + 1))) ∧
  (∀ (s : State) (ream : Fin 4), s.chip.live = true →
    let held := s.chip.sheets.any (fun x => keyQuire x.1 / 8 == ream.val && x.2.dma.any (fun d => !d.served))
    (held = true → Becomes (.requestAgeForce ream) s (s.chip.bump (R.MSCHED_CNT ream.val) F.MSCHED_CNT.AGE_FORCED 1)) ∧
    (held = false → Becomes (.requestAgeForce ream) s s.chip))

/-- A write of LEND_WIN.ENABLE on a free window with a size from 1 to 16 GiB makes it offered where free T2 has the size, and is refused with CFG_REFUSED otherwise. BORROW_WIN.ENABLE makes the window connect and sends the connection, and the lender's acceptance makes it in use; clearing it frees an empty window and evacuates one with pages. A request with the wrong source or key, into a free window, past its size, or of another kind is denied and counted; a connection makes an offered window lent; writes and reads of a lent window are served. RECALL of a lent window sends the deadline of chip time + 100 ms. A recall makes the borrower evacuate; an empty window sends done and is off; the lender frees a recalled window on done or at its deadline, when the borrower revokes every page left, counts them and drops their migrations. -/
def Obligations.WindowsAreLentBorrowedAndRecalled : Prop :=
  (∀ (s : State) (r : Requester) (w : Fin 16), s.chip.live = true → s.chip.reaches r = true →
    let d := s.chip.supersede r
    (∀ i ∈ [Instr.lendWinEnable r w, .lendRecall r w, .borrowConnect r w, .borrowRelease r w],
      (mayReachBar0 r = false → Becomes i s d) ∧ (mayReachBar0 r = true → d.early r = true → Becomes i s d.noteEarly)) ∧
    (mayReachBar0 r = true → d.early r = false →
      let c := d
      let size := c.fld (R.LEND_WIN0 w.val) F.LEND_WIN0.SIZE_GIB
      let bsize := c.fld (R.BORROW_WIN0 w.val) F.BORROW_WIN0.SIZE_GIB
      (c.flag (R.LEND_WIN0 w.val) F.LEND_WIN0.ENABLE = false →
        (size = 0 ∨ 16 < size ∨ c.t2Free < size * 2 ^ 30 → Yields (.lendWinEnable r w) s (fun e => e.flag R.TIER_STAT F.TIER_STAT.CFG_REFUSED = true ∧
          e.reg (R.LEND_WIN0 w.val) = c.reg (R.LEND_WIN0 w.val) ∧ e.lendState w.val = c.lendState w.val ∧ e.lend = c.lend)) ∧
        (0 < size → size ≤ 16 → size * 2 ^ 30 ≤ c.t2Free → c.flag (R.LEND_WIN0 w.val) F.LEND_WIN0.RECALL = false → Yields (.lendWinEnable r w) s (fun e =>
          e.flag (R.LEND_WIN0 w.val) F.LEND_WIN0.ENABLE = true ∧ e.fld (R.LEND_WIN0 w.val) F.LEND_WIN0.SIZE_GIB = size ∧ e.lendState w.val = 1 ∧ e.lend = c.lend ∧ e.pages = c.pages))) ∧
      (c.flag (R.LEND_WIN0 w.val) F.LEND_WIN0.ENABLE = true → size ≤ 16 → 0 < size → c.lendState w.val = 2 → c.flag (R.LEND_WIN0 w.val) F.LEND_WIN0.RECALL = false →
        Yields (.lendRecall r w) s (fun e => e.lendState w.val = 3 ∧ (e.lendWin w.val).deadline = some (c.taiNs + 100000000) ∧
          (e.lendWin w.val).data = (c.lendWin w.val).data ∧
          e.out.head? = some (.lendMsg (c.fld (R.LEND_WIN0 w.val) F.LEND_WIN0.BORROWER) w.val (.recalled (c.taiNs + 100000000))))) ∧
      (c.flag (R.BORROW_WIN0 w.val) F.BORROW_WIN0.ENABLE = false → 0 < bsize → bsize ≤ 16 → Yields (.borrowConnect r w) s (fun e =>
        e.flag (R.BORROW_WIN0 w.val) F.BORROW_WIN0.ENABLE = true ∧ e.borrowState w.val = 1 ∧ e.pages = c.pages ∧
        e.out.head? = some (.lendMsg (c.fld (R.BORROW_WIN0 w.val) F.BORROW_WIN0.LENDER) (c.fld (R.BORROW_WIN0 w.val) F.BORROW_WIN0.LENDER_WIN)
          (.connect (BitVec.ofNat 32 (c.fld (R.BORROW_WIN1 w.val) F.BORROW_WIN1.KEY)))))) ∧
      (c.flag (R.BORROW_WIN0 w.val) F.BORROW_WIN0.ENABLE = false → bsize = 0 ∨ 16 < bsize → Yields (.borrowConnect r w) s (fun e =>
        e.flag R.TIER_STAT F.TIER_STAT.CFG_REFUSED = true ∧ e.reg (R.BORROW_WIN0 w.val) = c.reg (R.BORROW_WIN0 w.val) ∧ e.borrowState w.val = c.borrowState w.val)) ∧
      (c.flag (R.BORROW_WIN0 w.val) F.BORROW_WIN0.ENABLE = true → bsize ≤ 16 →
        (c.windowHolds w.val = false → Yields (.borrowRelease r w) s (fun e => e.flag (R.BORROW_WIN0 w.val) F.BORROW_WIN0.ENABLE = false ∧ e.borrowState w.val = 0 ∧
          e.borrowDeadline w.val = none ∧ e.migrations = c.migrations)) ∧
        (c.windowHolds w.val = true → Yields (.borrowRelease r w) s (fun e => e.flag (R.BORROW_WIN0 w.val) F.BORROW_WIN0.ENABLE = false ∧ e.borrowState w.val = 3 ∧
          e.borrow = c.borrow ∧ e.pages = c.pages ∧ (∀ g ∈ e.migrations, g ∉ c.migrations → ∃ p, (g.key, p) ∈ c.pages ∧ p.place = .t4 w.val)))))) ∧
  (∀ (s : State) (w : Fin 16) (src : W16) (key : W32), s.chip.live = true →
    let c := s.chip
    let size := c.fld (R.LEND_WIN0 w.val) F.LEND_WIN0.SIZE_GIB * 2 ^ 30
    let known := c.lendState w.val ≠ 0 ∧ src.toNat = c.fld (R.LEND_WIN0 w.val) F.LEND_WIN0.BORROWER ∧ key.toNat = c.fld (R.LEND_WIN1 w.val) F.LEND_WIN1.KEY
    let denied := fun (kind : LendKind) => Yields (.lendRequest w src key kind) s (fun e => e.lend = c.lend ∧ e.lendState w.val = c.lendState w.val ∧
      e.fld (R.LEND_STAT w.val) F.LEND_STAT.DENIED = min (fmax F.LEND_STAT.DENIED) (c.fld (R.LEND_STAT w.val) F.LEND_STAT.DENIED + 1) ∧
      e.out.head? = some (.lendMsg src.toNat w.val .denied))
    (¬ known → ∀ kind, denied kind) ∧
    (known → denied .otherWrite ∧
      (c.lendState w.val = 1 → Yields (.lendRequest w src key .connect) s (fun e => e.lendState w.val = 2 ∧ e.out.head? = some (.lendMsg src.toNat w.val .accepted) ∧ e.lend = c.lend) ∧
        ∀ off n data, denied (.engineWrite off data) ∧ denied (.read off n)) ∧
      (c.lendState w.val ≠ 1 → denied .connect ∧
        ∀ off n data, (size < off + data.length → denied (.engineWrite off data)) ∧ (size < off + n → denied (.read off n)) ∧
          (off + data.length ≤ size → Yields (.lendRequest w src key (.engineWrite off data)) s (fun e => (e.lendWin w.val).data = memWrite (c.lendWin w.val).data off data ∧
            (e.lendWin w.val).deadline = (c.lendWin w.val).deadline ∧ (∀ j, j ≠ w.val → e.lendWin j = c.lendWin j) ∧ e.regs = c.regs ∧ e.mem = c.mem)) ∧
          (off + n ≤ size → Yields (.lendRequest w src key (.read off n)) s (fun e =>
            e.out.head? = some (.lendMsg src.toNat w.val (.data (memRead (c.lendWin w.val).data off n))) ∧ e = { c with out := e.out }))))) ∧
  (∀ (s : State) (w : Fin 16), s.chip.live = true →
    let c := s.chip
    let freed := fun (e : Chip) => e.lendState w.val = 0 ∧ e.lendWin w.val = ⟨none, [], []⟩ ∧ e.flag (R.LEND_WIN0 w.val) F.LEND_WIN0.RECALL = false ∧
      (∀ j, j ≠ w.val → e.lendWin j = c.lendWin j) ∧ e.pages = c.pages
    (c.lendState w.val ≠ 3 → Becomes (.doneReceive w) s c ∧ Becomes (.recallDeadline .lender w) s c) ∧
    (c.lendState w.val = 3 → Yields (.doneReceive w) s freed) ∧
    ((c.lendWin w.val).deadline = none → Becomes (.recallDeadline .lender w) s c) ∧
    (∀ t, c.lendState w.val = 3 → (c.lendWin w.val).deadline = some t → (t ≤ c.taiNs → Yields (.recallDeadline .lender w) s freed) ∧
      (c.taiNs < t → Becomes (.recallDeadline .lender w) s c)) ∧
    (c.borrowState w.val ≠ 1 → Becomes (.borrowWinInUse w) s c) ∧
    (c.borrowState w.val = 1 → Yields (.borrowWinInUse w) s (fun e => e.borrowState w.val = 2 ∧ e = { c with regs := e.regs, out := e.out })) ∧
    (c.borrowState w.val ≠ 3 ∨ c.windowHolds w.val = true → Becomes (.evacuationDone w) s c) ∧
    (c.borrowState w.val = 3 → c.windowHolds w.val = false → Yields (.evacuationDone w) s (fun e => e.borrowState w.val = 0 ∧ e.borrowDeadline w.val = none ∧
      e.out.head? = some (.lendMsg (c.fld (R.BORROW_WIN0 w.val) F.BORROW_WIN0.LENDER) (c.fld (R.BORROW_WIN0 w.val) F.BORROW_WIN0.LENDER_WIN) .done))) ∧
    (∀ t < 2 ^ 64, (c.borrowState w.val ≠ 2 → c.borrowState w.val ≠ 3 → Becomes (.recallReceive w t) s c) ∧
      (c.borrowState w.val = 2 ∨ c.borrowState w.val = 3 → Yields (.recallReceive w t) s (fun e => e.borrowState w.val = 3 ∧ e.borrowDeadline w.val = some t ∧ e.pages = c.pages ∧
        (∀ g ∈ e.migrations, g ∉ c.migrations → ∃ p, (g.key, p) ∈ c.pages ∧ p.place = .t4 w.val ∧ ∀ j, g.goal ≠ .t4 j)))) ∧
    (c.borrowState w.val ≠ 3 ∨ c.borrowDeadline w.val = none → Becomes (.recallDeadline .borrower w) s c) ∧
    (∀ t, c.borrowState w.val = 3 → c.borrowDeadline w.val = some t →
      (c.taiNs < t → Becomes (.recallDeadline .borrower w) s c) ∧
      (t ≤ c.taiNs →
        let lost := (c.pages.filter (fun x => x.2.place == .t4 w.val)).map (fun x => x.1)
        Yields (.recallDeadline .borrower w) s (fun e => e.borrowState w.val = 4 ∧ e.borrowDeadline w.val = none ∧
        e.pages = c.pages.map (fun x => if x.2.place = .t4 w.val then (x.1, { x.2 with place := .revoked }) else x) ∧
        (∀ g ∈ e.migrations, g ∈ c.migrations ∧ g.key ∉ lost) ∧
        e.fld (R.BORROW_STAT w.val) F.BORROW_STAT.REVOKED = min (fmax F.BORROW_STAT.REVOKED) (c.fld (R.BORROW_STAT w.val) F.BORROW_STAT.REVOKED + lost.length) ∧ e.mem = c.mem))))

/-- DECKLE_WRITE, SLOT_ENABLE and SLOT_RELEASE judge the deckle as it would stand: a refused write keeps every register of it and sets CFG_REFUSED and its ERR; an accepted one is stored, and DCK_CTL moves the slot: ENABLE makes a free slot active, with a key generated where none is held; RELEASE makes an active slot draining, with its tasks, contexts and unsent records gone. A mismatched complement keeps the value and raises INTEGRITY. SLOT_DRAIN_COMPLETE waits for the slot's begun commands and then frees the slot: no page, ring, weight, key, lock or enabled slice of it is left. KEY_CMD on a slot that is not free sets ERR 2 and keeps the key; a mismatch sets ERR 1; otherwise the slot holds the loaded or a generated key; the staging words read 0. A slice write is stored, or refused in the slots it concerns. -/
def Obligations.SlotsDecklesKeysAndSlicesFollowTheirRules : Prop :=
  (∀ (s : State) (r : Requester) (slot : Fin 64), s.chip.live = true → s.chip.reaches r = true →
    let d := s.chip.supersede r
    (∀ i ∈ [Instr.slotEnable r slot, .slotRelease r slot, .keyLoad r slot, .keyGenerate r slot],
      (mayReachBar0 r = false → Becomes i s d) ∧ (mayReachBar0 r = true → d.early r = true → Becomes i s d.noteEarly))) ∧
  (∀ (s : State) (r : Requester) (slot : Fin 64) (reg : DeckleReg) (v0 v1 c1 : W64), s.chip.live = true → s.chip.reaches r = true → mayReachBar0 r = true →
    s.chip.early r = false →
    let two := (deckleWin reg).isSome
    let w0 := regWrite (deckleIds reg).1 0 v0
    let w1 := regWrite (deckleIds reg).2 0 v1
    let err := s.chip.deckleErr slot.val reg w0 w1
    let first := fun (c : Chip) => c.reg (deckleRef slot.val reg)
    (two = false ∨ c1 = ~~~ v1 →
      (err ≠ 0 → Yields (.deckleWrite r slot reg v0 v1 (~~~ v0) c1) s (fun c => c.deckle slot.val = s.chip.deckle slot.val ∧ first c = first s.chip ∧
        c.flag (R.TEN_STAT slot.val) F.TEN_STAT.CFG_REFUSED = true ∧ c.fld (R.TEN_STAT slot.val) F.TEN_STAT.ERR = err ∧ c.slotState slot.val = s.chip.slotState slot.val)) ∧
      (err = 0 → reg ≠ .ctl → Yields (.deckleWrite r slot reg v0 v1 (~~~ v0) c1) s (fun c => first c = w0 ∧ c.fld (R.TEN_STAT slot.val) F.TEN_STAT.ERR = 0 ∧
        (∀ w, deckleWin reg = some w → c.reg (R.WIN1 slot.val w.val) = w1) ∧ c.slotState slot.val = s.chip.slotState slot.val ∧ c.pages = s.chip.pages ∧ c.keys = s.chip.keys))) ∧
    (two = true → c1 ≠ ~~~ v1 → Yields (.deckleWrite r slot reg v0 v1 (~~~ v0) c1) s (fun c => c.deckle slot.val = s.chip.deckle slot.val ∧ first c = first s.chip ∧
      tabGetD c.health.counts 9 0 = tabGetD s.chip.health.counts 9 0 + 1)) ∧
    (∀ c0, c0 ≠ ~~~ v0 → Yields (.deckleWrite r slot reg v0 v1 c0 c1) s (fun c => c.deckle slot.val = s.chip.deckle slot.val ∧ first c = first s.chip ∧
      tabGetD c.health.counts 9 0 = tabGetD s.chip.health.counts 9 0 + 1))) ∧
  (∀ (s : State) (r : Requester) (slot : Fin 64), s.chip.live = true → s.chip.reaches r = true → mayReachBar0 r = true → s.chip.early r = false →
    let old := s.chip.reg (R.DCK_CTL slot.val)
    let on := regWrite .DCK_CTL 0 (fput old F.DCK_CTL.ENABLE 1)
    let off := regWrite .DCK_CTL 0 (fput old F.DCK_CTL.RELEASE 1)
    (s.chip.deckleErr slot.val .ctl on 0 ≠ 0 → Yields (.slotEnable r slot) s (fun c => c.slotState slot.val = s.chip.slotState slot.val ∧
      c.fld (R.TEN_STAT slot.val) F.TEN_STAT.ERR = s.chip.deckleErr slot.val .ctl on 0 ∧ c.reg (R.DCK_CTL slot.val) = old ∧ c.keys = s.chip.keys)) ∧
    (s.chip.deckleErr slot.val .ctl on 0 = 0 → fget on F.DCK_CTL.RELEASE = 0 → s.chip.slotState slot.val = 0 → Yields (.slotEnable r slot) s (fun c =>
      c.slotState slot.val = 1 ∧ c.reg (R.DCK_CTL slot.val) = on ∧ c.flag (R.TEN_STAT slot.val) F.TEN_STAT.KEY_VALID = true ∧
      (s.chip.flag (R.TEN_STAT slot.val) F.TEN_STAT.KEY_VALID = true → c.keys = s.chip.keys) ∧
      (s.chip.flag (R.TEN_STAT slot.val) F.TEN_STAT.KEY_VALID = false → (tabGet c.keys slot.val).map List.length = some 8))) ∧
    (s.chip.slotState slot.val ≠ 1 ∨ slot.val = 0 → fget old F.DCK_CTL.RELEASE = 0 → s.chip.deckleErr slot.val .ctl off 0 = 2) ∧
    (s.chip.deckleErr slot.val .ctl off 0 ≠ 0 → Yields (.slotRelease r slot) s (fun c => c.slotState slot.val = s.chip.slotState slot.val ∧
      c.fld (R.TEN_STAT slot.val) F.TEN_STAT.ERR = s.chip.deckleErr slot.val .ctl off 0 ∧ c.reg (R.DCK_CTL slot.val) = old ∧ c.commands = s.chip.commands)) ∧
    (s.chip.deckleErr slot.val .ctl off 0 = 0 → fget old F.DCK_CTL.RELEASE = 0 → Yields (.slotRelease r slot) s (fun c =>
      c.slotState slot.val = 2 ∧ c.reg (R.DCK_CTL slot.val) = off ∧ (∃ e ∈ c.drains, e.slot = slot.val) ∧
      (∀ x ∈ c.contexts, x.2.slot ≠ slot.val) ∧ c.keys = s.chip.keys ∧ c.pages = s.chip.pages ∧
      (∀ u m, c.command u = some m → m.slot = slot.val → m.ending = some ⟨0, 0, 0⟩ ∧ m.deferred = [])))) ∧
  (∀ (s : State) (slot : Fin 64), s.chip.live = true →
    let c := s.chip
    let waits := (∀ d ∈ c.drains, d.slot ≠ slot.val) ∨ c.slotState slot.val ≠ 2 ∨ (∃ k ∈ c.commands, k.slot = slot.val) ∨
      (∃ x ∈ c.quires, ∃ y ∈ x.2.slots, y.task.slot = slot.val)
    (waits → Becomes (.slotDrainComplete slot) s c) ∧
    (¬ waits → Yields (.slotDrainComplete slot) s (fun e => e.slotState slot.val = 0 ∧ e.flag (R.TEN_STAT slot.val) F.TEN_STAT.KEY_VALID = false ∧
      (∀ x ∈ e.pages, keySlot x.1 ≠ slot.val) ∧ (∀ x ∈ e.mem, keySlot x.1 ≠ slot.val) ∧ (∀ x ∈ e.rings, x.slot ≠ slot.val) ∧ tabGet e.weights slot.val = none ∧ tabGet e.keys slot.val = none ∧
      (∀ n < 16, (e.lock n).owner ≠ slot.val + 2) ∧ (∀ d ∈ e.drains, d.slot ≠ slot.val) ∧
      e.flag (R.DCK_CTL slot.val) F.DCK_CTL.ENABLE = false ∧ e.flag (R.DCK_CTL slot.val) F.DCK_CTL.RELEASE = false ∧
      (∀ n < 16, (c.lock n).owner ≠ slot.val + 2 → e.lock n = c.lock n) ∧ e.commands = c.commands))) ∧
  (∀ (s : State) (r : Requester) (slot : Fin 64), s.chip.live = true → s.chip.reaches r = true → mayReachBar0 r = true → s.chip.early r = false →
    let c := s.chip
    let cleared := fun (e : Chip) => ∀ k < 8, e.reg (R.KEY_V slot.val k) = 0 ∧ e.reg (R.KEY_C slot.val k) = 0
    (∀ i ∈ [Instr.keyLoad r slot, .keyGenerate r slot], c.slotState slot.val ≠ 0 → Yields i s (fun e => cleared e ∧ e.keys = c.keys ∧
      e.fld (R.TEN_STAT slot.val) F.TEN_STAT.ERR = 2)) ∧
    (c.slotState slot.val = 0 → c.keyStaged slot.val = false → Yields (.keyLoad r slot) s (fun e => cleared e ∧ e.keys = c.keys ∧
      e.fld (R.TEN_STAT slot.val) F.TEN_STAT.ERR = 1 ∧ tabGetD e.health.counts 9 0 = tabGetD c.health.counts 9 0 + 1)) ∧
    (c.slotState slot.val = 0 → c.keyStaged slot.val = true → Yields (.keyLoad r slot) s (fun e => cleared e ∧
      tabGet e.keys slot.val = some ((List.range 8).map (fun k => c.reg (R.KEY_V slot.val k))) ∧ (∀ j, j ≠ slot.val → tabGet e.keys j = tabGet c.keys j) ∧
      e.flag (R.TEN_STAT slot.val) F.TEN_STAT.KEY_VALID = true ∧ e.fld (R.TEN_STAT slot.val) F.TEN_STAT.ERR = 0)) ∧
    (c.slotState slot.val = 0 → Yields (.keyGenerate r slot) s (fun e => cleared e ∧ (tabGet e.keys slot.val).map List.length = some 8 ∧
      (∀ j, j ≠ slot.val → tabGet e.keys j = tabGet c.keys j) ∧
      e.flag (R.TEN_STAT slot.val) F.TEN_STAT.KEY_VALID = true ∧ e.fld (R.TEN_STAT slot.val) F.TEN_STAT.ERR = 0))) ∧
  (∀ (s : State) (r : Requester) (i : Fin 1024) (v : W64), s.chip.live = true → s.chip.reaches r = true → mayReachBar0 r = true → s.chip.early r = false →
    let w := regWrite .SLICE 0 v
    let err := s.chip.sliceErr i.val w
    let slot := fget w F.SLICE.SLOT
    (err = 0 → Yields (.sliceWrite r i v (~~~ v)) s (fun c => c.reg (R.SLICE i.val) = w ∧ c.rings = s.chip.rings)) ∧
    (err ≠ 0 → Yields (.sliceWrite r i v (~~~ v)) s (fun c => c.reg (R.SLICE i.val) = s.chip.reg (R.SLICE i.val) ∧
      (∀ t, t = slot ∨ t = s.chip.sliceSlot i.val → c.fld (R.TEN_STAT t) F.TEN_STAT.ERR = err ∧ c.flag (R.TEN_STAT t) F.TEN_STAT.CFG_REFUSED = true))) ∧
    (∀ k, k ≠ ~~~ v → Yields (.sliceWrite r i v k) s (fun c => c.reg (R.SLICE i.val) = s.chip.reg (R.SLICE i.val) ∧
      tabGetD c.health.counts 9 0 = tabGetD s.chip.health.counts 9 0 + 1)) ∧
    (fget w F.SLICE.ENABLE ≠ 0 → s.chip.flag (R.SLICE i.val) F.SLICE.ENABLE = false → s.chip.slotState slot ≠ 1 → err = 2) ∧
    (s.chip.flag (R.SLICE i.val) F.SLICE.ENABLE = true → fget w F.SLICE.ENABLE = 0 → s.chip.slotState (s.chip.sliceSlot i.val) ≠ 2 →
      (∃ g ∈ s.chip.rings, g.slice = i.val) → err = 2)) ∧
  (∀ (c : Chip) (slot : Nat) (reg : DeckleReg) (v0 v1 : W64),
    let d := (c.deckle slot).put reg v0 v1
    (reg = .ctl → fget (c.reg (R.DCK_CTL slot)) F.DCK_CTL.KIND ≠ fget v0 F.DCK_CTL.KIND → c.slotState slot ≠ 0 → c.deckleErr slot reg v0 v1 = 2) ∧
    (c.deckleErr slot reg v0 v1 = 0 → d.invalid slot = false ∧ c.windowBusy slot (c.wins slot) d.wins = false ∧ c.limitBelow slot d.limits = false ∧
      c.deckleConflict slot d = false))

/-- Ring rows act only through an enabled slice. Before stage 2 they are ignored and counted. Mismatched staging sets RING_STAT.ERR 1 and raises INTEGRITY. A creation is refused with its ERR and makes no ring, or adds the ring staged for the slice's slot, empty and with ERR 0. A deletion of a ring that the slot has not, or another slice made, gives ERR 3; of a completion queue named by an outstanding command or a FAPI ring with cells up, ERR 6; otherwise the ring goes, but a busy submission queue stays, deleting, with BUSY until its commands have completed. Read-back puts the ring's words and complements into staging, or ERR 3. DIRTY_CMD with BUSY clear sets BUSY, changes the bank and counts; a swap while busy changes nothing; its end clears BUSY. -/
def Obligations.RingsAreMadeDeletedAndReadBack : Prop :=
  (∀ (s : State) (slice : Fin 1024), s.chip.live = true → s.chip.reaches (.slice slice) = true →
    let c := s.chip.supersede (.slice slice)
    let i := slice.val
    let slot := c.sliceSlot i
    let v0 := c.reg (R.RING_STAGE i 0)
    let v1 := c.reg (R.RING_STAGE i 1)
    let kind := fget v1 rsKind
    let ix := fget v1 rsIndex
    (∀ a ∈ [Instr.ringCreate slice, .ringDelete slice, .ringReadBack slice],
      (c.sliceOn i = false → Becomes a s c) ∧ (c.sliceOn i = true → c.early .host = true → Becomes a s c.noteEarly)) ∧
    (c.sliceOn i = true → c.early .host = false →
      (∀ a ∈ [Instr.ringCreate slice, .ringDelete slice], c.ringStaged i = false → Yields a s (fun e => e.rings = c.rings ∧
        e.fld (R.RING_STAT i) F.RING_STAT.ERR = 1 ∧ tabGetD e.health.counts 9 0 = tabGetD c.health.counts 9 0 + 1)) ∧
      (c.ringStaged i = true →
        (c.ringErr slot v0 v1 ≠ 0 → Yields (.ringCreate slice) s (fun e => e.rings = c.rings ∧ e.fld (R.RING_STAT i) F.RING_STAT.ERR = c.ringErr slot v0 v1)) ∧
        (c.ringErr slot v0 v1 = 0 → Yields (.ringCreate slice) s (fun e => e.fld (R.RING_STAT i) F.RING_STAT.ERR = 0 ∧
          (∃ g : Ring, e.rings = c.rings ++ [g] ∧ e.ring slot kind ix = some g ∧ g.slot = slot ∧ g.kind = kind ∧ g.index = ix ∧ g.slice = i ∧ g.base = fget v0 rsBase * 4096 ∧
            g.log2 = fget v1 rsLog2 ∧ g.vector = fget v1 rsVector ∧ g.own = 0 ∧ g.soft = 0 ∧ g.stage0 = v0 ∧ g.stage1 = v1) ∧ e.pages = c.pages)) ∧
        (c.ring slot kind ix = none → Yields (.ringDelete slice) s (fun e => e.rings = c.rings ∧ e.fld (R.RING_STAT i) F.RING_STAT.ERR = 3)) ∧
        (∀ g, c.ring slot kind ix = some g →
          (g.slice ≠ i ∨ g.deleting = true → Yields (.ringDelete slice) s (fun e => e.rings = c.rings ∧ e.fld (R.RING_STAT i) F.RING_STAT.ERR = 3)) ∧
          (g.slice = i → g.deleting = false →
            ((kind = 1 ∧ c.cqNamed slot ix = true) ∨ (4 ≤ kind ∧ c.slotCellsUp slot = true) → Yields (.ringDelete slice) s (fun e => e.rings = c.rings ∧
              e.fld (R.RING_STAT i) F.RING_STAT.ERR = 6)) ∧
            (¬ ((kind = 1 ∧ c.cqNamed slot ix = true) ∨ (4 ≤ kind ∧ c.slotCellsUp slot = true)) →
              (kind = 0 → c.sqBusy slot ix = true → Yields (.ringDelete slice) s (fun e => e.ring slot 0 ix = some { g with deleting := true } ∧
                e.flag (R.RING_STAT i) F.RING_STAT.BUSY = true ∧ e.fld (R.RING_STAT i) F.RING_STAT.ERR = 0)) ∧
              (kind ≠ 0 ∨ c.sqBusy slot ix = false → Yields (.ringDelete slice) s (fun e => e.ring slot kind ix = none ∧
                (∀ k j, k ≠ kind ∨ j ≠ ix → e.ring slot k j = c.ring slot k j) ∧ e.fld (R.RING_STAT i) F.RING_STAT.ERR = 0)))))) ∧
      (∀ g, c.ring slot kind ix = some g → g.slice = i → Yields (.ringReadBack slice) s (fun e => e.reg (R.RING_STAGE i 0) = g.stage0 ∧ e.reg (R.RING_STAGE i 1) = g.stage1 ∧
        e.reg (R.RING_STAGE i 2) = ~~~ g.stage0 ∧ e.reg (R.RING_STAGE i 3) = ~~~ g.stage1 ∧ e.fld (R.RING_STAT i) F.RING_STAT.ERR = 0 ∧ e.rings = c.rings)) ∧
      ((∀ g, c.ring slot kind ix = some g → g.slice ≠ i) → Yields (.ringReadBack slice) s (fun e => e.fld (R.RING_STAT i) F.RING_STAT.ERR = 3 ∧
        e.reg (R.RING_STAGE i 0) = v0 ∧ e.reg (R.RING_STAGE i 1) = v1 ∧ e.rings = c.rings)))) ∧
  (∀ (c : Chip) (slot : Nat) (v0 v1 : W64),
    let kind := fget v1 rsKind
    let ix := fget v1 rsIndex
    (c.slotState slot ≠ 1 → c.ringErr slot v0 v1 = 8) ∧
    (c.ringErr slot v0 v1 = 0 → kind ≤ 5 ∧ 4 ≤ fget v1 rsLog2 ∧ fget v1 rsLog2 ≤ 12 ∧ (4 ≤ kind → c.slotKind slot = 1) ∧ (fget v1 rsRadio ≠ 0 → c.slotKind slot = 1 ∧ kind = 0) ∧
      ix < ringLimit (c.reg (R.DCK_LIMITS slot)) kind ∧ c.ring slot kind ix = none ∧
      (kind ≠ 0 → fget v1 rsVector < c.fld (R.DCK_LIMITS slot) F.DCK_LIMITS.VEC_COUNT) ∧
      ∃ w ∈ c.wins slot, w.read = true ∧ w.write = true ∧ w.base ≤ fget v0 rsBase * 4096 ∧ fget v0 rsBase * 4096 + ringEntry kind * 2 ^ fget v1 rsLog2 ≤ w.base + w.size)) ∧
  (∀ (s : State) (slot q : Fin 64), s.chip.live = true →
    let c := s.chip
    (c.ring slot.val 0 q.val = none → Becomes (.sqDeleteComplete slot q) s c) ∧
    (∀ g, c.ring slot.val 0 q.val = some g →
      (g.deleting = false ∨ c.sqBusy slot.val q.val = true → Becomes (.sqDeleteComplete slot q) s c) ∧
      (g.deleting = true → c.sqBusy slot.val q.val = false → Yields (.sqDeleteComplete slot q) s (fun e => e.ring slot.val 0 q.val = none ∧
        (∀ k j, k ≠ 0 ∨ j ≠ q.val → e.ring slot.val k j = c.ring slot.val k j) ∧
        ((∀ x ∈ e.rings, x.slice ≠ g.slice ∨ x.deleting = false) → e.flag (R.RING_STAT g.slice) F.RING_STAT.BUSY = false))))) ∧
  (∀ (s : State) (r : Requester) (slot : Fin 64), s.chip.live = true →
    Becomes (.dirtySwapComplete slot) s (s.chip.setFlag (R.DIRTY_STAT slot.val) F.DIRTY_STAT.BUSY false) ∧
    (s.chip.reaches r = true →
      let c := s.chip.supersede r
      let st := R.DIRTY_STAT slot.val
      (mayReachBar0 r = false ∨ (c.early r = false ∧ c.flag st F.DIRTY_STAT.BUSY = true) → Becomes (.dirtySwap r slot) s c) ∧
      (mayReachBar0 r = true → c.early r = true → Becomes (.dirtySwap r slot) s c.noteEarly) ∧
      (mayReachBar0 r = true → c.early r = false → c.flag st F.DIRTY_STAT.BUSY = false → Yields (.dirtySwap r slot) s (fun e => e.flag st F.DIRTY_STAT.BUSY = true ∧
        e.fld st F.DIRTY_STAT.BANK = 1 - c.fld st F.DIRTY_STAT.BANK ∧ e.fld st F.DIRTY_STAT.SWAPS = min (fmax F.DIRTY_STAT.SWAPS) (c.fld st F.DIRTY_STAT.SWAPS + 1) ∧
        e = { c with regs := e.regs }))))

/-- A mailbox write stores the word and sets FULL, or is ignored and counted as an overrun while FULL; a read answers the word with FULL and clears FULL. Firmware takes a waiting word, and queues its reply for the same number: the value of a PING, the GiB of a USE_QUERY, or ERR for any other type; the PING and USE_QUERY rows answer only their type; beyond 16 waiting words a reply is dropped and counted. It stores its next word once FULL is clear. A shared mailbox works the same for a path that reaches it; other paths change nothing and read 0. A lock read takes a free lock and answers 0, and else answers the owner or 0xFE of a broken lock; only the owner's number from its own path frees it, any other write is counted; LOCK_FORCE frees the locks named. -/
def Obligations.MailboxesAndLocksPassWords : Prop :=
  (∀ (s : State) (r : Requester) (n : Fin 4) (v : W32), s.chip.live = true → s.chip.reaches r = true →
    let c := s.chip.supersede r
    (c.mbxSide r = none → Becomes (.mbxOutWrite r n v) s c ∧ Becomes (.mbxInRead r n) s c) ∧
    (∀ side, c.mbxSide r = some side →
      (c.flag (mbxOut side n.val) F.MBX_OUT.FULL = true → Yields (.mbxOutWrite r n v) s (fun e => e.reg (mbxOut side n.val) = c.reg (mbxOut side n.val) ∧
        e.flag (mbxStat side) F.MBX_STAT.STICKY_OVERRUN = true ∧
        e.fld (mbxStat side) F.MBX_STAT.OVR_CNT = min (fmax F.MBX_STAT.OVR_CNT) (c.fld (mbxStat side) F.MBX_STAT.OVR_CNT + 1) ∧ e.mbxQueue = c.mbxQueue)) ∧
      (c.flag (mbxOut side n.val) F.MBX_OUT.FULL = false → Becomes (.mbxOutWrite r n v) s (c.setReg (mbxOut side n.val) (BitVec.ofNat 64 (2 ^ 63 + v.toNat)))) ∧
      Yields (.mbxInRead r n) s (fun e => e.flag (mbxIn side n.val) F.MBX_IN.FULL = false ∧ fget (e.reg (mbxIn side n.val)) ⟨0, 32⟩ = fget (c.reg (mbxIn side n.val)) ⟨0, 32⟩ ∧
        e.out = .readData r (c.reg (mbxIn side n.val)) :: c.out))) ∧
  (∀ (s : State) (side : MbxSide) (n : Fin 4), s.chip.live = true →
    let c := s.chip
    let w : W32 := (c.reg (mbxOut side n.val)).setWidth 32
    let type := w.toNat / 2 ^ 28
    let full := c.flag (mbxOut side n.val) F.MBX_OUT.FULL
    let queue := tabGetD c.mbxQueue (mbxKey side n.val) []
    (∀ x ∈ [(Instr.firmwareMbxTake side n, fun _ => true), (.ping side n, fun t => t == 1), (.useQuery side n, fun t => t == 2)],
      (full = false ∨ x.2 type = false → Becomes x.1 s c) ∧
      (full = true → x.2 type = true → Yields x.1 s (fun e => e.flag (mbxOut side n.val) F.MBX_OUT.FULL = false ∧
        (queue.length < 16 → tabGetD e.mbxQueue (mbxKey side n.val) [] = queue ++ [c.mbxReply side w]) ∧
        (16 ≤ queue.length → e.mbxQueue = c.mbxQueue ∧
          e.fld (mbxStat side) F.MBX_STAT.FW_DROP = min (fmax F.MBX_STAT.FW_DROP) (c.fld (mbxStat side) F.MBX_STAT.FW_DROP + 1))))) ∧
    (queue = [] ∨ c.flag (mbxIn side n.val) F.MBX_IN.FULL = true → Becomes (.firmwareMbxStore side n) s c) ∧
    (∀ a t, queue = a :: t → c.flag (mbxIn side n.val) F.MBX_IN.FULL = false → Yields (.firmwareMbxStore side n) s (fun e =>
      e.reg (mbxIn side n.val) = BitVec.ofNat 64 (2 ^ 63 + a.toNat) ∧ tabGetD e.mbxQueue (mbxKey side n.val) [] = t ∧
      (∀ j, j ≠ mbxKey side n.val → tabGetD e.mbxQueue j [] = tabGetD c.mbxQueue j [])))) ∧
  (∀ (c : Chip) (side : MbxSide) (w : W32),
    let type := w.toNat / 2 ^ 28
    let tier := bitsOf w.toNat 27 26
    (c.mbxReply side w).toNat / 2 ^ 28 = 15 ∧
    (type = 1 → c.mbxReply side w = BitVec.ofNat 32 (15 * 2 ^ 28 + w.toNat % 2 ^ 26)) ∧
    (type = 2 → tier ≠ 3 → c.mbxReply side w = BitVec.ofNat 32 (15 * 2 ^ 28 + c.useGib side tier % 2 ^ 26)) ∧
    (type ≠ 1 → type ≠ 2 → (c.mbxReply side w).getLsbD 27 = true)) ∧
  (∀ (s : State) (r : Requester) (n : Fin 16) (v : W32), s.chip.live = true → s.chip.reaches r = true →
    let c := s.chip.supersede r
    let reg := c.reg (R.SHMBX n.val)
    let owner := (c.lock n.val).owner
    let broken := (c.lock n.val).broken
    (c.sharedOpen r n.val = false → Becomes (.shmbxWrite r n v) s c ∧ Becomes (.lockRelease r n v) s c ∧ Becomes (.shmbxRead r n) s (c.send (.readData r 0)) ∧
      Becomes (.lockRead r n) s (c.send (.readData r 0))) ∧
    (c.sharedOpen r n.val = true →
      (c.flag (R.SHMBX n.val) F.SHMBX.FULL = false → Becomes (.shmbxWrite r n v) s (c.setReg (R.SHMBX n.val) (BitVec.ofNat 64 (2 ^ 63 + v.toNat)))) ∧
      (c.flag (R.SHMBX n.val) F.SHMBX.FULL = true → Yields (.shmbxWrite r n v) s (fun e => e.reg (R.SHMBX n.val) = reg ∧ e.locks = c.locks ∧
        e.fld (c.sharedStat r) F.MBX_STAT.OVR_CNT = min (fmax F.MBX_STAT.OVR_CNT) (c.fld (c.sharedStat r) F.MBX_STAT.OVR_CNT + 1))) ∧
      Yields (.shmbxRead r n) s (fun e => e.flag (R.SHMBX n.val) F.SHMBX.FULL = false ∧ e.out = .readData r reg :: c.out ∧ e.locks = c.locks) ∧
      (broken = true → Becomes (.lockRead r n) s (c.send (.readData r 0xFE))) ∧
      (broken = false → owner ≠ 0 → Becomes (.lockRead r n) s (c.send (.readData r (BitVec.ofNat 64 owner)))) ∧
      (broken = false → owner = 0 → Yields (.lockRead r n) s (fun e => e.lock n.val = ⟨c.ownerNumber r, false⟩ ∧ e.out = .readData r 0 :: c.out ∧
        (∀ j, j ≠ n.val → e.lock j = c.lock j) ∧ e = { c with locks := e.locks, out := e.out })) ∧
      (broken = false → owner ≠ 0 → v.toNat % 256 = owner → c.ownerNumber r = owner → Yields (.lockRelease r n v) s (fun e => e.lock n.val = ⟨0, false⟩ ∧
        (∀ j, j ≠ n.val → e.lock j = c.lock j) ∧ e = { c with locks := e.locks })) ∧
      (broken = true ∨ owner = 0 ∨ v.toNat % 256 ≠ owner ∨ c.ownerNumber r ≠ owner → Becomes (.lockRelease r n v) s (c.bump R.LOCK_STAT F.LOCK_STAT.RELEASE_BAD 1)))) ∧
  (∀ (c : Chip), c.ownerNumber .host = 1 ∧ c.ownerNumber .firmware = 0xF0 ∧ c.ownerNumber .monitor = 0xF1 ∧ ∀ i, c.ownerNumber (.slice i) = c.sliceSlot i.val + 2) ∧
  (∀ (s : State) (r : Requester) (mask : W16), s.chip.live = true → s.chip.reaches r = true →
    let c := s.chip.supersede r
    (mayReachBar0 r = false → Becomes (.lockForce r mask) s c) ∧
    (mayReachBar0 r = true → c.early r = true → Becomes (.lockForce r mask) s c.noteEarly) ∧
    (mayReachBar0 r = true → c.early r = false → Yields (.lockForce r mask) s (fun e => ∀ n < 16, e.lock n = if mask.getLsbD n then ⟨0, false⟩ else c.lock n)))

/-- On a port that is up, a good flit in order advances the expected sequence, ends discarding, drops acknowledged flits and returns credits; any other makes the port discard and, once, name the expected sequence in a NAK. A NAK for a flit held replays from it, counted; the eighth in a row for one flit takes the link down to retrain. Training of an enabled port ends with the link up, its peer noted and fresh credits; losing the link empties replay and trains again. A table row does nothing without access, is counted before stage 2, sets TAB_STAT.ERR 1 with INTEGRITY on mismatched staging, or its ERR and no change: own CHIP_ID, absent ports, too many domain chips, index, fields, memory. Otherwise the entry is stored: a route forgets its incarnation, a job is not torn, a queue is empty. Read-back gives the entry's words, or ERR 2. -/
def Obligations.FabricLinksCarryFlitsAndTablesAreWritten : Prop :=
  (∀ (s : State) (port : Fin 6) (f : Flit), s.chip.live = true →
    let c := s.chip
    let p := port.val
    let x := c.fport p
    let good := f.crcOk = true ∧ f.uncorrectable = false ∧ f.seq.val = x.rx
    (c.fabUp p = false → Becomes (.flitReceive port f) s c ∧ Becomes (.fabricLinkDown port) s c ∧ ∀ n, Becomes (.nakReceive port n) s c) ∧
    (c.fabUp p = true →
      (good →
        let kept := x.replay.filter (fun y => !ackCovers f.ackSeq.val y.seq)
        let credits := updNth x.credits f.creditVc.val (fun k => k + f.credits.val)
        Yields (.flitReceive port f) s (fun e => e.fport p = { x with rx := (x.rx + 1) % 4096, discarding := false, replay := kept, credits := credits } ∧ (∀ q, q ≠ p → e.fport q = c.fport q) ∧ SameStore c e)) ∧
      (¬ good → Yields (.flitReceive port f) s (fun e => e.fport p = { x with discarding := true } ∧ (∀ q, q ≠ p → e.fport q = c.fport q) ∧
          (x.discarding = false → e.out.head? = some (.fabNak p x.rx)) ∧ SameStore c e)) ∧
      Yields (.fabricLinkDown port) s (fun e => e.fabUp p = false ∧ e.fport p = { x with retrain := some c.time.uptime, replay := [] } ∧ ∀ q, q ≠ p → e.fport q = c.fport q) ∧
      (∀ n : Fin 4096, (∀ y ∈ x.replay, y.seq ≠ n.val) → Becomes (.nakReceive port n) s c) ∧
      (∀ n : Fin 4096, (∃ y ∈ x.replay, y.seq = n.val) →
        let k := if x.replays ≠ 0 ∧ x.replayed = n.val then x.replays + 1 else 1
        (k < 8 → Yields (.nakReceive port n) s (fun e => e.fport p = { x with replay := x.replay.dropWhile (fun y => y.seq != n.val), replayed := n.val, replays := k } ∧
          e.fabUp p = true ∧ e.out.head? = some (.fabReplay p n.val))) ∧
        (8 ≤ k → Yields (.nakReceive port n) s (fun e => e.fabUp p = false ∧ (e.fport p).retrain = some c.time.uptime ∧ (e.fport p).replays = 0 ∧
          e.flag (R.FPORT_STAT p) F.FPORT_STAT.STICKY_RETRAIN = true))))) ∧
  (∀ (s : State) (port : Fin 6) (chip pn : Nat) (sw : Bool), s.chip.live = true → chip < 65536 → pn < 16 →
    let c := s.chip
    let p := port.val
    let may := c.portExists (4 + p) = true ∧ c.flag (R.FPORT_CFG p) F.FPORT_CFG.ENABLE = true ∧ (c.fport p).retrain ≠ none
    (¬ may → Becomes (.linkRetrainComplete port chip pn sw) s c) ∧
    (may → Yields (.linkRetrainComplete port chip pn sw) s (fun e => e.fabUp p = true ∧ e.fport p = { c.fport p with retrain := none, credits := [32, 256, 256, 256], replays := 0 } ∧
      e.fld (R.FPORT_STAT p) F.FPORT_STAT.PEER_CHIP = (if sw then 0 else chip) ∧ e.fld (R.FPORT_STAT p) F.FPORT_STAT.PEER_PORT = pn ∧
      e.flag (R.FPORT_STAT p) F.FPORT_STAT.PEER_SWITCH = sw))) ∧
  (∀ (s : State) (r : Requester) (index : Fin 65536), s.chip.live = true → s.chip.reaches r = true →
    let c := s.chip.supersede r
    let i := index.val
    let v0 := c.reg (R.TAB_STAGE 0)
    let v1 := c.reg (R.TAB_STAGE 1)
    let v := v0 &&& 0xFF#64
    let tables := fun (e : Chip) => e.routes = c.routes ∧ e.windows = c.windows ∧ e.rxqs = c.rxqs ∧ e.jobs = c.jobs
    let fails := fun (a : Instr) (err : Nat) => Yields a s (fun e => tables e ∧ e.fld R.TAB_STAT F.TAB_STAT.ERR = err)
    let works := fun (a : Instr) (p : Chip → Prop) => Yields a s (fun e => e.fld R.TAB_STAT F.TAB_STAT.ERR = 0 ∧ p e)
    (∀ a ∈ [Instr.routeWrite r index, .windowWrite r index, .rxqWrite r index, .jobWrite r index] ++ (List.finRange 4).map (fun t => Instr.tabReadBack r t index),
      (mayReachBar0 r = false → Becomes a s c) ∧ (mayReachBar0 r = true → c.early r = true → Becomes a s c.noteEarly)) ∧
    (mayReachBar0 r = true → c.early r = false →
      (∀ a ∈ [Instr.routeWrite r index, .windowWrite r index, .rxqWrite r index, .jobWrite r index], c.tabStaged = false → fails a 1) ∧
      (c.tabStaged = true →
        let others := (c.domainChips.filter (fun j => j != i)).length
        let absent := c.ident.part = .fdn12h1d ∧ fget v ⟨5, 3⟩ ≠ 0
        let full := fget v ⟨1, 1⟩ ≠ 0 ∧ 143 < others + 1
        (i = c.chipId → fails (.routeWrite r index) 6) ∧
        (i ≠ c.chipId → absent → fails (.routeWrite r index) 3) ∧
        (i ≠ c.chipId → ¬ absent → full → fails (.routeWrite r index) 4) ∧
        (i ≠ c.chipId → ¬ absent → ¬ full → works (.routeWrite r index) (fun e => tabGet e.routes i = some v ∧ tabGet e.incarnations i = none ∧
          (∀ j, j ≠ i → tabGet e.routes j = tabGet c.routes j) ∧ e.windows = c.windows ∧ e.rxqs = c.rxqs ∧ e.jobs = c.jobs)) ∧
        (1024 ≤ i → fails (.windowWrite r index) 2 ∧ fails (.jobWrite r index) 2) ∧ (4096 ≤ i → fails (.rxqWrite r index) 2) ∧
        (i < 1024 →
          let base := fget v0 tabBase * 4096
          let size := fget v1 ⟨0, 16⟩ * 2097152
          let bad := fget v1 tabJob = 0 ∨ size = 0 ∨ base % 2097152 ≠ 0
          (bad → fails (.windowWrite r index) 3) ∧
          (¬ bad → c.deviceCovered (fget v1 tabSlot) base size = false → fails (.windowWrite r index) 5) ∧
          (¬ bad → c.deviceCovered (fget v1 tabSlot) base size = true → works (.windowWrite r index) (fun e => tabGet e.windows i = some ⟨v0, v1, 0⟩ ∧
            (∀ j, j ≠ i → tabGet e.windows j = tabGet c.windows j) ∧ e.routes = c.routes ∧ e.rxqs = c.rxqs ∧ e.jobs = c.jobs)) ∧
          (fget v0 ⟨32, 32⟩ = 0 → fails (.jobWrite r index) 3) ∧
          (fget v0 ⟨32, 32⟩ ≠ 0 → works (.jobWrite r index) (fun e => tabGet e.jobs i = some ⟨fput v0 ⟨1, 1⟩ 0, false, [], [], []⟩ ∧
            (∀ j, j ≠ i → tabGet e.jobs j = tabGet c.jobs j) ∧ e.routes = c.routes ∧ e.rxqs = c.rxqs ∧ e.windows = c.windows))) ∧
        (i < 4096 →
          let q : RxQueue := ⟨v0, v1, 0, 0, 0, [], []⟩
          let bad := fget v1 tabJob = 0 ∨ fget v1 ⟨20, 4⟩ < 2 ∨ 12 < fget v1 ⟨20, 4⟩ ∨ fget v1 ⟨15, 5⟩ < 8 ∨ 21 < fget v1 ⟨15, 5⟩
          let memory := c.rxMemOk q.range.1 q.range.2.1 q.range.2.2
          (bad → fails (.rxqWrite r index) 3) ∧ (¬ bad → memory = false → fails (.rxqWrite r index) 5) ∧
          (¬ bad → memory = true → works (.rxqWrite r index) (fun e => tabGet e.rxqs i = some q ∧ (∀ j, j ≠ i → tabGet e.rxqs j = tabGet c.rxqs j) ∧
            e.routes = c.routes ∧ e.windows = c.windows ∧ e.jobs = c.jobs)))) ∧
      (∀ t : Fin 4, (tabSize t.val ≤ i → fails (.tabReadBack r t index) 2) ∧
        (i < tabSize t.val → works (.tabReadBack r t index) (fun e => let x := c.tabEntry t.val i
          tables e ∧ e.reg (R.TAB_STAGE 0) = x.1 ∧ e.reg (R.TAB_STAGE 1) = x.2.1 ∧ e.reg (R.TAB_STAGE 2) = ~~~ x.1 ∧ e.reg (R.TAB_STAGE 3) = ~~~ x.2.1 ∧
            e.reg R.TAB_INFO = x.2.2))))) ∧
  (∀ (c : Chip) (i : Nat), (i = c.chipId → (c.tabEntry 0 i).1 = 3) ∧ (i ≠ c.chipId → (c.tabEntry 0 i).1 = tabGetD c.routes i 0) ∧
    (∀ w, tabGet c.windows i = some w → (c.tabEntry 1 i).1 = w.v0 ∧ (c.tabEntry 1 i).2.1 = w.v1) ∧
    (∀ q, tabGet c.rxqs i = some q → (c.tabEntry 2 i).1 = q.v0 ∧ (c.tabEntry 2 i).2.1 = q.v1 ∧ fget (c.tabEntry 2 i).2.2 ⟨48, 16⟩ = q.head % 65536) ∧
    (∀ j, tabGet c.jobs i = some j → fget (c.tabEntry 3 i).1 ⟨1, 1⟩ = if j.torn then 1 else 0))

/-- A request of an older incarnation is only counted in STALE_DROP. Otherwise the checks of the table are made in order (job, window and its job, key, range and permission, translation, seal) and the first failure answers; DENIED is counted on the part and at the window. A read that passes answers its bytes, or UNCORRECTABLE when poisoned; a store or atomic enters the ingress buffer of its page's ream, a one-line store merging into a waiting entry of that line, counted in COLLAPSED. Where a store merges, the buffer acts on every memory as if it had been queued last, with the same old values answered and no entry more. STORE and ATOMIC apply the oldest entry and acknowledge it; on another entry, or none, nothing happens. A message reserves the tail slot, is answered NOT_READY on a full ring, or DENIED; its payload and header are written before TAIL advances. That only stores of one line merge is the model's reading (log entry 56). -/
def Obligations.FabricReceiverChecksAppliesAndAcknowledges : Prop :=
  (∀ (s : State) (q : FabricRequest), s.chip.live = true →
    let c := s.chip
    let src := q.src.toNat
    let stale := c.bump R.FAB_CNT0 F.FAB_CNT0.STALE_DROP 1
    let isMessage : Bool := match q.op with
      | .message _ _ _ => true
      | _ => false
    let fresh := tabGetD c.incarnations src 0 ≤ q.inc.toNat
    let seen : Chip := { c with incarnations := tabPut c.incarnations src q.inc.toNat }
    let alive : Prop := ∃ i j, c.jobAt q.job.toNat = some (i, j) ∧ j.torn = false
    let denied := min (fmax F.FAB_CNT0.DENIED) (c.fld R.FAB_CNT0 F.FAB_CNT0.DENIED + 1)
    let fails := fun (f : FabricFail) => Yields (.fabricRequestReceive q) s (fun e => e.out = .fabReply src q.id (.failed f) :: c.out ∧ SameStore c e ∧
      e.incarnations = seen.incarnations ∧ e.ingress = c.ingress ∧ e.rxqs = c.rxqs ∧
      (f = .denied → e.fld R.FAB_CNT0 F.FAB_CNT0.DENIED = denied) ∧ (f ≠ .denied → e.windows = c.windows))
    (isMessage = false → Becomes (.messageReservation q) s c) ∧
    (¬ fresh → Becomes (.fabricRequestReceive q) s stale ∧ (isMessage = true → Becomes (.messageReservation q) s stale)) ∧
    (fresh → isMessage = false →
      (¬ alive → fails .torn) ∧
      (alive → (tabGet c.windows q.target = none ∨ c.damaged.contains (.window q.target) = true) → fails .denied) ∧
      (alive → c.damaged.contains (.window q.target) = false → ∀ w, tabGet c.windows q.target = some w →
        let slot := fget w.v1 tabSlot
        let base := fget w.v0 tabBase * 4096
        let size := fget w.v1 ⟨0, 16⟩ * 2097152
        let key := c.fabKey slot (fget w.v1 tabKeysel)
        let spans := opSpans q.op
        let bound := fget w.v1 ⟨20, 1⟩ = 1 ∧ fget w.v1 tabJob = q.job.toNat ∧ key ≠ 0 ∧ q.key.toNat = key ∧ (∀ x ∈ spans, x.1 + x.2 ≤ size) ∧
          fget w.v1 ⟨opPermBit q.op, 1⟩ = 1
        let checks := fun (x : Nat × Nat) => c.check slot (base + x.1) x.2 (opWrites q.op)
        (¬ bound → fails .denied ∧ Yields (.fabricRequestReceive q) s (fun e =>
          tabGet e.windows q.target = some { w with denied := w.denied + 1 } ∧ ∀ n, n ≠ q.target → tabGet e.windows n = tabGet c.windows n)) ∧
        (bound → ∀ x, spans.find? (fun y => checks y != .ok) = some x → fails (if checks x = .sealed_ then .sealed_ else .noMap)) ∧
        (bound → (∀ x ∈ spans, checks x = .ok) →
          let hurt := (∃ x ∈ spans, c.poisoned slot (base + x.1) x.2 = true) ∨ c.damaged.contains (.keyRam (Fin.ofNat 64 slot)) = true
          let into := fun (va : Nat) (op : FabricOp) (e : Chip) =>
            let ream := c.pageReam slot va
            let l := c.ingressAt ream
            let new : Ingress := ⟨(src, q.id), q.job.toNat, slot, va, op, []⟩
            let m := match op with
              | .store _ d => mergeStore slot ⟨(src, q.id), q.job.toNat, va, d⟩ l
              | _ => none
            e.out = c.out ∧ SameStore c e ∧ e.incarnations = seen.incarnations ∧ e.windows = c.windows ∧
            (∀ n, n ≠ ream → e.ingressAt n = c.ingressAt n) ∧
            (∀ l', m = some l' → e.ingressAt ream = l' ∧ e.fld R.FAB_CNT2 F.FAB_CNT2.COLLAPSED = min (fmax F.FAB_CNT2.COLLAPSED) (c.fld R.FAB_CNT2 F.FAB_CNT2.COLLAPSED + 1)) ∧
            (m = none → e.ingressAt ream = if l.length < 32 then l ++ [new] else l)
          (opWrites q.op = false → hurt → Yields (.fabricRequestReceive q) s (fun e => e.out.head? = some (.fabReply src q.id (.failed .uncorrectable)) ∧ SameStore c e)) ∧
          (opWrites q.op = false → ¬ hurt → Yields (.fabricRequestReceive q) s (fun e => SameStore c e ∧ e.ingress = c.ingress ∧
            e.out = .fabReply src q.id (.data (spans.flatMap (fun x => c.treadN slot (base + x.1) x.2))) :: c.out)) ∧
          (∀ o d, q.op = .store o d → Yields (.fabricRequestReceive q) s (into (base + o) (.store 0 d))) ∧
          (∀ o a x y, q.op = .atomic o a x y → Yields (.fabricRequestReceive q) s (into (base + o) (.atomic 0 a x y)))))) ∧
    (fresh → ∀ n token task, q.op = .message n token task → ∀ row ∈ [Instr.fabricRequestReceive q, .messageReservation q],
      let no := fun (f : FabricFail) => Yields row s (fun e => e.out = .fabReply src q.id (.failed f) :: c.out ∧ SameStore c e ∧ e.rxqs = c.rxqs ∧
        e.incarnations = seen.incarnations ∧ (f = .denied → e.fld R.FAB_CNT0 F.FAB_CNT0.DENIED = denied))
      (¬ alive → no .torn) ∧ (alive → c.rxq q.target = none → no .denied) ∧
      (alive → ∀ x, c.rxq q.target = some x →
        let key := c.fabKey (fget x.v1 tabSlot) (fget x.v1 tabKeysel)
        let bound := x.on = true ∧ fget x.v1 tabJob = q.job.toNat ∧ key ≠ 0 ∧ q.key.toNat = key ∧ n + 32 ≤ 2 ^ fget x.v1 ⟨15, 5⟩
        let full := 2 ^ fget x.v1 ⟨20, 4⟩ ≤ x.tail + x.reserved.length - x.head
        let seq := tabGetD x.seqs src 0
        (¬ bound → no .denied) ∧
        (bound → full → Becomes row s { seen with
          rxqs := tabPut c.rxqs q.target { x with notReady := x.notReady + 1 }
          out := .fabReply src q.id .notReady :: c.out }) ∧
        (bound → ¬ full → Becomes row s { seen with
          rxqs := tabPut c.rxqs q.target { x with
            reserved := x.reserved ++ [⟨x.tail + x.reserved.length, src, q.job.toNat, n, token, task, seq, false⟩]
            seqs := tabPut x.seqs src (seq + 1) }
          out := .fabReply src q.id .ready :: c.out })))) ∧
  (∀ (s : State) (queue : Fin 4096) (src : W16) (data : List Byte), s.chip.live = true →
    let c := s.chip
    (c.rxq queue.val = none → Becomes (.messagePayload queue src data) s c) ∧
    (∀ x, c.rxq queue.val = some x →
      let mine := x.reserved.find? (fun r => r.src == src.toNat && !r.written)
      (mine = none → Becomes (.messagePayload queue src data) s (c.bump R.FAB_CNT0 F.FAB_CNT0.STALE_DROP 1)) ∧
      (∀ r, mine = some r → r.length ≠ data.length → Becomes (.messagePayload queue src data) s c) ∧
      (∀ r, mine = some r → r.length = data.length →
        let place := x.range.2.1 + (r.entry % 2 ^ fget x.v1 ⟨20, 4⟩) * 2 ^ fget x.v1 ⟨15, 5⟩
        let head := bytesLE 2 r.src ++ [1, 0] ++ bytesLE 4 r.length ++ bytesLE 4 r.job ++ bytesLE 4 r.seq ++ bytesLE 4 r.token ++ bytesLE 4 r.task ++ bytesLE 4 0
        let after := (c.twrite x.range.1 (place + 32) data).twrite x.range.1 place (head ++ bytesLE 4 (crc32c head).toNat)
        let left := advanceTail (writeFirst src.toNat x.reserved) x.tail
        Yields (.messagePayload queue src data) s (fun e => e.mem = after.mem ∧ e.host = after.host ∧
          tabGet e.rxqs queue.val = some { x with reserved := left.1, tail := left.2 } ∧ e.out.head? = some (.fabReply src.toNat 0 (.done 0)) ∧
          e.flash = c.flash ∧ e.ident = c.ident ∧ e.time = c.time ∧ e.keys = c.keys)))) ∧
  (∀ (s : State) (ream : Fin 4), s.chip.live = true →
    let c := s.chip
    let l := c.ingressAt ream.val
    let acked := fun (e : Ingress) (old : W64) => ((e.source :: e.merged.map (fun m => m.source)).map (fun x => Out.fabReply x.1 x.2 (.done old))).reverse
    (l = [] → Becomes (.fabricStore ream) s c ∧ Becomes (.fabricAtomic ream) s c) ∧
    (∀ e t, l = e :: t →
      (∀ o d, e.op = .store o d → Becomes (.fabricAtomic ream) s c ∧
        let done := e.merged.foldl (fun (c : Chip) m => c.twrite e.slot m.va m.data) (c.twrite e.slot e.va d)
        Yields (.fabricStore ream) s (fun x => x.mem = done.mem ∧ x.host = done.host ∧ x.ingressAt ream.val = t ∧ x.out = acked e 0 ++ done.out ∧
          (∀ n, n ≠ ream.val → x.ingressAt n = c.ingressAt n) ∧ x.flash = c.flash ∧ x.ident = c.ident ∧ x.time = c.time ∧ x.keys = c.keys)) ∧
      (∀ o a x y, e.op = .atomic o a x y → Becomes (.fabricStore ream) s c ∧
        let n := if a = 2 ∨ a = 4 then 4 else 8
        let old : W64 := BitVec.ofNat 64 (natLE (c.treadN e.slot e.va n))
        let done := c.twrite e.slot e.va (bytesLE n (atomicNew a old x y).toNat)
        Yields (.fabricAtomic ream) s (fun z => z.mem = done.mem ∧ z.host = done.host ∧ z.ingressAt ream.val = t ∧ z.out = acked e old ++ done.out ∧
          (∀ n, n ≠ ream.val → z.ingressAt n = c.ingressAt n) ∧ z.flash = c.flash ∧ z.ident = c.ident ∧ z.time = c.time ∧ z.keys = c.keys)))) ∧
  (∀ (slot : Nat) (m : MergedStore) (l l' : List Ingress) (f : Nat → Nat → Byte), mergeStore slot m l = some l' →
    ingressActs l' f = ingressActs (l ++ [⟨m.source, m.job, slot, m.va, .store 0 m.data, []⟩]) f ∧ l'.length = l.length ∧ l'.map (fun e => e.op) = l.map (fun e => e.op)) ∧
  (∀ (old x y : W64), atomicNew 0 old x y = x ∧ atomicNew 1 old x y = (if old = x then y else old) ∧ atomicNew 3 old x y = old + x ∧
    (atomicNew 2 old x y).toNat = (old.toNat + x.toNat) % 2 ^ 32 ∧ atomicNew 5 old x y = old &&& x ∧ atomicNew 6 old x y = old ||| x ∧
    atomicNew 7 old x y = old ^^^ x ∧ (atomicNew 8 old x y).toInt = min old.toInt x.toInt ∧ (atomicNew 9 old x y).toInt = max old.toInt x.toInt ∧
    (atomicNew 10 old x y).toNat = min old.toNat x.toNat ∧ (atomicNew 11 old x y).toNat = max old.toNat x.toNat)

/-- A record goes when no FENCE of its source stands before it and every earlier record of its source to its destination is sent; a message sends its reservation first, anything else up to 4 KiB, as far as port, credits and buckets allow; otherwise it waits. A FENCE closes when no earlier record of its source is left. A POP advances HEAD, at most to TAIL, counting the excess in DENIED. READY lets the payload follow; an acknowledgement closes a sent record, an atomic's old value going to its output slot; a failed check, or NOT_READY past RETRY_LIMIT, ends the command; NOT_READY waits min(RETRY_BASE x 2^(n-1), 1000) microseconds, then the reservation goes again. An answer to nothing outstanding counts in STALE_DROP. A remote read is sent once, its data is kept for its fills, a failure ends the command. RXQ_PEEK takes header and payload, or zeros. A read or record without reply for DEAD_TIMEOUT ends its command with status 0x30, counts in DEAD_TARGET and signals interrupt 15. -/
def Obligations.FabricSenderSendsCompletesAndGivesUp : Prop :=
  (∀ (s : State) (ream : Fin 4) (uid : Nat), s.chip.live = true →
    let c := s.chip
    let m := ream.val
    let stale := c.bump R.FAB_CNT0 F.FAB_CNT0.STALE_DROP 1
    (c.record m uid = none → Becomes (.fabricRecordSend ream uid) s c ∧ Becomes (.fabricFence ream uid) s c ∧ Becomes (.fabricPop ream uid) s c ∧
      Becomes (.reservationRetry ream uid) s c ∧ Becomes (.deadTargetTimeout (.record ream uid)) s c ∧ Becomes (.notReadyReceive ream uid) s stale ∧
      ∀ reply, Becomes (.recordAckReceive ream uid reply) s stale) ∧
    (∀ r, c.record m uid = some r →
      let earlier := (c.engine m).takeWhile (fun x => x.uid != uid)
      let free : Prop := ∀ x ∈ earlier, x.job = r.job → x.op ≠ 4 ∧ (r.op = 5 ∨ x.op = 5 ∨ x.dest ≠ r.dest ∨ x.state = .sent)
      let goes := r.op ≠ 4 ∧ r.op ≠ 5 ∧ free ∧ (r.state = .queued ∨ r.state = .ready)
      let reserve : Bool := r.op == 3 && r.state == .queued
      let n := if reserve then 0 else min 4096 (r.data.length - r.gone)
      let vc := if r.op = 3 ∧ r.state = .ready then 3 else 1
      let now := c.time.uptime
      let becomes := fun (e : Chip) (x : FabRec) => e.record m uid = some x ∧ (∀ u, u ≠ uid → e.record m u = c.record m u) ∧
        (∀ k, k ≠ m → e.engine k = c.engine k) ∧ e.commands = c.commands ∧ SameStore c e
      let closed : Chip := { (c.setEngine m ((c.engine m).filter (fun x => x.uid != r.uid))) with
        commands := c.commands.map (fun k => if k.uid = r.cmd then { k with fabricOpen := k.fabricOpen - 1 } else k) }
      (¬ goes ∨ c.sendPort r.dest = none → Becomes (.fabricRecordSend ream uid) s c) ∧
      (goes → ∀ p, c.sendPort r.dest = some p →
        (c.maySend p vc (flitsOf n) r.slot r.cls (flitsOf n) = false → Becomes (.fabricRecordSend ream uid) s c) ∧
        (c.maySend p vc (flitsOf n) r.slot r.cls (flitsOf n) = true → Yields (.fabricRecordSend ream uid) s (fun e =>
          (if reserve = true then becomes e { r with state := .reserving, since := now } ∧ e.out.head? = some (.fabReserve p r.dest uid)
           else becomes e { r with gone := r.gone + n, since := now, state := if r.gone + n = r.data.length then .sent else r.state } ∧
             e.out.head? = some (.fabRecord p r.dest uid r.gone n)) ∧
          (p ≠ 6 → (e.fport p).tx = ((c.fport p).tx + flitsOf n) % 4096 ∧ (e.fport p).replay.length = (c.fport p).replay.length + flitsOf n)))) ∧
      (r.op = 4 ∧ (∀ x ∈ earlier, x.job ≠ r.job) → Becomes (.fabricFence ream uid) s closed) ∧
      (¬ (r.op = 4 ∧ ∀ x ∈ earlier, x.job ≠ r.job) → Becomes (.fabricFence ream uid) s c) ∧
      (¬ (r.op = 5 ∧ free) → Becomes (.fabricPop ream uid) s c) ∧
      (r.op = 5 ∧ free →
        let k := r.op0.toNat
        (tabGet c.rxqs r.target = none → Becomes (.fabricPop ream uid) s closed) ∧
        (∀ q, tabGet c.rxqs r.target = some q →
          (k ≤ q.tail - q.head → Becomes (.fabricPop ream uid) s { closed with rxqs := tabPut c.rxqs r.target { q with head := q.head + k } }) ∧
          (q.tail - q.head < k → Yields (.fabricPop ream uid) s (fun e => e.rxqs = tabPut c.rxqs r.target { q with head := q.tail } ∧ e.engines = closed.engines ∧
            e.fld R.FAB_CNT0 F.FAB_CNT0.DENIED = min (fmax F.FAB_CNT0.DENIED) (c.fld R.FAB_CNT0 F.FAB_CNT0.DENIED + (k - (q.tail - q.head))) ∧
            e.commands = closed.commands ∧ SameStore c e)))) ∧
      (r.state = .reserving → Yields (.recordAckReceive ream uid .ready) s (fun e => becomes e { r with state := .ready, notReady := 0, since := now })) ∧
      (r.state ≠ .reserving → Becomes (.recordAckReceive ream uid .ready) s stale ∧ Becomes (.notReadyReceive ream uid) s stale) ∧
      (∀ old, (r.state ≠ .sent → Becomes (.recordAckReceive ream uid (.done old)) s stale) ∧
        (r.state = .sent → (r.op ≠ 2 ∨ r.resEn = false) → Becomes (.recordAckReceive ream uid (.done old)) s closed) ∧
        (r.state = .sent → r.op = 2 → r.resEn = true → ∀ k, closed.command r.cmd = some k →
          Becomes (.recordAckReceive ream uid (.done old)) s (closed.twrite k.slot ((k.tensorRange (8 + r.resSlot)).1 + r.resOff) (bytesLE 8 old.toNat)))) ∧
      (∀ f, Becomes (.recordAckReceive ream uid (.failed f)) s (closed.endCommand r.cmd ⟨(match f with
        | .torn => 0x31
        | .denied => 0x10
        | .noMap => 0x10
        | .sealed_ => 0x11
        | .uncorrectable => 0x21), 0, 0⟩)) ∧
      (r.state = .reserving →
        let k := r.notReady + 1
        let wait := min (c.fld R.FAB_CFG F.FAB_CFG.RETRY_BASE * 2 ^ (k - 1)) 1000
        (k ≤ c.fld R.FAB_CFG F.FAB_CFG.RETRY_LIMIT → Yields (.notReadyReceive ream uid) s (fun e =>
          becomes e { r with notReady := k, since := now, state := .waiting (now + 1000 * wait) } ∧
          e.fld R.FAB_CNT1 F.FAB_CNT1.NOT_READY_RCVD = min (fmax F.FAB_CNT1.NOT_READY_RCVD) (c.fld R.FAB_CNT1 F.FAB_CNT1.NOT_READY_RCVD + 1))) ∧
        (c.fld R.FAB_CFG F.FAB_CFG.RETRY_LIMIT < k → Becomes (.notReadyReceive ream uid) s
          (({ closed with regs := ((c.bump R.FAB_CNT1 F.FAB_CNT1.NOT_READY_RCVD 1).bump R.FAB_CNT1 F.FAB_CNT1.RETRY_LIMIT_HIT 1).regs } : Chip).endCommand r.cmd ⟨0x33, 0, 0⟩))) ∧
      ((∀ t, r.state ≠ .waiting t) → Becomes (.reservationRetry ream uid) s c) ∧
      (∀ t, r.state = .waiting t → (now < t → Becomes (.reservationRetry ream uid) s c) ∧
        (t ≤ now → ∀ p, c.sendPort r.dest = some p → c.maySend p 1 1 r.slot r.cls 1 = true →
          Yields (.reservationRetry ream uid) s (fun e => becomes e { r with state := .reserving, since := now } ∧ e.out.head? = some (.fabReserve p r.dest uid)))) ∧
      (let due := r.since + 1000 * c.fld R.FAB_CFG F.FAB_CFG.DEAD_TIMEOUT ≤ now
       let awaited := match r.state with
         | .queued => c.routePort r.dest = none ∧ r.op ≠ 4 ∧ r.op ≠ 5
         | .waiting _ => False
         | _ => True
       (¬ (due ∧ awaited) → Becomes (.deadTargetTimeout (.record ream uid)) s c) ∧
       (due ∧ awaited → Yields (.deadTargetTimeout (.record ream uid)) s (fun e => e.engines = closed.engines ∧ e.flag R.FAB_STAT F.FAB_STAT.STICKY_DEAD = true ∧
         e.flag R.GLB_IRQ_STAT ⟨15, 1⟩ = true ∧ SameStore c e ∧
         ∀ k, closed.command r.cmd = some k → k.ending = none → (e.command r.cmd).map (fun k => k.ending) = some (some ⟨0x30, 0, 0⟩)))))) ∧
  (∀ (s : State) (at_ : SheetAt) (tag : Nat), s.chip.live = true →
    let c := s.chip
    let sh := c.sheet at_
    let stale := (c.bump R.FAB_CNT0 F.FAB_CNT0.STALE_DROP 1).pump (sheetKey at_)
    (sh.request tag = none → Becomes (.remoteRead at_ tag) s c ∧ Becomes (.remoteGather at_ tag) s c ∧ Becomes (.rxqPeek at_ tag) s c ∧
      Becomes (.deadTargetTimeout (.read at_ tag)) s c ∧ ∀ reply, Becomes (.readResponseReceive at_ tag reply) s stale) ∧
    (∀ d, sh.request tag = some d →
      let put := fun (c : Chip) (x : DmaReq) => c.setSheet at_ { sh with dma := sh.dma.map (fun y => if y.tag = tag then x else y) }
      let dest := wordsNat d.words 16 2
      (∀ kind ∈ [8, 9],
        let row := if kind = 8 then Instr.remoteRead at_ tag else .remoteGather at_ tag
        let bytes := if kind = 8 then wordsNat d.words 36 4 else 64 * wordsNat d.words 36 4
        (d.kind ≠ kind ∨ d.sent.isSome = true ∨ sh.task = none ∨ c.sendPort dest = none → Becomes row s c) ∧
        (∀ t p, d.kind = kind → d.sent = none → sh.task = some t → c.sendPort dest = some p →
          let may := c.maySend p 1 1 t.slot (wordsNat d.words 40 1) (1 + flitsOf bytes)
          (may = false → Becomes row s c) ∧
          (may = true → Yields row s (fun e => (e.sheet at_).request tag = some { d with sent := some (p, c.time.uptime) } ∧
            (e.sheet at_) = { sh with dma := (e.sheet at_).dma } ∧ e.out.head? = some (.fabRead p dest (sheetKey at_) tag) ∧ SameStore c e)))) ∧
      (let awaited := (d.kind = 8 ∨ d.kind = 9) ∧ d.sent.isSome = true ∧ d.served = false
       let n := if d.kind = 8 then wordsNat d.words 36 4 else 64 * wordsNat d.words 36 4
       let dst := if d.kind = 8 then wordsNat d.words 32 4 else wordsNat d.words 44 4
       (¬ awaited → ∀ reply, Becomes (.readResponseReceive at_ tag reply) s stale) ∧
       (awaited →
         (∀ bs, bs.length ≠ n → Becomes (.readResponseReceive at_ tag (.data bs)) s (c.pump (sheetKey at_))) ∧
         (∀ bs, bs.length = n → (∀ y ∈ sh.dma, y.tag = tag → y = d) →
           Becomes (.readResponseReceive at_ tag (.data bs)) s ((put c { d with served := true, pieces := piecesAt dst bs }).pump (sheetKey at_))) ∧
         (∀ t, sh.task = some t →
           Becomes (.readResponseReceive at_ tag (.failed .torn)) s ((c.endCommand t.cmd ⟨0x31, 0, 0⟩).pump (sheetKey at_)) ∧
           Becomes (.readResponseReceive at_ tag (.failed .denied)) s ((c.endCommand t.cmd ⟨0x10, 0, 0⟩).pump (sheetKey at_)) ∧
           Becomes (.readResponseReceive at_ tag (.failed .noMap)) s ((c.endCommand t.cmd ⟨0x10, 0, 0⟩).pump (sheetKey at_))))) ∧
      (d.kind ≠ 10 ∨ d.served = true → Becomes (.rxqPeek at_ tag) s c) ∧
      (d.kind = 10 → d.served = false → (∀ y ∈ sh.dma, y.tag = tag → y = d) →
        let k := wordsNat d.words 18 2
        let dst := wordsNat d.words 20 4
        let takes := fun (bs : List Byte) => Becomes (.rxqPeek at_ tag) s (put c { d with served := true, pieces := piecesAt dst bs })
        (c.rxq dest = none → takes (List.replicate 32 0)) ∧
        (∀ q, c.rxq dest = some q →
          (q.tail ≤ q.head + k → takes (List.replicate 32 0)) ∧
          (q.head + k < q.tail →
            let place := q.range.2.1 + ((q.head + k) % 2 ^ fget q.v1 ⟨20, 4⟩) * 2 ^ fget q.v1 ⟨15, 5⟩
            takes (c.treadN q.range.1 place (min (wordsNat d.words 24 4) (32 + natLE (c.treadN q.range.1 (place + 4) 4))))))) ∧
      (let us := 1000 * c.fld R.FAB_CFG F.FAB_CFG.DEAD_TIMEOUT
       let late : Bool := match d.sent with
         | some (_, t) => decide (t + us ≤ c.time.uptime)
         | none => c.routeDead dest (c.fld R.FAB_CFG F.FAB_CFG.DEAD_TIMEOUT)
       let dead := (d.kind = 8 ∨ d.kind = 9) ∧ d.served = false ∧ late = true
       (¬ dead → Becomes (.deadTargetTimeout (.read at_ tag)) s c) ∧
       (dead → ∀ t k, sh.task = some t → c.command t.cmd = some k → k.ending = none →
         Yields (.deadTargetTimeout (.read at_ tag)) s (fun e => e.flag R.FAB_STAT F.FAB_STAT.STICKY_DEAD = true ∧ e.flag R.GLB_IRQ_STAT ⟨15, 1⟩ = true ∧
           (e.command t.cmd).map (fun k => k.ending) = some (some ⟨0x30, 0, 0⟩) ∧ (e.sheet at_).task = none ∧ SameStore c e)))))

/-- For every command and part, a step with that command at the front of the queue answers what exec answers on the part with the queue's rest. On an empty queue the step answers a next state whose queue is empty: nothing changes while the part is without power or stopped; in reset only the uptime counts, by one; otherwise uptime advances by one and chip time by one nanosecond. That an idle step is one cycle of the 1.0 GHz control clock is the model's choice (log entry 2). A word of the opcode table spells no command, since the table gives no row any bits. -/
def Obligations.StepTakesTheCommandAtTheFront : Prop :=
  (∀ (i : Instr) (c : Chip) (rest : List Instr), step ⟨c, i :: rest⟩ = exec i ⟨c, rest⟩) ∧
  (∀ c : Chip, ∃ e : Chip, step ⟨c, []⟩ = .next ⟨e, []⟩ ∧
    (c.pins.pwrok = false ∨ c.power.stopped = true → e = c) ∧
    (c.pins.pwrok = true → c.power.stopped = false → c.pins.resetN = false → e = { c with time := { c.time with uptime := c.time.uptime + 1 } }) ∧
    (c.running = true → e.time.uptime = c.time.uptime + 1 ∧ e.time.chip = c.time.chip + 65536 ∧ e.mem = c.mem ∧ e.ident = c.ident ∧ e.commands = c.commands)) ∧
  (∀ (s : State) (nbits w : Nat), decodeTableWord nbits w = none ∧ s.withFetchWord nbits w = s)

/-- State.reset has no command waiting and meets the invariant of EveryStepKeepsAPartOutOfOperation against its own part. It is at stage 0, in health 1,000 with no debt, FAULT_N, THERMTRIP_N and MG_ALERT_N high; memory, host memory, commands, contexts, cells, keys, rings, errors and the change log are empty; every slot and every quire has state 0, RT_OFFSET is 0, DEAD_TIMEOUT 2,000, RETRY_BASE 10 and RETRY_LIMIT 16 as their tables give them; a register of the map that nothing has written reads the reset value of its row. That PWROK and RESET_N are high and every rail is good in it, and which part it is, are the model's choices (log entry 1). -/
def Obligations.ResetStateHasTheStatedValues : Prop :=
  State.reset.pending = [] ∧ Quiet Chip.reset State.reset ∧ State.reset.chip = Chip.reset ∧
  (let c := State.reset.chip
   c.stage = 0 ∧ c.health.score = 1000 ∧ c.health.debt = 0 ∧ c.pins.faultN = true ∧ c.pins.thermtripN = true ∧ c.pins.mgAlertN = true ∧
   c.mem = [] ∧ c.host = [] ∧ c.commands = [] ∧ c.contexts = [] ∧ c.cells = [] ∧ c.keys = [] ∧ c.rings = [] ∧ c.errRing = [] ∧ c.log.ring = [] ∧ c.log.next = 0 ∧
   (∀ n < 64, c.slotState n = 0) ∧ (∀ q < 32, c.fld (R.QUIRE_HEALTH q) F.QUIRE_HEALTH.STATE = 0) ∧ c.rtOffset = 0 ∧
   c.fld R.FAB_CFG F.FAB_CFG.DEAD_TIMEOUT = 2000 ∧ c.fld R.FAB_CFG F.FAB_CFG.RETRY_BASE = 10 ∧ c.fld R.FAB_CFG F.FAB_CFG.RETRY_LIMIT = 16 ∧
   (∀ r : RegRef, c.reg r = BitVec.ofNat 64 r.rst) ∧
   ∀ (i : Instr) (rest : List Instr), i.beforeOperation = false → i.wf = true → step ⟨c, i :: rest⟩ = .next ⟨c, rest⟩)

/-- Every well-formed command answers a next state in which only the part has changed, on every part and queue, and what it makes of the part does not depend on the queue; an ill-formed one is a fault, whatever the state. So a run over a queue whose first commands are well-formed makes of the part what those commands make of it one after the other, and leaves the rest of the queue; where the next command is ill-formed the run ends there in that fault, however many steps it is given. That an ill-formed operand is a fault is the model's choice (log entry 6): the spec has no such command. -/
def Obligations.RunsTakeCommandsInOrderAndStopOnlyWhereIllFormed : Prop :=
  (∀ (i : Instr) (c : Chip), i.wf = true → ∃ e : Chip, ∀ l : List Instr, exec i ⟨c, l⟩ = .next ⟨e, l⟩) ∧
  (∀ (i : Instr) (s : State), i.wf = false → exec i s = .fault .illFormed) ∧
  (∀ (l : List Instr) (c : Chip), l.all Instr.wf = true → ∃ e : Chip, runAll l c = some e ∧
    (∀ rest : List Instr, runSteps l.length ⟨c, l ++ rest⟩ = .next ⟨e, rest⟩) ∧
    (∀ (i : Instr) (rest : List Instr) (n : Nat), i.wf = false → runSteps (l.length + 1 + n) ⟨c, l ++ i :: rest⟩ = .fault .illFormed)) ∧
  (∀ (l m : List Instr) (c : Chip), runAll (l ++ m) c = (runAll l c).bind (runAll m))

/-- The invariant: the part is not in operation (not powered, in reset, stopped by THERMTRIP, at stage 0 or in recovery mode), no row that may act in that state waits, and everything of the part but its time is as at the start. For every state that meets it, whatever the queue holds, a step that answers a next state keeps it, and so does every run. A part that does not run at all keeps the same against every row that is no move of a pin or of the power: no register access, start-up, monitor, flash or management row acts on it, so a part that THERMTRIP has stopped changes only after a power cycle or a pin. Time that passes on an empty queue is only counted. -/
def Obligations.EveryStepKeepsAPartOutOfOperation : Prop :=
  (∀ (c0 : Chip) (s t : State), Quiet c0 s → step s = .next t → Quiet c0 t) ∧
  (∀ (c0 : Chip) (s t : State), Dark c0 s → step s = .next t → Dark c0 t) ∧
  (∀ (c0 : Chip) (s t : State) (n : Nat), Quiet c0 s → runSteps n s = .next t → Quiet c0 t) ∧
  (∀ (c0 : Chip) (s t : State) (n : Nat), Dark c0 s → runSteps n s = .next t → Dark c0 t) ∧
  (∀ s : State, s.chip.running = true → 115 ≤ s.chip.power.junction → (∀ i ∈ s.pending, i.movesPin = false) →
    ∃ t, exec .thermtrip s = .next t ∧ Dark t.chip t) ∧
  (∀ s : State, (∀ i ∈ s.pending, i.movesPin = false) → ∃ t, exec .pwrokFall s = .next t ∧ Dark t.chip t)

/-- In every numerology mu from 0 to 3, the slots of a frame, the ordinary and long symbol lengths, the symbols that are long, and the slot lengths are those of the table; the long symbols are the first of each half subframe of 61,440 fine ticks, 64 fine ticks longer than the others; and so, for every fine tick of a frame, the view of radio time names a slot of the frame, a symbol of that slot and a tick inside that symbol, counted from the symbol's start. -/
def Obligations.SymbolsAndSlotsHaveTheTabledLengths : Prop :=
  (∀ mu : Fin 4, slotsPerFrame mu.val = [10, 20, 40, 80].getD mu.val 0) ∧
  (∀ (mu : Fin 4) (slot sym : Nat), sym < 14 →
    let long : Prop := match mu with
      | 0 => sym = 0 ∨ sym = 7
      | 1 => sym = 0
      | 2 => sym = 0 ∧ slot % 2 = 0
      | 3 => sym = 0 ∧ slot % 4 = 0
    (long → symLen mu.val slot sym = [8832, 4448, 2256, 1160].getD mu.val 0) ∧
    (¬ long → symLen mu.val slot sym = [8768, 4384, 2192, 1096].getD mu.val 0) ∧
    (long ↔ symStart mu.val slot sym % 61440 = 0)) ∧
  (∀ (mu : Fin 4) (slot : Nat), ((List.range 14).map (symLen mu.val slot)).sum = match mu with
    | 0 => 122880
    | 1 => 61440
    | 2 => if slot % 2 = 0 then 30752 else 30688
    | 3 => if slot % 4 = 0 then 15408 else 15344) ∧
  (∀ (mu : Fin 4) (slot : Nat), symStart mu.val (slot + 1) 0 = symStart mu.val slot 0 + ((List.range 14).map (symLen mu.val slot)).sum) ∧
  (∀ (mu : Fin 4) (t : Nat), t < ticksPerFrame →
    let v := rtView mu.val t
    v.1 < slotsPerFrame mu.val ∧ v.2.1 < 14 ∧ v.2.2 < symLen mu.val v.1 v.2.1 ∧ symStart mu.val v.1 v.2.1 + v.2.2 = t)

/-- With chip time in units of 2^-16 ns and a fine tick of 16 Tc = 3125/384 ns, let t be chip time less the 315,964,819 s of the GPS epoch less RT_OFFSET fine ticks. Then the frame is floor(t / 10 ms) modulo 1,024 and the tick is floor((t - frames x 10 ms) / 16 Tc), whatever else the part holds, also for t below zero: no leap second and no UTC offset enters. RT_OFFSET is a signed count that is 0 after reset, and a complemented write leaves it within -1,258,291,200 to 1,258,291,200 where it was within. CT_SEC_READ latches the frame and the tick of its instant. -/
def Obligations.RadioTimeFollowsChipTime : Prop :=
  (∀ c : Chip,
    let unit : Int := 65536 * 384
    let ns : Int := unit
    let fine : Int := 65536 * 3125
    let t : Int := (c.time.chip : Int) * 384 - 315964819 * 1000000000 * ns - signed 32 (c.reg R.RT_OFFSET).toNat * fine
    let frames := t / (10000000 * ns)
    (frameOf c.tick : Int) = frames % 1024 ∧ (tickInFrame c.tick : Int) = (t - frames * (10000000 * ns)) / fine ∧ tickInFrame c.tick < 1228800) ∧
  (∀ c d : Chip, c.time.chip = d.time.chip → c.reg R.RT_OFFSET = d.reg R.RT_OFFSET → c.tick = d.tick) ∧
  Chip.reset.rtOffset = 0 ∧
  (∀ (s : State) (r : Requester) (v k : W32), s.chip.rtOffset.natAbs ≤ 1258291200 → Yields (.rtOffsetWrite r v k) s (fun e => e.rtOffset.natAbs ≤ 1258291200)) ∧
  (∀ (s : State) (r : Requester), s.chip.live = true → s.chip.reaches r = true → mayReachBar0 r = true →
    Yields (.ctSecRead r) s (fun e => ∃ l : List W64, (e.getReq r).ctLatch = some l ∧
      nth l 1 0 = BitVec.ofNat 64 (frameOf s.chip.tick * 2 ^ 32 + tickInFrame s.chip.tick)))
end

