-- ==== Sys2Proof/Laws/Table.lean ====
section
/-! SUPPORT. Sparse tables and byte memories: a read after a write, and the canonical form. -/

namespace Sys2Proof.Laws

open Sys2Proof.Machine

variable {α : Type}

@[simp] theorem tabGet_put_same (t : Tab α) (k : Nat) (v : α) : tabGet (tabPut t k v) k = some v := by
  induction t with
  | nil => simp [tabPut, tabGet]
  | cons x t ih =>
    obtain ⟨j, w⟩ := x
    simp only [tabPut]
    repeat' split
    all_goals simp_all [tabGet]

theorem tabGet_put_other (t : Tab α) {k j : Nat} (v : α) (h : k ≠ j) : tabGet (tabPut t k v) j = tabGet t j := by
  induction t with
  | nil => simp [tabPut, tabGet, h]
  | cons x t ih =>
    obtain ⟨i, w⟩ := x; simp only [tabPut]
    split
    · simp [tabGet, h]
    · split
      · rename_i e; subst e; simp [tabGet, h]
      · simp [tabGet, ih]

@[simp] theorem tabGet_del_same (t : Tab α) (k : Nat) : tabGet (tabDel t k) k = none := by
  induction t with
  | nil => rfl
  | cons x t ih => obtain ⟨j, w⟩ := x; simp only [tabDel]; split <;> simp_all [tabGet]

theorem tabGet_del_other (t : Tab α) {k j : Nat} (h : k ≠ j) : tabGet (tabDel t k) j = tabGet t j := by
  induction t with
  | nil => rfl
  | cons x t ih =>
    obtain ⟨i, w⟩ := x; simp only [tabDel]; split
    · rename_i e; subst e; simp [tabGet, ih, h]
    · simp [tabGet, ih]

@[simp] theorem tabGetD_put_same (t : Tab α) (k : Nat) (v d : α) : tabGetD (tabPut t k v) k d = v := by simp [tabGetD]
theorem tabGetD_put_other (t : Tab α) {k j : Nat} (v d : α) (h : k ≠ j) : tabGetD (tabPut t k v) j d = tabGetD t j d := by
  simp [tabGetD, tabGet_put_other t v h]
@[simp] theorem tabGetD_del_same (t : Tab α) (k : Nat) (d : α) : tabGetD (tabDel t k) k d = d := by simp [tabGetD]
theorem tabGetD_del_other (t : Tab α) {k j : Nat} (d : α) (h : k ≠ j) : tabGetD (tabDel t k) j d = tabGetD t j d := by
  simp [tabGetD, tabGet_del_other t h]

/-! ### Keys rise -/

theorem tabSorted_tail {x : Nat × α} {t : Tab α} (h : tabSorted (x :: t) = true) : tabSorted t = true := by
  cases t with
  | nil => rfl
  | cons y t => obtain ⟨j, v⟩ := x; obtain ⟨k, w⟩ := y; simp [tabSorted] at h; exact h.2

theorem tabSorted_iff (t : Tab α) : tabSorted t = true ↔ t.Pairwise (fun x y => x.1 < y.1) := by
  induction t with
  | nil => simp [tabSorted]
  | cons x t ih =>
    obtain ⟨j, v⟩ := x
    cases t with
    | nil => simp [tabSorted]
    | cons y t =>
      obtain ⟨k, w⟩ := y
      simp only [tabSorted, Bool.and_eq_true, decide_eq_true_eq, ih]
      constructor
      · rintro ⟨h, p⟩
        refine List.Pairwise.cons ?_ p
        intro z hz
        rcases List.mem_cons.1 hz with rfl | hz
        · exact h
        · exact Nat.lt_trans h ((List.pairwise_cons.1 p).1 z hz)
      · intro p
        have q := List.pairwise_cons.1 p
        exact ⟨q.1 (k, w) (by simp), q.2⟩

theorem mem_tabPut {t : Tab α} {k : Nat} {v : α} {x : Nat × α} (h : x ∈ tabPut t k v) : x = (k, v) ∨ x ∈ t := by
  induction t with
  | nil => simpa [tabPut] using h
  | cons y t ih =>
    obtain ⟨j, w⟩ := y
    simp only [tabPut] at h
    split at h
    · simpa using h
    · split at h
      · rcases List.mem_cons.1 h with h | h <;> simp [h]
      · rcases List.mem_cons.1 h with h | h
        · simp [h]
        · rcases ih h with h | h <;> simp [h]

theorem mem_tabDel {t : Tab α} {k : Nat} {x : Nat × α} (h : x ∈ tabDel t k) : x ∈ t := by
  induction t with
  | nil => simp [tabDel] at h
  | cons y t ih =>
    obtain ⟨j, w⟩ := y
    simp only [tabDel] at h
    split at h
    · exact List.mem_cons_of_mem _ (ih h)
    · rcases List.mem_cons.1 h with h | h
      · simp [h]
      · exact List.mem_cons_of_mem _ (ih h)

theorem tabPut_sorted {t : Tab α} (k : Nat) (v : α) (h : tabSorted t = true) : tabSorted (tabPut t k v) = true := by
  rw [tabSorted_iff] at *
  induction t with
  | nil => simp [tabPut]
  | cons x t ih =>
    obtain ⟨j, w⟩ := x
    have q := List.pairwise_cons.1 h
    simp only [tabPut]
    split
    · rename_i l
      refine List.Pairwise.cons ?_ h
      intro z hz
      rcases List.mem_cons.1 hz with rfl | hz
      · exact l
      · exact Nat.lt_trans l (q.1 z hz)
    · split
      · rename_i e; subst e; exact List.Pairwise.cons q.1 q.2
      · refine List.Pairwise.cons ?_ (ih q.2)
        intro z hz
        rcases mem_tabPut hz with rfl | hz
        · simp; omega
        · exact q.1 z hz

theorem tabDel_sorted {t : Tab α} (k : Nat) (h : tabSorted t = true) : tabSorted (tabDel t k) = true := by
  rw [tabSorted_iff] at *
  induction t with
  | nil => simp [tabDel]
  | cons x t ih =>
    obtain ⟨j, w⟩ := x
    have q := List.pairwise_cons.1 h
    simp only [tabDel]
    split
    · exact ih q.2
    · exact List.Pairwise.cons (fun z hz => q.1 z (mem_tabDel hz)) (ih q.2)

/-! ### Memory -/

@[simp] theorem memGet_put_same (m : Memory) (a : Nat) (b : Byte) : memGet (memPut m a b) a = b := by
  unfold memGet memPut; split <;> simp_all

theorem memGet_put_other (m : Memory) {a x : Nat} (b : Byte) (h : a ≠ x) : memGet (memPut m a b) x = memGet m x := by
  unfold memGet memPut; split
  · exact tabGetD_del_other m 0 h
  · exact tabGetD_put_other m b 0 h

/-- Writing one byte keeps the canonical form. -/
theorem memPut_wf {m : Memory} (a : Nat) (b : Byte) (h : Memory.wf m = true) : Memory.wf (memPut m a b) = true := by
  simp only [Memory.wf, Bool.and_eq_true, List.all_eq_true] at *
  unfold memPut; split
  · exact ⟨tabDel_sorted a h.1, fun x hx => h.2 x (mem_tabDel hx)⟩
  · rename_i hb
    refine ⟨tabPut_sorted a b h.1, fun x hx => ?_⟩
    rcases mem_tabPut hx with rfl | hx
    · simpa using hb
    · exact h.2 x hx

/-- Writing bytes keeps the canonical form. -/
theorem memWrite_wf {m : Memory} (a : Nat) (bs : List Byte) (h : Memory.wf m = true) : Memory.wf (memWrite m a bs) = true := by
  induction bs generalizing m a with
  | nil => exact h
  | cons b t ih => exact ih (a + 1) (memPut_wf a b h)

/-- Writing a number keeps the canonical form. -/
theorem memPutNat_wf {m : Memory} (a n x : Nat) (h : Memory.wf m = true) : Memory.wf (memPutNat m a n x) = true :=
  memWrite_wf a _ h

/-- Zeroing bytes keeps the canonical form. -/
theorem memZero_wf {m : Memory} (a n : Nat) (h : Memory.wf m = true) : Memory.wf (memZero m a n) = true := by
  simp only [Memory.wf, Bool.and_eq_true, List.all_eq_true, tabSorted_iff] at *
  exact ⟨h.1.filter _, fun x hx => h.2 x ((List.mem_filter.1 hx).1)⟩

/-- A byte outside the bytes written reads as before. -/
theorem memGet_write_outside (m : Memory) (a : Nat) (bs : List Byte) (x : Nat) (h : x < a ∨ a + bs.length ≤ x) :
    memGet (memWrite m a bs) x = memGet m x := by
  induction bs generalizing m a with
  | nil => rfl
  | cons b t ih =>
    simp only [memWrite, List.length_cons] at *
    rw [ih _ (a + 1) (by omega), memGet_put_other _ _ (by omega)]

/-- A byte inside the bytes written reads as written. -/
theorem memGet_write_inside (m : Memory) (a : Nat) (bs : List Byte) (i : Nat) (h : i < bs.length) :
    memGet (memWrite m a bs) (a + i) = bs[i] := by
  induction bs generalizing m a i with
  | nil => simp at h
  | cons b t ih =>
    simp only [memWrite]
    cases i with
    | zero => rw [memGet_write_outside _ _ _ _ (by omega)]; simp
    | succ i => rw [show a + (i + 1) = (a + 1) + i by omega, ih _ _ _ (by simpa using h)]; simp

end Sys2Proof.Laws
end

