-- ==== Sys2Proof/Laws/Fields.lean ====
section
/-! SUPPORT. Fields of words and words of the register file: a read after a write, and what a write leaves alone. -/

namespace Sys2Proof.Laws

open Sys2Proof.Machine

/-! ### Fields of a word -/

/-- Bit i of a field's mask. -/
theorem fmask_bit (f : Fld) (i : Nat) (h : i < 64) : (fmask f).getLsbD i = (decide (f.lo ≤ i) && decide (i < f.lo + f.w)) := by
  simp only [fmask, BitVec.getLsbD_ofNat, h, decide_true, Bool.true_and, Nat.testBit_shiftLeft, Nat.testBit_two_pow_sub_one]
  by_cases a : f.lo ≤ i
  · simp [a]; omega
  · simp [a]

/-- Bit i of a word with a field put. -/
theorem fput_bit (x : W64) (f : Fld) (v i : Nat) (h : i < 64) :
    (fput x f v).getLsbD i = if f.lo ≤ i ∧ i < f.lo + f.w then v.testBit (i - f.lo) else x.getLsbD i := by
  simp only [fput, BitVec.getLsbD_or, BitVec.getLsbD_and, BitVec.getLsbD_not, h, decide_true, Bool.true_and, fmask_bit f i h,
    BitVec.getLsbD_ofNat, Nat.testBit_shiftLeft, Nat.testBit_mod_two_pow]
  by_cases a : f.lo ≤ i
  · by_cases b : i < f.lo + f.w
    · simp [a, b]; intro _; omega
    · simp [a, b]; intro; omega
  · simp [a]

/-- Bit i of a field read from a word. -/
theorem fget_bit (x : W64) (f : Fld) (i : Nat) : (fget x f).testBit i = (decide (i < f.w) && x.getLsbD (f.lo + i)) := by
  simp [fget, Nat.testBit_mod_two_pow, Nat.testBit_shiftRight, BitVec.getLsbD]

/-- A field that was put reads as put, cut to its width. -/
theorem fget_fput (x : W64) (f : Fld) (v : Nat) (h : f.lo + f.w ≤ 64) : fget (fput x f v) f = v % 2 ^ f.w := by
  apply Nat.eq_of_testBit_eq
  intro i
  rw [fget_bit, Nat.testBit_mod_two_pow]
  by_cases a : i < f.w
  · rw [fput_bit _ _ _ _ (by omega)]; simp [a]
  · simp [a]

/-- Putting a field leaves the fields beside it. -/
theorem fget_fput_other (x : W64) (f g : Fld) (v : Nat) (h : f.lo + f.w ≤ g.lo ∨ g.lo + g.w ≤ f.lo) : fget (fput x f v) g = fget x g := by
  apply Nat.eq_of_testBit_eq
  intro i
  rw [fget_bit, fget_bit]
  by_cases a : i < g.w
  · by_cases b : g.lo + i < 64
    · rw [fput_bit _ _ _ _ b, if_neg (by omega)]
    · simp [BitVec.getLsbD_of_ge _ _ (by omega : 64 ≤ g.lo + i)]
  · simp [a]

/-- A field is less than two to its width. -/
theorem fget_lt (x : W64) (f : Fld) : fget x f < 2 ^ f.w := Nat.mod_lt _ (Nat.two_pow_pos _)

/-! ### Registers -/

/-- A register reads as written. -/
@[simp] theorem reg_setReg_same (c : Chip) (r : RegRef) (v : W64) : (c.setReg r v).reg r = v := by
  unfold Chip.setReg Chip.reg
  split <;> simp_all

/-- Writing a register leaves those at other offsets. -/
theorem reg_setReg_other (c : Chip) (r q : RegRef) (v : W64) (h : r.addr ≠ q.addr) : (c.setReg r v).reg q = c.reg q := by
  unfold Chip.setReg Chip.reg
  split
  · exact tabGetD_del_other _ _ h
  · exact tabGetD_put_other _ _ _ h

/-- A field reads as put. -/
theorem fld_setFld_same (c : Chip) (r : RegRef) (f : Fld) (v : Nat) (h : f.lo + f.w ≤ 64) : (c.setFld r f v).fld r f = v % 2 ^ f.w := by
  simp [Chip.setFld, Chip.fld, fget_fput _ _ _ h]

/-- Putting a field leaves the other fields of its register. -/
theorem fld_setFld_beside (c : Chip) (r : RegRef) (f g : Fld) (v : Nat) (h : f.lo + f.w ≤ g.lo ∨ g.lo + g.w ≤ f.lo) :
    (c.setFld r f v).fld r g = c.fld r g := by
  simp [Chip.setFld, Chip.fld, fget_fput_other _ _ _ _ h]

/-- Putting a field leaves the registers at other offsets. -/
theorem fld_setFld_other (c : Chip) (r q : RegRef) (f g : Fld) (v : Nat) (h : r.addr ≠ q.addr) :
    (c.setFld r f v).fld q g = c.fld q g := by
  simp [Chip.setFld, Chip.fld, reg_setReg_other _ _ _ _ h]

/-- The register file keeps its form. -/
theorem setReg_sorted (c : Chip) (r : RegRef) (v : W64) (h : tabSorted c.regs = true) : tabSorted (c.setReg r v).regs = true := by
  unfold Chip.setReg
  split
  · exact tabDel_sorted _ h
  · exact tabPut_sorted _ _ h

end Sys2Proof.Laws
end

