-- ==== Sys2Proof/Laws/Ops.lean ====
section
/-! SUPPORT. What each shared operation can change: one lemma an operation, which names the fields it may put. -/

namespace Sys2Proof.Laws

open Sys2Proof.Machine

theorem setReg_form (c : Chip) (r : RegRef) (v : W64) : ∃ rs, c.setReg r v = { c with regs := rs } := ⟨_, rfl⟩
theorem setFld_form (c : Chip) (r : RegRef) (f : Fld) (v : Nat) : ∃ rs, c.setFld r f v = { c with regs := rs } := ⟨_, rfl⟩

/-- A message changes the registers and what has left the part. -/
theorem msix_form (c : Chip) (n : Nat) : ∃ rs o, c.msix n = { c with regs := rs, out := o } := by
  unfold Chip.msix; split
  · exact ⟨_, c.out, rfl⟩
  · exact ⟨c.regs, _, rfl⟩

theorem irq_form (c : Chip) (k : Nat) : ∃ rs o, c.irq k = { c with regs := rs, out := o } := by
  unfold Chip.irq
  simp only []
  split
  · exact ⟨c.regs, c.out, rfl⟩
  · split
    · obtain ⟨rs, o, h⟩ := msix_form (c.setFld R.GLB_IRQ_STAT ⟨k, 1⟩ 1) k
      exact ⟨rs, o, by rw [h]; rfl⟩
    · exact ⟨_, c.out, rfl⟩

/-- The same, with the fields by name. -/
theorem irq_eq (c : Chip) (k : Nat) : c.irq k = { c with regs := (c.irq k).regs, out := (c.irq k).out } := by
  obtain ⟨rs, o, h⟩ := irq_form c k
  rw [h]

theorem irqLevel_form (c : Chip) (k : Nat) (b : Bool) : ∃ rs o, c.irqLevel k b = { c with regs := rs, out := o } := by
  unfold Chip.irqLevel; split
  · exact irq_form c k
  · exact ⟨_, c.out, rfl⟩

/-- An entry changes the log, and where its ring is full a stall counter and the draw of its open length. -/
theorem logEntry_form (c : Chip) (origin space index : Nat) (old new : W32) (cont : Bool) :
    ∃ rs l n, c.logEntry origin space index old new cont = { c with regs := rs, log := l, freeCtr := n } := by
  unfold Chip.logEntry
  simp only []
  split
  · exact ⟨c.regs, _, c.freeCtr, rfl⟩
  · exact ⟨_, _, _, rfl⟩

/-- A spill leaves the next sequence number. -/
@[simp] theorem spill_next (l : ChangeLog) : l.spill.next = l.next := by
  unfold ChangeLog.spill; split <;> rfl

/-- An entry takes the next sequence number. -/
@[simp] theorem logEntry_next (c : Chip) (origin space index : Nat) (old new : W32) (cont : Bool) :
    (c.logEntry origin space index old new cont).log.next = c.log.next + 1 := by
  unfold Chip.logEntry
  simp only []
  split
  · rfl
  · show (c.log.spill).next + 1 = _
    rw [spill_next]

theorem logWords_form (l : List (Nat × W32 × W32)) (origin space : Nat) (c : Chip) :
    ∃ rs g n, c.logWords origin space l = { c with regs := rs, log := g, freeCtr := n } := by
  induction l generalizing c with
  | nil => exact ⟨c.regs, c.log, c.freeCtr, rfl⟩
  | cons x t ih =>
    obtain ⟨i, o, n⟩ := x
    cases t with
    | nil => exact logEntry_form c origin space i o n false
    | cons y t =>
      obtain ⟨rs, g, k, h⟩ := logEntry_form c origin space i o n true
      obtain ⟨rs', g', k', h'⟩ := ih (c.logEntry origin space i o n true)
      exact ⟨rs', g', k', by rw [Chip.logWords, h', h]; simp⟩

theorem setLogged_form (c : Chip) (origin : Nat) (r : RegRef) (v : W64) :
    ∃ rs g n, c.setLogged origin r v = { c with regs := rs, log := g, freeCtr := n } := by
  obtain ⟨rs, g, n, h⟩ := logWords_form (changedWords r.addr (c.reg r) v) origin 0 c
  exact ⟨_, g, n, by rw [Chip.setLogged, h]; rfl⟩

theorem logOp_form (c : Chip) (origin op obj : Nat) (old new : W32) :
    ∃ rs g n, c.logOp origin op obj old new = { c with regs := rs, log := g, freeCtr := n } :=
  logEntry_form c origin 3 _ old new false

theorem logTable_form (c : Chip) (origin table entry : Nat) (o0 o1 n0 n1 : W64) :
    ∃ rs g n, c.logTable origin table entry o0 o1 n0 n1 = { c with regs := rs, log := g, freeCtr := n } :=
  logWords_form _ origin 1 c

/-- A register that is put with its log entries reads as put. -/
@[simp] theorem reg_setLogged_same (c : Chip) (origin : Nat) (r : RegRef) (v : W64) : (c.setLogged origin r v).reg r = v := by
  rw [Chip.setLogged, reg_setReg_same]

theorem healthChanged_form (c : Chip) (before : Nat) : ∃ rs o p, c.healthChanged before = { c with regs := rs, out := o, pins := p } := by
  unfold Chip.healthChanged; split
  · exact ⟨c.regs, c.out, c.pins, rfl⟩
  · obtain ⟨rs, o, h⟩ := irq_form { c with pins := { c.pins with mgAlertN := false } } 10
    exact ⟨rs, o, _, h⟩

theorem recordError_form (c : Chip) (a : ErrAt) (code cls points : Nat) :
    ∃ rs o e, c.recordError a code cls points = { c with regs := rs, out := o, errRing := e } := by
  unfold Chip.recordError
  simp only []
  split
  · rw [irq_eq]; exact ⟨_, _, _, rfl⟩
  · exact ⟨_, c.out, c.errRing, rfl⟩

theorem charge_form (c : Chip) (e : Evidence) (n : Nat) :
    ∃ h rs o p, (c.charge e n).2 = { c with health := h, regs := rs, out := o, pins := p } := by
  unfold Chip.charge
  obtain ⟨rs, o, p, h⟩ := healthChanged_form _ _
  exact ⟨_, rs, o, p, h⟩

/-- A soft error changes the health, the error ring, the registers, MG_ALERT_N and what has left the part. -/
theorem softError_form (c : Chip) (a : ErrAt) (code : Nat) (e : Evidence) (n : Nat) :
    ∃ h rs o p r, c.softError a code e n = { c with health := h, regs := rs, out := o, pins := p, errRing := r } := by
  unfold Chip.softError
  obtain ⟨h, rs, o, p, hc⟩ := charge_form c e n
  obtain ⟨rs', o', r, hr⟩ := recordError_form (c.charge e n).2 a code 1 (c.charge e n).1
  exact ⟨h, rs', o', p, r, by
    show (c.charge e n).2.recordError a code 1 (c.charge e n).1 = _
    rw [hr, hc]⟩

/-- A fold whose step keeps a value keeps it. -/
theorem foldl_keeps {α β : Type} (g : Chip → β) (f : Chip → α → Chip) (h : ∀ c x, g (f c x) = g c) (l : List α) (c : Chip) :
    g (l.foldl f c) = g c := by
  induction l generalizing c with
  | nil => rfl
  | cons x t ih => rw [List.foldl_cons, ih, h]

/-- A fold whose step keeps a property keeps it. -/
theorem foldl_inv {α : Type} (p : Chip → Prop) (f : Chip → α → Chip) (h : ∀ c x, p c → p (f c x)) (l : List α) (c : Chip) (hc : p c) :
    p (l.foldl f c) := by
  induction l generalizing c with
  | nil => exact hc
  | cons x t ih => exact ih _ (h c x hc)

/-- A count that a sample takes changes registers alone. -/
theorem cntSampleTake_form (c : Chip) (u : CounterUnit) (n : Nat) (k : CntCause) : ∃ rs, cntSampleTake c u n k = { c with regs := rs } := by
  unfold cntSampleTake
  split
  · exact ⟨c.regs, rfl⟩
  · by_cases v : c.flag (cntSample u n) F.SC_SAMPLE.VALID = true <;> cases u <;> simp only [v, if_true] <;> exact ⟨_, rfl⟩

theorem cntAdd_form (u : CounterUnit) (k : CntCause) (fuel n inc : Nat) (c : Chip) : ∃ rs, cntAdd c u k fuel n inc = { c with regs := rs } := by
  induction fuel generalizing n inc c with
  | zero =>
    unfold cntAdd
    simp only []
    split
    · exact ⟨c.regs, rfl⟩
    · split
      · exact ⟨_, rfl⟩
      · obtain ⟨rs, h⟩ := cntSampleTake_form c u n k
        exact ⟨_, by rw [h]; rfl⟩
  | succ f ih =>
    unfold cntAdd
    simp only []
    split
    · exact ⟨c.regs, rfl⟩
    · split
      · exact ⟨_, rfl⟩
      · obtain ⟨rs, h⟩ := cntSampleTake_form c u n k
        split
        · obtain ⟨rs', h'⟩ := ih (n + 1) 1 (((cntSampleTake c u n k).mark (cntCfg u n) F.SC_CFG.OVF).setFld (cntCount u n) F.SC_COUNT.VALUE
            ((c.fld (cntCount u n) F.SC_COUNT.VALUE + inc) % 2 ^ 48))
          exact ⟨rs', by rw [h', h]; rfl⟩
        · exact ⟨_, by rw [h]; rfl⟩

theorem cntRefresh_form (c : Chip) : ∃ rs o, c.cntRefresh = { c with regs := rs, out := o } := irqLevel_form c 3 _

/-- Counting an event changes the registers and may signal. -/
theorem perf_form (c : Chip) (u : CounterUnit) (code inc : Nat) (k : CntCause) : ∃ rs o, c.perf u code inc k = { c with regs := rs, out := o } := by
  unfold Chip.perf
  simp only []
  split
  · exact ⟨c.regs, c.out, rfl⟩
  · have key : ∀ l : List Nat, ∀ d : Chip, ∃ rs, l.foldl (fun c n => cntAdd c u k (cntNumber u - n) n inc) d = { d with regs := rs } := by
      intro l
      induction l with
      | nil => exact fun d => ⟨d.regs, rfl⟩
      | cons x t ih =>
        intro d
        obtain ⟨rs, h⟩ := cntAdd_form u k (cntNumber u - x) x inc d
        obtain ⟨rs', h'⟩ := ih (cntAdd d u k (cntNumber u - x) x inc)
        exact ⟨rs', by rw [List.foldl_cons, h', h]⟩
    obtain ⟨rs, h⟩ := key _ c
    obtain ⟨rs', o, h'⟩ := cntRefresh_form (List.foldl (fun c n => cntAdd c u k (cntNumber u - n) n inc) c
      (List.filter (fun n => cntCounts (c.reg (cntCfg u n)) code k) (List.range (cntNumber u))))
    exact ⟨rs', o, by rw [h', h]⟩

/-- A signalled interrupt leaves every register but GLB_IRQ_STAT and the pending bits. -/
theorem irq_reg (c : Chip) (k : Nat) (r : RegRef) (h1 : R.GLB_IRQ_STAT.addr ≠ r.addr) (h2 : (R.MSIX_PBA (k / 64)).addr ≠ r.addr) :
    (c.irq k).reg r = c.reg r := by
  unfold Chip.irq
  simp only []
  split
  · rfl
  · have key : (c.setFld R.GLB_IRQ_STAT ⟨k, 1⟩ 1).reg r = c.reg r := reg_setReg_other _ _ _ _ h1
    split
    · unfold Chip.msix
      split
      · exact (reg_setReg_other _ _ _ _ h2).trans key
      · exact key
    · exact key

theorem irq_fld (c : Chip) (k : Nat) (r : RegRef) (f : Fld) (h1 : R.GLB_IRQ_STAT.addr ≠ r.addr) (h2 : (R.MSIX_PBA (k / 64)).addr ≠ r.addr) :
    (c.irq k).fld r f = c.fld r f := by
  simp only [Chip.fld, irq_reg c k r h1 h2]

/-- An entry of the log leaves every register but the stall counter. -/
theorem logEntry_reg (c : Chip) (origin space index : Nat) (old new : W32) (cont : Bool) (r : RegRef) (h : R.LOG_STALL_US.addr ≠ r.addr) :
    (c.logEntry origin space index old new cont).reg r = c.reg r := by
  unfold Chip.logEntry
  simp only []
  split
  · rfl
  · exact reg_setReg_other _ _ _ _ h

theorem logEntry_fld (c : Chip) (origin space index : Nat) (old new : W32) (cont : Bool) (r : RegRef) (f : Fld)
    (h : R.LOG_STALL_US.addr ≠ r.addr) : (c.logEntry origin space index old new cont).fld r f = c.fld r f := by
  simp only [Chip.fld, logEntry_reg _ _ _ _ _ _ _ _ h]

theorem logOp_reg (c : Chip) (origin op obj : Nat) (old new : W32) (r : RegRef) (h : R.LOG_STALL_US.addr ≠ r.addr) :
    (c.logOp origin op obj old new).reg r = c.reg r := logEntry_reg _ _ _ _ _ _ _ _ h

theorem logOp_fld (c : Chip) (origin op obj : Nat) (old new : W32) (r : RegRef) (f : Fld) (h : R.LOG_STALL_US.addr ≠ r.addr) :
    (c.logOp origin op obj old new).fld r f = c.fld r f := logEntry_fld _ _ _ _ _ _ _ _ _ h

theorem logWords_reg (l : List (Nat × W32 × W32)) (origin space : Nat) (c : Chip) (r : RegRef) (h : R.LOG_STALL_US.addr ≠ r.addr) :
    (c.logWords origin space l).reg r = c.reg r := by
  induction l generalizing c with
  | nil => rfl
  | cons x t ih =>
    obtain ⟨i, o, n⟩ := x
    cases t with
    | nil => exact logEntry_reg _ _ _ _ _ _ _ _ h
    | cons y t => rw [Chip.logWords, ih, logEntry_reg _ _ _ _ _ _ _ _ h]; simp

theorem setLogged_reg_other (c : Chip) (origin : Nat) (r q : RegRef) (v : W64) (h : r.addr ≠ q.addr) (h2 : R.LOG_STALL_US.addr ≠ q.addr) :
    (c.setLogged origin r v).reg q = c.reg q := by
  rw [Chip.setLogged, reg_setReg_other _ _ _ _ h, logWords_reg _ _ _ _ _ h2]

end Sys2Proof.Laws
end

