-- ==== Sys2Proof/Laws/State.lean ====
section
/-! SUPPORT. Fields of the state after an update of the state: each is as it was, or what the update puts there. -/

namespace Sys2Proof.Laws

open Sys2Proof.Machine

/-- The memories of State.reset are in canonical form. -/
theorem reset_memory_wf : Memory.wf State.reset.chip.mem = true ∧ Memory.wf State.reset.chip.host = true ∧
    Memory.wf State.reset.chip.radioMem = true ∧ Memory.wf State.reset.chip.flash.bytes = true := ⟨rfl, rfl, rfl, rfl⟩

@[simp] theorem withChip_chip (s : State) (c : Chip) : (s.withChip c).chip = c := rfl
@[simp] theorem withChip_pending (s : State) (c : Chip) : (s.withChip c).pending = s.pending := rfl
@[simp] theorem withPending_chip (s : State) (l : List Instr) : (s.withPending l).chip = s.chip := rfl
@[simp] theorem withPending_pending (s : State) (l : List Instr) : (s.withPending l).pending = l := rfl
@[simp] theorem withChip_withChip (s : State) (c d : Chip) : (s.withChip c).withChip d = s.withChip d := rfl
@[simp] theorem withPending_withChip (s : State) (c : Chip) (l : List Instr) : (s.withPending l).withChip c = (s.withChip c).withPending l := rfl
@[simp] theorem withPending_withPending (s : State) (l m : List Instr) : (s.withPending l).withPending m = s.withPending m := rfl
theorem withChip_self (s : State) : s.withChip s.chip = s := rfl

/-! ### setReg -/

@[simp] theorem setReg_ident (c : Chip) (r : RegRef) (v : W64) : (c.setReg r v).ident = c.ident := rfl
@[simp] theorem setReg_pins (c : Chip) (r : RegRef) (v : W64) : (c.setReg r v).pins = c.pins := rfl
@[simp] theorem setReg_reqs (c : Chip) (r : RegRef) (v : W64) : (c.setReg r v).reqs = c.reqs := rfl
@[simp] theorem setReg_time (c : Chip) (r : RegRef) (v : W64) : (c.setReg r v).time = c.time := rfl
@[simp] theorem setReg_tsq (c : Chip) (r : RegRef) (v : W64) : (c.setReg r v).tsq = c.tsq := rfl
@[simp] theorem setReg_events (c : Chip) (r : RegRef) (v : W64) : (c.setReg r v).events = c.events := rfl
@[simp] theorem setReg_firedAt (c : Chip) (r : RegRef) (v : W64) : (c.setReg r v).firedAt = c.firedAt := rfl
@[simp] theorem setReg_log (c : Chip) (r : RegRef) (v : W64) : (c.setReg r v).log = c.log := rfl
@[simp] theorem setReg_health (c : Chip) (r : RegRef) (v : W64) : (c.setReg r v).health = c.health := rfl
@[simp] theorem setReg_errRing (c : Chip) (r : RegRef) (v : W64) : (c.setReg r v).errRing = c.errRing := rfl
@[simp] theorem setReg_missRing (c : Chip) (r : RegRef) (v : W64) : (c.setReg r v).missRing = c.missRing := rfl
@[simp] theorem setReg_mismatches (c : Chip) (r : RegRef) (v : W64) : (c.setReg r v).mismatches = c.mismatches := rfl
@[simp] theorem setReg_damaged (c : Chip) (r : RegRef) (v : W64) : (c.setReg r v).damaged = c.damaged := rfl
@[simp] theorem setReg_rcvRecords (c : Chip) (r : RegRef) (v : W64) : (c.setReg r v).rcvRecords = c.rcvRecords := rfl
@[simp] theorem setReg_rcvRunning (c : Chip) (r : RegRef) (v : W64) : (c.setReg r v).rcvRunning = c.rcvRunning := rfl
@[simp] theorem setReg_mirrors (c : Chip) (r : RegRef) (v : W64) : (c.setReg r v).mirrors = c.mirrors := rfl
@[simp] theorem setReg_flash (c : Chip) (r : RegRef) (v : W64) : (c.setReg r v).flash = c.flash := rfl
@[simp] theorem setReg_furnishMin (c : Chip) (r : RegRef) (v : W64) : (c.setReg r v).furnishMin = c.furnishMin := rfl
@[simp] theorem setReg_furnishCells (c : Chip) (r : RegRef) (v : W64) : (c.setReg r v).furnishCells = c.furnishCells := rfl
@[simp] theorem setReg_monitor (c : Chip) (r : RegRef) (v : W64) : (c.setReg r v).monitor = c.monitor := rfl
@[simp] theorem setReg_power (c : Chip) (r : RegRef) (v : W64) : (c.setReg r v).power = c.power := rfl
@[simp] theorem setReg_freeCtr (c : Chip) (r : RegRef) (v : W64) : (c.setReg r v).freeCtr = c.freeCtr := rfl
@[simp] theorem setReg_sheets (c : Chip) (r : RegRef) (v : W64) : (c.setReg r v).sheets = c.sheets := rfl
@[simp] theorem setReg_quires (c : Chip) (r : RegRef) (v : W64) : (c.setReg r v).quires = c.quires := rfl
@[simp] theorem setReg_waiting (c : Chip) (r : RegRef) (v : W64) : (c.setReg r v).waiting = c.waiting := rfl
@[simp] theorem setReg_radioReady (c : Chip) (r : RegRef) (v : W64) : (c.setReg r v).radioReady = c.radioReady := rfl
@[simp] theorem setReg_commands (c : Chip) (r : RegRef) (v : W64) : (c.setReg r v).commands = c.commands := rfl
@[simp] theorem setReg_nextCmd (c : Chip) (r : RegRef) (v : W64) : (c.setReg r v).nextCmd = c.nextCmd := rfl
@[simp] theorem setReg_contexts (c : Chip) (r : RegRef) (v : W64) : (c.setReg r v).contexts = c.contexts := rfl
@[simp] theorem setReg_programs (c : Chip) (r : RegRef) (v : W64) : (c.setReg r v).programs = c.programs := rfl
@[simp] theorem setReg_nextProgram (c : Chip) (r : RegRef) (v : W64) : (c.setReg r v).nextProgram = c.nextProgram := rfl
@[simp] theorem setReg_tokens (c : Chip) (r : RegRef) (v : W64) : (c.setReg r v).tokens = c.tokens := rfl
@[simp] theorem setReg_pages (c : Chip) (r : RegRef) (v : W64) : (c.setReg r v).pages = c.pages := rfl
@[simp] theorem setReg_mem (c : Chip) (r : RegRef) (v : W64) : (c.setReg r v).mem = c.mem := rfl
@[simp] theorem setReg_poison (c : Chip) (r : RegRef) (v : W64) : (c.setReg r v).poison = c.poison := rfl
@[simp] theorem setReg_host (c : Chip) (r : RegRef) (v : W64) : (c.setReg r v).host = c.host := rfl
@[simp] theorem setReg_mapRun (c : Chip) (r : RegRef) (v : W64) : (c.setReg r v).mapRun = c.mapRun := rfl
@[simp] theorem setReg_lastHome (c : Chip) (r : RegRef) (v : W64) : (c.setReg r v).lastHome = c.lastHome := rfl
@[simp] theorem setReg_migrations (c : Chip) (r : RegRef) (v : W64) : (c.setReg r v).migrations = c.migrations := rfl
@[simp] theorem setReg_interval (c : Chip) (r : RegRef) (v : W64) : (c.setReg r v).interval = c.interval := rfl
@[simp] theorem setReg_lend (c : Chip) (r : RegRef) (v : W64) : (c.setReg r v).lend = c.lend := rfl
@[simp] theorem setReg_borrow (c : Chip) (r : RegRef) (v : W64) : (c.setReg r v).borrow = c.borrow := rfl
@[simp] theorem setReg_rings (c : Chip) (r : RegRef) (v : W64) : (c.setReg r v).rings = c.rings := rfl
@[simp] theorem setReg_mbxQueue (c : Chip) (r : RegRef) (v : W64) : (c.setReg r v).mbxQueue = c.mbxQueue := rfl
@[simp] theorem setReg_locks (c : Chip) (r : RegRef) (v : W64) : (c.setReg r v).locks = c.locks := rfl
@[simp] theorem setReg_keys (c : Chip) (r : RegRef) (v : W64) : (c.setReg r v).keys = c.keys := rfl
@[simp] theorem setReg_drains (c : Chip) (r : RegRef) (v : W64) : (c.setReg r v).drains = c.drains := rfl
@[simp] theorem setReg_cells (c : Chip) (r : RegRef) (v : W64) : (c.setReg r v).cells = c.cells := rfl
@[simp] theorem setReg_kvSealed (c : Chip) (r : RegRef) (v : W64) : (c.setReg r v).kvSealed = c.kvSealed := rfl
@[simp] theorem setReg_walks (c : Chip) (r : RegRef) (v : W64) : (c.setReg r v).walks = c.walks := rfl
@[simp] theorem setReg_walkWait (c : Chip) (r : RegRef) (v : W64) : (c.setReg r v).walkWait = c.walkWait := rfl
@[simp] theorem setReg_nextIssue (c : Chip) (r : RegRef) (v : W64) : (c.setReg r v).nextIssue = c.nextIssue := rfl
@[simp] theorem setReg_pfxPool (c : Chip) (r : RegRef) (v : W64) : (c.setReg r v).pfxPool = c.pfxPool := rfl
@[simp] theorem setReg_weights (c : Chip) (r : RegRef) (v : W64) : (c.setReg r v).weights = c.weights := rfl
@[simp] theorem setReg_routes (c : Chip) (r : RegRef) (v : W64) : (c.setReg r v).routes = c.routes := rfl
@[simp] theorem setReg_windows (c : Chip) (r : RegRef) (v : W64) : (c.setReg r v).windows = c.windows := rfl
@[simp] theorem setReg_rxqs (c : Chip) (r : RegRef) (v : W64) : (c.setReg r v).rxqs = c.rxqs := rfl
@[simp] theorem setReg_jobs (c : Chip) (r : RegRef) (v : W64) : (c.setReg r v).jobs = c.jobs := rfl
@[simp] theorem setReg_incarnations (c : Chip) (r : RegRef) (v : W64) : (c.setReg r v).incarnations = c.incarnations := rfl
@[simp] theorem setReg_engines (c : Chip) (r : RegRef) (v : W64) : (c.setReg r v).engines = c.engines := rfl
@[simp] theorem setReg_ingress (c : Chip) (r : RegRef) (v : W64) : (c.setReg r v).ingress = c.ingress := rfl
@[simp] theorem setReg_nextRec (c : Chip) (r : RegRef) (v : W64) : (c.setReg r v).nextRec = c.nextRec := rfl
@[simp] theorem setReg_lastPort (c : Chip) (r : RegRef) (v : W64) : (c.setReg r v).lastPort = c.lastPort := rfl
@[simp] theorem setReg_fabPorts (c : Chip) (r : RegRef) (v : W64) : (c.setReg r v).fabPorts = c.fabPorts := rfl
@[simp] theorem setReg_egress (c : Chip) (r : RegRef) (v : W64) : (c.setReg r v).egress = c.egress := rfl
@[simp] theorem setReg_streams (c : Chip) (r : RegRef) (v : W64) : (c.setReg r v).streams = c.streams := rfl
@[simp] theorem setReg_radioMem (c : Chip) (r : RegRef) (v : W64) : (c.setReg r v).radioMem = c.radioMem := rfl
@[simp] theorem setReg_strips (c : Chip) (r : RegRef) (v : W64) : (c.setReg r v).strips = c.strips := rfl
@[simp] theorem setReg_peers (c : Chip) (r : RegRef) (v : W64) : (c.setReg r v).peers = c.peers := rfl
@[simp] theorem setReg_lastHeartbeat (c : Chip) (r : RegRef) (v : W64) : (c.setReg r v).lastHeartbeat = c.lastHeartbeat := rfl
@[simp] theorem setReg_linkDownAt (c : Chip) (r : RegRef) (v : W64) : (c.setReg r v).linkDownAt = c.linkDownAt := rfl
@[simp] theorem setReg_linkUpTick (c : Chip) (r : RegRef) (v : W64) : (c.setReg r v).linkUpTick = c.linkUpTick := rfl
@[simp] theorem setReg_capacityLost (c : Chip) (r : RegRef) (v : W64) : (c.setReg r v).capacityLost = c.capacityLost := rfl
@[simp] theorem setReg_poolReload (c : Chip) (r : RegRef) (v : W64) : (c.setReg r v).poolReload = c.poolReload := rfl
@[simp] theorem setReg_radioFirst (c : Chip) (r : RegRef) (v : W64) : (c.setReg r v).radioFirst = c.radioFirst := rfl
@[simp] theorem setReg_fapiHeld (c : Chip) (r : RegRef) (v : W64) : (c.setReg r v).fapiHeld = c.fapiHeld := rfl
@[simp] theorem setReg_fapiArrived (c : Chip) (r : RegRef) (v : W64) : (c.setReg r v).fapiArrived = c.fapiArrived := rfl
@[simp] theorem setReg_swaps (c : Chip) (r : RegRef) (v : W64) : (c.setReg r v).swaps = c.swaps := rfl
@[simp] theorem setReg_selfTests (c : Chip) (r : RegRef) (v : W64) : (c.setReg r v).selfTests = c.selfTests := rfl
@[simp] theorem setReg_jobSteps (c : Chip) (r : RegRef) (v : W64) : (c.setReg r v).jobSteps = c.jobSteps := rfl
@[simp] theorem setReg_out (c : Chip) (r : RegRef) (v : W64) : (c.setReg r v).out = c.out := rfl

/-! ### setFld -/

@[simp] theorem setFld_ident (c : Chip) (r : RegRef) (f : Fld) (v : Nat) : (c.setFld r f v).ident = c.ident := rfl
@[simp] theorem setFld_pins (c : Chip) (r : RegRef) (f : Fld) (v : Nat) : (c.setFld r f v).pins = c.pins := rfl
@[simp] theorem setFld_reqs (c : Chip) (r : RegRef) (f : Fld) (v : Nat) : (c.setFld r f v).reqs = c.reqs := rfl
@[simp] theorem setFld_time (c : Chip) (r : RegRef) (f : Fld) (v : Nat) : (c.setFld r f v).time = c.time := rfl
@[simp] theorem setFld_tsq (c : Chip) (r : RegRef) (f : Fld) (v : Nat) : (c.setFld r f v).tsq = c.tsq := rfl
@[simp] theorem setFld_events (c : Chip) (r : RegRef) (f : Fld) (v : Nat) : (c.setFld r f v).events = c.events := rfl
@[simp] theorem setFld_firedAt (c : Chip) (r : RegRef) (f : Fld) (v : Nat) : (c.setFld r f v).firedAt = c.firedAt := rfl
@[simp] theorem setFld_log (c : Chip) (r : RegRef) (f : Fld) (v : Nat) : (c.setFld r f v).log = c.log := rfl
@[simp] theorem setFld_health (c : Chip) (r : RegRef) (f : Fld) (v : Nat) : (c.setFld r f v).health = c.health := rfl
@[simp] theorem setFld_errRing (c : Chip) (r : RegRef) (f : Fld) (v : Nat) : (c.setFld r f v).errRing = c.errRing := rfl
@[simp] theorem setFld_missRing (c : Chip) (r : RegRef) (f : Fld) (v : Nat) : (c.setFld r f v).missRing = c.missRing := rfl
@[simp] theorem setFld_mismatches (c : Chip) (r : RegRef) (f : Fld) (v : Nat) : (c.setFld r f v).mismatches = c.mismatches := rfl
@[simp] theorem setFld_damaged (c : Chip) (r : RegRef) (f : Fld) (v : Nat) : (c.setFld r f v).damaged = c.damaged := rfl
@[simp] theorem setFld_rcvRecords (c : Chip) (r : RegRef) (f : Fld) (v : Nat) : (c.setFld r f v).rcvRecords = c.rcvRecords := rfl
@[simp] theorem setFld_rcvRunning (c : Chip) (r : RegRef) (f : Fld) (v : Nat) : (c.setFld r f v).rcvRunning = c.rcvRunning := rfl
@[simp] theorem setFld_mirrors (c : Chip) (r : RegRef) (f : Fld) (v : Nat) : (c.setFld r f v).mirrors = c.mirrors := rfl
@[simp] theorem setFld_flash (c : Chip) (r : RegRef) (f : Fld) (v : Nat) : (c.setFld r f v).flash = c.flash := rfl
@[simp] theorem setFld_furnishMin (c : Chip) (r : RegRef) (f : Fld) (v : Nat) : (c.setFld r f v).furnishMin = c.furnishMin := rfl
@[simp] theorem setFld_furnishCells (c : Chip) (r : RegRef) (f : Fld) (v : Nat) : (c.setFld r f v).furnishCells = c.furnishCells := rfl
@[simp] theorem setFld_monitor (c : Chip) (r : RegRef) (f : Fld) (v : Nat) : (c.setFld r f v).monitor = c.monitor := rfl
@[simp] theorem setFld_power (c : Chip) (r : RegRef) (f : Fld) (v : Nat) : (c.setFld r f v).power = c.power := rfl
@[simp] theorem setFld_freeCtr (c : Chip) (r : RegRef) (f : Fld) (v : Nat) : (c.setFld r f v).freeCtr = c.freeCtr := rfl
@[simp] theorem setFld_sheets (c : Chip) (r : RegRef) (f : Fld) (v : Nat) : (c.setFld r f v).sheets = c.sheets := rfl
@[simp] theorem setFld_quires (c : Chip) (r : RegRef) (f : Fld) (v : Nat) : (c.setFld r f v).quires = c.quires := rfl
@[simp] theorem setFld_waiting (c : Chip) (r : RegRef) (f : Fld) (v : Nat) : (c.setFld r f v).waiting = c.waiting := rfl
@[simp] theorem setFld_radioReady (c : Chip) (r : RegRef) (f : Fld) (v : Nat) : (c.setFld r f v).radioReady = c.radioReady := rfl
@[simp] theorem setFld_commands (c : Chip) (r : RegRef) (f : Fld) (v : Nat) : (c.setFld r f v).commands = c.commands := rfl
@[simp] theorem setFld_nextCmd (c : Chip) (r : RegRef) (f : Fld) (v : Nat) : (c.setFld r f v).nextCmd = c.nextCmd := rfl
@[simp] theorem setFld_contexts (c : Chip) (r : RegRef) (f : Fld) (v : Nat) : (c.setFld r f v).contexts = c.contexts := rfl
@[simp] theorem setFld_programs (c : Chip) (r : RegRef) (f : Fld) (v : Nat) : (c.setFld r f v).programs = c.programs := rfl
@[simp] theorem setFld_nextProgram (c : Chip) (r : RegRef) (f : Fld) (v : Nat) : (c.setFld r f v).nextProgram = c.nextProgram := rfl
@[simp] theorem setFld_tokens (c : Chip) (r : RegRef) (f : Fld) (v : Nat) : (c.setFld r f v).tokens = c.tokens := rfl
@[simp] theorem setFld_pages (c : Chip) (r : RegRef) (f : Fld) (v : Nat) : (c.setFld r f v).pages = c.pages := rfl
@[simp] theorem setFld_mem (c : Chip) (r : RegRef) (f : Fld) (v : Nat) : (c.setFld r f v).mem = c.mem := rfl
@[simp] theorem setFld_poison (c : Chip) (r : RegRef) (f : Fld) (v : Nat) : (c.setFld r f v).poison = c.poison := rfl
@[simp] theorem setFld_host (c : Chip) (r : RegRef) (f : Fld) (v : Nat) : (c.setFld r f v).host = c.host := rfl
@[simp] theorem setFld_mapRun (c : Chip) (r : RegRef) (f : Fld) (v : Nat) : (c.setFld r f v).mapRun = c.mapRun := rfl
@[simp] theorem setFld_lastHome (c : Chip) (r : RegRef) (f : Fld) (v : Nat) : (c.setFld r f v).lastHome = c.lastHome := rfl
@[simp] theorem setFld_migrations (c : Chip) (r : RegRef) (f : Fld) (v : Nat) : (c.setFld r f v).migrations = c.migrations := rfl
@[simp] theorem setFld_interval (c : Chip) (r : RegRef) (f : Fld) (v : Nat) : (c.setFld r f v).interval = c.interval := rfl
@[simp] theorem setFld_lend (c : Chip) (r : RegRef) (f : Fld) (v : Nat) : (c.setFld r f v).lend = c.lend := rfl
@[simp] theorem setFld_borrow (c : Chip) (r : RegRef) (f : Fld) (v : Nat) : (c.setFld r f v).borrow = c.borrow := rfl
@[simp] theorem setFld_rings (c : Chip) (r : RegRef) (f : Fld) (v : Nat) : (c.setFld r f v).rings = c.rings := rfl
@[simp] theorem setFld_mbxQueue (c : Chip) (r : RegRef) (f : Fld) (v : Nat) : (c.setFld r f v).mbxQueue = c.mbxQueue := rfl
@[simp] theorem setFld_locks (c : Chip) (r : RegRef) (f : Fld) (v : Nat) : (c.setFld r f v).locks = c.locks := rfl
@[simp] theorem setFld_keys (c : Chip) (r : RegRef) (f : Fld) (v : Nat) : (c.setFld r f v).keys = c.keys := rfl
@[simp] theorem setFld_drains (c : Chip) (r : RegRef) (f : Fld) (v : Nat) : (c.setFld r f v).drains = c.drains := rfl
@[simp] theorem setFld_cells (c : Chip) (r : RegRef) (f : Fld) (v : Nat) : (c.setFld r f v).cells = c.cells := rfl
@[simp] theorem setFld_kvSealed (c : Chip) (r : RegRef) (f : Fld) (v : Nat) : (c.setFld r f v).kvSealed = c.kvSealed := rfl
@[simp] theorem setFld_walks (c : Chip) (r : RegRef) (f : Fld) (v : Nat) : (c.setFld r f v).walks = c.walks := rfl
@[simp] theorem setFld_walkWait (c : Chip) (r : RegRef) (f : Fld) (v : Nat) : (c.setFld r f v).walkWait = c.walkWait := rfl
@[simp] theorem setFld_nextIssue (c : Chip) (r : RegRef) (f : Fld) (v : Nat) : (c.setFld r f v).nextIssue = c.nextIssue := rfl
@[simp] theorem setFld_pfxPool (c : Chip) (r : RegRef) (f : Fld) (v : Nat) : (c.setFld r f v).pfxPool = c.pfxPool := rfl
@[simp] theorem setFld_weights (c : Chip) (r : RegRef) (f : Fld) (v : Nat) : (c.setFld r f v).weights = c.weights := rfl
@[simp] theorem setFld_routes (c : Chip) (r : RegRef) (f : Fld) (v : Nat) : (c.setFld r f v).routes = c.routes := rfl
@[simp] theorem setFld_windows (c : Chip) (r : RegRef) (f : Fld) (v : Nat) : (c.setFld r f v).windows = c.windows := rfl
@[simp] theorem setFld_rxqs (c : Chip) (r : RegRef) (f : Fld) (v : Nat) : (c.setFld r f v).rxqs = c.rxqs := rfl
@[simp] theorem setFld_jobs (c : Chip) (r : RegRef) (f : Fld) (v : Nat) : (c.setFld r f v).jobs = c.jobs := rfl
@[simp] theorem setFld_incarnations (c : Chip) (r : RegRef) (f : Fld) (v : Nat) : (c.setFld r f v).incarnations = c.incarnations := rfl
@[simp] theorem setFld_engines (c : Chip) (r : RegRef) (f : Fld) (v : Nat) : (c.setFld r f v).engines = c.engines := rfl
@[simp] theorem setFld_ingress (c : Chip) (r : RegRef) (f : Fld) (v : Nat) : (c.setFld r f v).ingress = c.ingress := rfl
@[simp] theorem setFld_nextRec (c : Chip) (r : RegRef) (f : Fld) (v : Nat) : (c.setFld r f v).nextRec = c.nextRec := rfl
@[simp] theorem setFld_lastPort (c : Chip) (r : RegRef) (f : Fld) (v : Nat) : (c.setFld r f v).lastPort = c.lastPort := rfl
@[simp] theorem setFld_fabPorts (c : Chip) (r : RegRef) (f : Fld) (v : Nat) : (c.setFld r f v).fabPorts = c.fabPorts := rfl
@[simp] theorem setFld_egress (c : Chip) (r : RegRef) (f : Fld) (v : Nat) : (c.setFld r f v).egress = c.egress := rfl
@[simp] theorem setFld_streams (c : Chip) (r : RegRef) (f : Fld) (v : Nat) : (c.setFld r f v).streams = c.streams := rfl
@[simp] theorem setFld_radioMem (c : Chip) (r : RegRef) (f : Fld) (v : Nat) : (c.setFld r f v).radioMem = c.radioMem := rfl
@[simp] theorem setFld_strips (c : Chip) (r : RegRef) (f : Fld) (v : Nat) : (c.setFld r f v).strips = c.strips := rfl
@[simp] theorem setFld_peers (c : Chip) (r : RegRef) (f : Fld) (v : Nat) : (c.setFld r f v).peers = c.peers := rfl
@[simp] theorem setFld_lastHeartbeat (c : Chip) (r : RegRef) (f : Fld) (v : Nat) : (c.setFld r f v).lastHeartbeat = c.lastHeartbeat := rfl
@[simp] theorem setFld_linkDownAt (c : Chip) (r : RegRef) (f : Fld) (v : Nat) : (c.setFld r f v).linkDownAt = c.linkDownAt := rfl
@[simp] theorem setFld_linkUpTick (c : Chip) (r : RegRef) (f : Fld) (v : Nat) : (c.setFld r f v).linkUpTick = c.linkUpTick := rfl
@[simp] theorem setFld_capacityLost (c : Chip) (r : RegRef) (f : Fld) (v : Nat) : (c.setFld r f v).capacityLost = c.capacityLost := rfl
@[simp] theorem setFld_poolReload (c : Chip) (r : RegRef) (f : Fld) (v : Nat) : (c.setFld r f v).poolReload = c.poolReload := rfl
@[simp] theorem setFld_radioFirst (c : Chip) (r : RegRef) (f : Fld) (v : Nat) : (c.setFld r f v).radioFirst = c.radioFirst := rfl
@[simp] theorem setFld_fapiHeld (c : Chip) (r : RegRef) (f : Fld) (v : Nat) : (c.setFld r f v).fapiHeld = c.fapiHeld := rfl
@[simp] theorem setFld_fapiArrived (c : Chip) (r : RegRef) (f : Fld) (v : Nat) : (c.setFld r f v).fapiArrived = c.fapiArrived := rfl
@[simp] theorem setFld_swaps (c : Chip) (r : RegRef) (f : Fld) (v : Nat) : (c.setFld r f v).swaps = c.swaps := rfl
@[simp] theorem setFld_selfTests (c : Chip) (r : RegRef) (f : Fld) (v : Nat) : (c.setFld r f v).selfTests = c.selfTests := rfl
@[simp] theorem setFld_jobSteps (c : Chip) (r : RegRef) (f : Fld) (v : Nat) : (c.setFld r f v).jobSteps = c.jobSteps := rfl
@[simp] theorem setFld_out (c : Chip) (r : RegRef) (f : Fld) (v : Nat) : (c.setFld r f v).out = c.out := rfl

/-! ### setFlag -/

@[simp] theorem setFlag_ident (c : Chip) (r : RegRef) (f : Fld) (b : Bool) : (c.setFlag r f b).ident = c.ident := rfl
@[simp] theorem setFlag_pins (c : Chip) (r : RegRef) (f : Fld) (b : Bool) : (c.setFlag r f b).pins = c.pins := rfl
@[simp] theorem setFlag_reqs (c : Chip) (r : RegRef) (f : Fld) (b : Bool) : (c.setFlag r f b).reqs = c.reqs := rfl
@[simp] theorem setFlag_time (c : Chip) (r : RegRef) (f : Fld) (b : Bool) : (c.setFlag r f b).time = c.time := rfl
@[simp] theorem setFlag_tsq (c : Chip) (r : RegRef) (f : Fld) (b : Bool) : (c.setFlag r f b).tsq = c.tsq := rfl
@[simp] theorem setFlag_events (c : Chip) (r : RegRef) (f : Fld) (b : Bool) : (c.setFlag r f b).events = c.events := rfl
@[simp] theorem setFlag_firedAt (c : Chip) (r : RegRef) (f : Fld) (b : Bool) : (c.setFlag r f b).firedAt = c.firedAt := rfl
@[simp] theorem setFlag_log (c : Chip) (r : RegRef) (f : Fld) (b : Bool) : (c.setFlag r f b).log = c.log := rfl
@[simp] theorem setFlag_health (c : Chip) (r : RegRef) (f : Fld) (b : Bool) : (c.setFlag r f b).health = c.health := rfl
@[simp] theorem setFlag_errRing (c : Chip) (r : RegRef) (f : Fld) (b : Bool) : (c.setFlag r f b).errRing = c.errRing := rfl
@[simp] theorem setFlag_missRing (c : Chip) (r : RegRef) (f : Fld) (b : Bool) : (c.setFlag r f b).missRing = c.missRing := rfl
@[simp] theorem setFlag_mismatches (c : Chip) (r : RegRef) (f : Fld) (b : Bool) : (c.setFlag r f b).mismatches = c.mismatches := rfl
@[simp] theorem setFlag_damaged (c : Chip) (r : RegRef) (f : Fld) (b : Bool) : (c.setFlag r f b).damaged = c.damaged := rfl
@[simp] theorem setFlag_rcvRecords (c : Chip) (r : RegRef) (f : Fld) (b : Bool) : (c.setFlag r f b).rcvRecords = c.rcvRecords := rfl
@[simp] theorem setFlag_rcvRunning (c : Chip) (r : RegRef) (f : Fld) (b : Bool) : (c.setFlag r f b).rcvRunning = c.rcvRunning := rfl
@[simp] theorem setFlag_mirrors (c : Chip) (r : RegRef) (f : Fld) (b : Bool) : (c.setFlag r f b).mirrors = c.mirrors := rfl
@[simp] theorem setFlag_flash (c : Chip) (r : RegRef) (f : Fld) (b : Bool) : (c.setFlag r f b).flash = c.flash := rfl
@[simp] theorem setFlag_furnishMin (c : Chip) (r : RegRef) (f : Fld) (b : Bool) : (c.setFlag r f b).furnishMin = c.furnishMin := rfl
@[simp] theorem setFlag_furnishCells (c : Chip) (r : RegRef) (f : Fld) (b : Bool) : (c.setFlag r f b).furnishCells = c.furnishCells := rfl
@[simp] theorem setFlag_monitor (c : Chip) (r : RegRef) (f : Fld) (b : Bool) : (c.setFlag r f b).monitor = c.monitor := rfl
@[simp] theorem setFlag_power (c : Chip) (r : RegRef) (f : Fld) (b : Bool) : (c.setFlag r f b).power = c.power := rfl
@[simp] theorem setFlag_freeCtr (c : Chip) (r : RegRef) (f : Fld) (b : Bool) : (c.setFlag r f b).freeCtr = c.freeCtr := rfl
@[simp] theorem setFlag_sheets (c : Chip) (r : RegRef) (f : Fld) (b : Bool) : (c.setFlag r f b).sheets = c.sheets := rfl
@[simp] theorem setFlag_quires (c : Chip) (r : RegRef) (f : Fld) (b : Bool) : (c.setFlag r f b).quires = c.quires := rfl
@[simp] theorem setFlag_waiting (c : Chip) (r : RegRef) (f : Fld) (b : Bool) : (c.setFlag r f b).waiting = c.waiting := rfl
@[simp] theorem setFlag_radioReady (c : Chip) (r : RegRef) (f : Fld) (b : Bool) : (c.setFlag r f b).radioReady = c.radioReady := rfl
@[simp] theorem setFlag_commands (c : Chip) (r : RegRef) (f : Fld) (b : Bool) : (c.setFlag r f b).commands = c.commands := rfl
@[simp] theorem setFlag_nextCmd (c : Chip) (r : RegRef) (f : Fld) (b : Bool) : (c.setFlag r f b).nextCmd = c.nextCmd := rfl
@[simp] theorem setFlag_contexts (c : Chip) (r : RegRef) (f : Fld) (b : Bool) : (c.setFlag r f b).contexts = c.contexts := rfl
@[simp] theorem setFlag_programs (c : Chip) (r : RegRef) (f : Fld) (b : Bool) : (c.setFlag r f b).programs = c.programs := rfl
@[simp] theorem setFlag_nextProgram (c : Chip) (r : RegRef) (f : Fld) (b : Bool) : (c.setFlag r f b).nextProgram = c.nextProgram := rfl
@[simp] theorem setFlag_tokens (c : Chip) (r : RegRef) (f : Fld) (b : Bool) : (c.setFlag r f b).tokens = c.tokens := rfl
@[simp] theorem setFlag_pages (c : Chip) (r : RegRef) (f : Fld) (b : Bool) : (c.setFlag r f b).pages = c.pages := rfl
@[simp] theorem setFlag_mem (c : Chip) (r : RegRef) (f : Fld) (b : Bool) : (c.setFlag r f b).mem = c.mem := rfl
@[simp] theorem setFlag_poison (c : Chip) (r : RegRef) (f : Fld) (b : Bool) : (c.setFlag r f b).poison = c.poison := rfl
@[simp] theorem setFlag_host (c : Chip) (r : RegRef) (f : Fld) (b : Bool) : (c.setFlag r f b).host = c.host := rfl
@[simp] theorem setFlag_mapRun (c : Chip) (r : RegRef) (f : Fld) (b : Bool) : (c.setFlag r f b).mapRun = c.mapRun := rfl
@[simp] theorem setFlag_lastHome (c : Chip) (r : RegRef) (f : Fld) (b : Bool) : (c.setFlag r f b).lastHome = c.lastHome := rfl
@[simp] theorem setFlag_migrations (c : Chip) (r : RegRef) (f : Fld) (b : Bool) : (c.setFlag r f b).migrations = c.migrations := rfl
@[simp] theorem setFlag_interval (c : Chip) (r : RegRef) (f : Fld) (b : Bool) : (c.setFlag r f b).interval = c.interval := rfl
@[simp] theorem setFlag_lend (c : Chip) (r : RegRef) (f : Fld) (b : Bool) : (c.setFlag r f b).lend = c.lend := rfl
@[simp] theorem setFlag_borrow (c : Chip) (r : RegRef) (f : Fld) (b : Bool) : (c.setFlag r f b).borrow = c.borrow := rfl
@[simp] theorem setFlag_rings (c : Chip) (r : RegRef) (f : Fld) (b : Bool) : (c.setFlag r f b).rings = c.rings := rfl
@[simp] theorem setFlag_mbxQueue (c : Chip) (r : RegRef) (f : Fld) (b : Bool) : (c.setFlag r f b).mbxQueue = c.mbxQueue := rfl
@[simp] theorem setFlag_locks (c : Chip) (r : RegRef) (f : Fld) (b : Bool) : (c.setFlag r f b).locks = c.locks := rfl
@[simp] theorem setFlag_keys (c : Chip) (r : RegRef) (f : Fld) (b : Bool) : (c.setFlag r f b).keys = c.keys := rfl
@[simp] theorem setFlag_drains (c : Chip) (r : RegRef) (f : Fld) (b : Bool) : (c.setFlag r f b).drains = c.drains := rfl
@[simp] theorem setFlag_cells (c : Chip) (r : RegRef) (f : Fld) (b : Bool) : (c.setFlag r f b).cells = c.cells := rfl
@[simp] theorem setFlag_kvSealed (c : Chip) (r : RegRef) (f : Fld) (b : Bool) : (c.setFlag r f b).kvSealed = c.kvSealed := rfl
@[simp] theorem setFlag_walks (c : Chip) (r : RegRef) (f : Fld) (b : Bool) : (c.setFlag r f b).walks = c.walks := rfl
@[simp] theorem setFlag_walkWait (c : Chip) (r : RegRef) (f : Fld) (b : Bool) : (c.setFlag r f b).walkWait = c.walkWait := rfl
@[simp] theorem setFlag_nextIssue (c : Chip) (r : RegRef) (f : Fld) (b : Bool) : (c.setFlag r f b).nextIssue = c.nextIssue := rfl
@[simp] theorem setFlag_pfxPool (c : Chip) (r : RegRef) (f : Fld) (b : Bool) : (c.setFlag r f b).pfxPool = c.pfxPool := rfl
@[simp] theorem setFlag_weights (c : Chip) (r : RegRef) (f : Fld) (b : Bool) : (c.setFlag r f b).weights = c.weights := rfl
@[simp] theorem setFlag_routes (c : Chip) (r : RegRef) (f : Fld) (b : Bool) : (c.setFlag r f b).routes = c.routes := rfl
@[simp] theorem setFlag_windows (c : Chip) (r : RegRef) (f : Fld) (b : Bool) : (c.setFlag r f b).windows = c.windows := rfl
@[simp] theorem setFlag_rxqs (c : Chip) (r : RegRef) (f : Fld) (b : Bool) : (c.setFlag r f b).rxqs = c.rxqs := rfl
@[simp] theorem setFlag_jobs (c : Chip) (r : RegRef) (f : Fld) (b : Bool) : (c.setFlag r f b).jobs = c.jobs := rfl
@[simp] theorem setFlag_incarnations (c : Chip) (r : RegRef) (f : Fld) (b : Bool) : (c.setFlag r f b).incarnations = c.incarnations := rfl
@[simp] theorem setFlag_engines (c : Chip) (r : RegRef) (f : Fld) (b : Bool) : (c.setFlag r f b).engines = c.engines := rfl
@[simp] theorem setFlag_ingress (c : Chip) (r : RegRef) (f : Fld) (b : Bool) : (c.setFlag r f b).ingress = c.ingress := rfl
@[simp] theorem setFlag_nextRec (c : Chip) (r : RegRef) (f : Fld) (b : Bool) : (c.setFlag r f b).nextRec = c.nextRec := rfl
@[simp] theorem setFlag_lastPort (c : Chip) (r : RegRef) (f : Fld) (b : Bool) : (c.setFlag r f b).lastPort = c.lastPort := rfl
@[simp] theorem setFlag_fabPorts (c : Chip) (r : RegRef) (f : Fld) (b : Bool) : (c.setFlag r f b).fabPorts = c.fabPorts := rfl
@[simp] theorem setFlag_egress (c : Chip) (r : RegRef) (f : Fld) (b : Bool) : (c.setFlag r f b).egress = c.egress := rfl
@[simp] theorem setFlag_streams (c : Chip) (r : RegRef) (f : Fld) (b : Bool) : (c.setFlag r f b).streams = c.streams := rfl
@[simp] theorem setFlag_radioMem (c : Chip) (r : RegRef) (f : Fld) (b : Bool) : (c.setFlag r f b).radioMem = c.radioMem := rfl
@[simp] theorem setFlag_strips (c : Chip) (r : RegRef) (f : Fld) (b : Bool) : (c.setFlag r f b).strips = c.strips := rfl
@[simp] theorem setFlag_peers (c : Chip) (r : RegRef) (f : Fld) (b : Bool) : (c.setFlag r f b).peers = c.peers := rfl
@[simp] theorem setFlag_lastHeartbeat (c : Chip) (r : RegRef) (f : Fld) (b : Bool) : (c.setFlag r f b).lastHeartbeat = c.lastHeartbeat := rfl
@[simp] theorem setFlag_linkDownAt (c : Chip) (r : RegRef) (f : Fld) (b : Bool) : (c.setFlag r f b).linkDownAt = c.linkDownAt := rfl
@[simp] theorem setFlag_linkUpTick (c : Chip) (r : RegRef) (f : Fld) (b : Bool) : (c.setFlag r f b).linkUpTick = c.linkUpTick := rfl
@[simp] theorem setFlag_capacityLost (c : Chip) (r : RegRef) (f : Fld) (b : Bool) : (c.setFlag r f b).capacityLost = c.capacityLost := rfl
@[simp] theorem setFlag_poolReload (c : Chip) (r : RegRef) (f : Fld) (b : Bool) : (c.setFlag r f b).poolReload = c.poolReload := rfl
@[simp] theorem setFlag_radioFirst (c : Chip) (r : RegRef) (f : Fld) (b : Bool) : (c.setFlag r f b).radioFirst = c.radioFirst := rfl
@[simp] theorem setFlag_fapiHeld (c : Chip) (r : RegRef) (f : Fld) (b : Bool) : (c.setFlag r f b).fapiHeld = c.fapiHeld := rfl
@[simp] theorem setFlag_fapiArrived (c : Chip) (r : RegRef) (f : Fld) (b : Bool) : (c.setFlag r f b).fapiArrived = c.fapiArrived := rfl
@[simp] theorem setFlag_swaps (c : Chip) (r : RegRef) (f : Fld) (b : Bool) : (c.setFlag r f b).swaps = c.swaps := rfl
@[simp] theorem setFlag_selfTests (c : Chip) (r : RegRef) (f : Fld) (b : Bool) : (c.setFlag r f b).selfTests = c.selfTests := rfl
@[simp] theorem setFlag_jobSteps (c : Chip) (r : RegRef) (f : Fld) (b : Bool) : (c.setFlag r f b).jobSteps = c.jobSteps := rfl
@[simp] theorem setFlag_out (c : Chip) (r : RegRef) (f : Fld) (b : Bool) : (c.setFlag r f b).out = c.out := rfl

/-! ### mark -/

@[simp] theorem mark_ident (c : Chip) (r : RegRef) (f : Fld) : (c.mark r f).ident = c.ident := rfl
@[simp] theorem mark_pins (c : Chip) (r : RegRef) (f : Fld) : (c.mark r f).pins = c.pins := rfl
@[simp] theorem mark_reqs (c : Chip) (r : RegRef) (f : Fld) : (c.mark r f).reqs = c.reqs := rfl
@[simp] theorem mark_time (c : Chip) (r : RegRef) (f : Fld) : (c.mark r f).time = c.time := rfl
@[simp] theorem mark_tsq (c : Chip) (r : RegRef) (f : Fld) : (c.mark r f).tsq = c.tsq := rfl
@[simp] theorem mark_events (c : Chip) (r : RegRef) (f : Fld) : (c.mark r f).events = c.events := rfl
@[simp] theorem mark_firedAt (c : Chip) (r : RegRef) (f : Fld) : (c.mark r f).firedAt = c.firedAt := rfl
@[simp] theorem mark_log (c : Chip) (r : RegRef) (f : Fld) : (c.mark r f).log = c.log := rfl
@[simp] theorem mark_health (c : Chip) (r : RegRef) (f : Fld) : (c.mark r f).health = c.health := rfl
@[simp] theorem mark_errRing (c : Chip) (r : RegRef) (f : Fld) : (c.mark r f).errRing = c.errRing := rfl
@[simp] theorem mark_missRing (c : Chip) (r : RegRef) (f : Fld) : (c.mark r f).missRing = c.missRing := rfl
@[simp] theorem mark_mismatches (c : Chip) (r : RegRef) (f : Fld) : (c.mark r f).mismatches = c.mismatches := rfl
@[simp] theorem mark_damaged (c : Chip) (r : RegRef) (f : Fld) : (c.mark r f).damaged = c.damaged := rfl
@[simp] theorem mark_rcvRecords (c : Chip) (r : RegRef) (f : Fld) : (c.mark r f).rcvRecords = c.rcvRecords := rfl
@[simp] theorem mark_rcvRunning (c : Chip) (r : RegRef) (f : Fld) : (c.mark r f).rcvRunning = c.rcvRunning := rfl
@[simp] theorem mark_mirrors (c : Chip) (r : RegRef) (f : Fld) : (c.mark r f).mirrors = c.mirrors := rfl
@[simp] theorem mark_flash (c : Chip) (r : RegRef) (f : Fld) : (c.mark r f).flash = c.flash := rfl
@[simp] theorem mark_furnishMin (c : Chip) (r : RegRef) (f : Fld) : (c.mark r f).furnishMin = c.furnishMin := rfl
@[simp] theorem mark_furnishCells (c : Chip) (r : RegRef) (f : Fld) : (c.mark r f).furnishCells = c.furnishCells := rfl
@[simp] theorem mark_monitor (c : Chip) (r : RegRef) (f : Fld) : (c.mark r f).monitor = c.monitor := rfl
@[simp] theorem mark_power (c : Chip) (r : RegRef) (f : Fld) : (c.mark r f).power = c.power := rfl
@[simp] theorem mark_freeCtr (c : Chip) (r : RegRef) (f : Fld) : (c.mark r f).freeCtr = c.freeCtr := rfl
@[simp] theorem mark_sheets (c : Chip) (r : RegRef) (f : Fld) : (c.mark r f).sheets = c.sheets := rfl
@[simp] theorem mark_quires (c : Chip) (r : RegRef) (f : Fld) : (c.mark r f).quires = c.quires := rfl
@[simp] theorem mark_waiting (c : Chip) (r : RegRef) (f : Fld) : (c.mark r f).waiting = c.waiting := rfl
@[simp] theorem mark_radioReady (c : Chip) (r : RegRef) (f : Fld) : (c.mark r f).radioReady = c.radioReady := rfl
@[simp] theorem mark_commands (c : Chip) (r : RegRef) (f : Fld) : (c.mark r f).commands = c.commands := rfl
@[simp] theorem mark_nextCmd (c : Chip) (r : RegRef) (f : Fld) : (c.mark r f).nextCmd = c.nextCmd := rfl
@[simp] theorem mark_contexts (c : Chip) (r : RegRef) (f : Fld) : (c.mark r f).contexts = c.contexts := rfl
@[simp] theorem mark_programs (c : Chip) (r : RegRef) (f : Fld) : (c.mark r f).programs = c.programs := rfl
@[simp] theorem mark_nextProgram (c : Chip) (r : RegRef) (f : Fld) : (c.mark r f).nextProgram = c.nextProgram := rfl
@[simp] theorem mark_tokens (c : Chip) (r : RegRef) (f : Fld) : (c.mark r f).tokens = c.tokens := rfl
@[simp] theorem mark_pages (c : Chip) (r : RegRef) (f : Fld) : (c.mark r f).pages = c.pages := rfl
@[simp] theorem mark_mem (c : Chip) (r : RegRef) (f : Fld) : (c.mark r f).mem = c.mem := rfl
@[simp] theorem mark_poison (c : Chip) (r : RegRef) (f : Fld) : (c.mark r f).poison = c.poison := rfl
@[simp] theorem mark_host (c : Chip) (r : RegRef) (f : Fld) : (c.mark r f).host = c.host := rfl
@[simp] theorem mark_mapRun (c : Chip) (r : RegRef) (f : Fld) : (c.mark r f).mapRun = c.mapRun := rfl
@[simp] theorem mark_lastHome (c : Chip) (r : RegRef) (f : Fld) : (c.mark r f).lastHome = c.lastHome := rfl
@[simp] theorem mark_migrations (c : Chip) (r : RegRef) (f : Fld) : (c.mark r f).migrations = c.migrations := rfl
@[simp] theorem mark_interval (c : Chip) (r : RegRef) (f : Fld) : (c.mark r f).interval = c.interval := rfl
@[simp] theorem mark_lend (c : Chip) (r : RegRef) (f : Fld) : (c.mark r f).lend = c.lend := rfl
@[simp] theorem mark_borrow (c : Chip) (r : RegRef) (f : Fld) : (c.mark r f).borrow = c.borrow := rfl
@[simp] theorem mark_rings (c : Chip) (r : RegRef) (f : Fld) : (c.mark r f).rings = c.rings := rfl
@[simp] theorem mark_mbxQueue (c : Chip) (r : RegRef) (f : Fld) : (c.mark r f).mbxQueue = c.mbxQueue := rfl
@[simp] theorem mark_locks (c : Chip) (r : RegRef) (f : Fld) : (c.mark r f).locks = c.locks := rfl
@[simp] theorem mark_keys (c : Chip) (r : RegRef) (f : Fld) : (c.mark r f).keys = c.keys := rfl
@[simp] theorem mark_drains (c : Chip) (r : RegRef) (f : Fld) : (c.mark r f).drains = c.drains := rfl
@[simp] theorem mark_cells (c : Chip) (r : RegRef) (f : Fld) : (c.mark r f).cells = c.cells := rfl
@[simp] theorem mark_kvSealed (c : Chip) (r : RegRef) (f : Fld) : (c.mark r f).kvSealed = c.kvSealed := rfl
@[simp] theorem mark_walks (c : Chip) (r : RegRef) (f : Fld) : (c.mark r f).walks = c.walks := rfl
@[simp] theorem mark_walkWait (c : Chip) (r : RegRef) (f : Fld) : (c.mark r f).walkWait = c.walkWait := rfl
@[simp] theorem mark_nextIssue (c : Chip) (r : RegRef) (f : Fld) : (c.mark r f).nextIssue = c.nextIssue := rfl
@[simp] theorem mark_pfxPool (c : Chip) (r : RegRef) (f : Fld) : (c.mark r f).pfxPool = c.pfxPool := rfl
@[simp] theorem mark_weights (c : Chip) (r : RegRef) (f : Fld) : (c.mark r f).weights = c.weights := rfl
@[simp] theorem mark_routes (c : Chip) (r : RegRef) (f : Fld) : (c.mark r f).routes = c.routes := rfl
@[simp] theorem mark_windows (c : Chip) (r : RegRef) (f : Fld) : (c.mark r f).windows = c.windows := rfl
@[simp] theorem mark_rxqs (c : Chip) (r : RegRef) (f : Fld) : (c.mark r f).rxqs = c.rxqs := rfl
@[simp] theorem mark_jobs (c : Chip) (r : RegRef) (f : Fld) : (c.mark r f).jobs = c.jobs := rfl
@[simp] theorem mark_incarnations (c : Chip) (r : RegRef) (f : Fld) : (c.mark r f).incarnations = c.incarnations := rfl
@[simp] theorem mark_engines (c : Chip) (r : RegRef) (f : Fld) : (c.mark r f).engines = c.engines := rfl
@[simp] theorem mark_ingress (c : Chip) (r : RegRef) (f : Fld) : (c.mark r f).ingress = c.ingress := rfl
@[simp] theorem mark_nextRec (c : Chip) (r : RegRef) (f : Fld) : (c.mark r f).nextRec = c.nextRec := rfl
@[simp] theorem mark_lastPort (c : Chip) (r : RegRef) (f : Fld) : (c.mark r f).lastPort = c.lastPort := rfl
@[simp] theorem mark_fabPorts (c : Chip) (r : RegRef) (f : Fld) : (c.mark r f).fabPorts = c.fabPorts := rfl
@[simp] theorem mark_egress (c : Chip) (r : RegRef) (f : Fld) : (c.mark r f).egress = c.egress := rfl
@[simp] theorem mark_streams (c : Chip) (r : RegRef) (f : Fld) : (c.mark r f).streams = c.streams := rfl
@[simp] theorem mark_radioMem (c : Chip) (r : RegRef) (f : Fld) : (c.mark r f).radioMem = c.radioMem := rfl
@[simp] theorem mark_strips (c : Chip) (r : RegRef) (f : Fld) : (c.mark r f).strips = c.strips := rfl
@[simp] theorem mark_peers (c : Chip) (r : RegRef) (f : Fld) : (c.mark r f).peers = c.peers := rfl
@[simp] theorem mark_lastHeartbeat (c : Chip) (r : RegRef) (f : Fld) : (c.mark r f).lastHeartbeat = c.lastHeartbeat := rfl
@[simp] theorem mark_linkDownAt (c : Chip) (r : RegRef) (f : Fld) : (c.mark r f).linkDownAt = c.linkDownAt := rfl
@[simp] theorem mark_linkUpTick (c : Chip) (r : RegRef) (f : Fld) : (c.mark r f).linkUpTick = c.linkUpTick := rfl
@[simp] theorem mark_capacityLost (c : Chip) (r : RegRef) (f : Fld) : (c.mark r f).capacityLost = c.capacityLost := rfl
@[simp] theorem mark_poolReload (c : Chip) (r : RegRef) (f : Fld) : (c.mark r f).poolReload = c.poolReload := rfl
@[simp] theorem mark_radioFirst (c : Chip) (r : RegRef) (f : Fld) : (c.mark r f).radioFirst = c.radioFirst := rfl
@[simp] theorem mark_fapiHeld (c : Chip) (r : RegRef) (f : Fld) : (c.mark r f).fapiHeld = c.fapiHeld := rfl
@[simp] theorem mark_fapiArrived (c : Chip) (r : RegRef) (f : Fld) : (c.mark r f).fapiArrived = c.fapiArrived := rfl
@[simp] theorem mark_swaps (c : Chip) (r : RegRef) (f : Fld) : (c.mark r f).swaps = c.swaps := rfl
@[simp] theorem mark_selfTests (c : Chip) (r : RegRef) (f : Fld) : (c.mark r f).selfTests = c.selfTests := rfl
@[simp] theorem mark_jobSteps (c : Chip) (r : RegRef) (f : Fld) : (c.mark r f).jobSteps = c.jobSteps := rfl
@[simp] theorem mark_out (c : Chip) (r : RegRef) (f : Fld) : (c.mark r f).out = c.out := rfl

/-! ### bump -/

@[simp] theorem bump_ident (c : Chip) (r : RegRef) (f : Fld) (n : Nat) : (c.bump r f n).ident = c.ident := rfl
@[simp] theorem bump_pins (c : Chip) (r : RegRef) (f : Fld) (n : Nat) : (c.bump r f n).pins = c.pins := rfl
@[simp] theorem bump_reqs (c : Chip) (r : RegRef) (f : Fld) (n : Nat) : (c.bump r f n).reqs = c.reqs := rfl
@[simp] theorem bump_time (c : Chip) (r : RegRef) (f : Fld) (n : Nat) : (c.bump r f n).time = c.time := rfl
@[simp] theorem bump_tsq (c : Chip) (r : RegRef) (f : Fld) (n : Nat) : (c.bump r f n).tsq = c.tsq := rfl
@[simp] theorem bump_events (c : Chip) (r : RegRef) (f : Fld) (n : Nat) : (c.bump r f n).events = c.events := rfl
@[simp] theorem bump_firedAt (c : Chip) (r : RegRef) (f : Fld) (n : Nat) : (c.bump r f n).firedAt = c.firedAt := rfl
@[simp] theorem bump_log (c : Chip) (r : RegRef) (f : Fld) (n : Nat) : (c.bump r f n).log = c.log := rfl
@[simp] theorem bump_health (c : Chip) (r : RegRef) (f : Fld) (n : Nat) : (c.bump r f n).health = c.health := rfl
@[simp] theorem bump_errRing (c : Chip) (r : RegRef) (f : Fld) (n : Nat) : (c.bump r f n).errRing = c.errRing := rfl
@[simp] theorem bump_missRing (c : Chip) (r : RegRef) (f : Fld) (n : Nat) : (c.bump r f n).missRing = c.missRing := rfl
@[simp] theorem bump_mismatches (c : Chip) (r : RegRef) (f : Fld) (n : Nat) : (c.bump r f n).mismatches = c.mismatches := rfl
@[simp] theorem bump_damaged (c : Chip) (r : RegRef) (f : Fld) (n : Nat) : (c.bump r f n).damaged = c.damaged := rfl
@[simp] theorem bump_rcvRecords (c : Chip) (r : RegRef) (f : Fld) (n : Nat) : (c.bump r f n).rcvRecords = c.rcvRecords := rfl
@[simp] theorem bump_rcvRunning (c : Chip) (r : RegRef) (f : Fld) (n : Nat) : (c.bump r f n).rcvRunning = c.rcvRunning := rfl
@[simp] theorem bump_mirrors (c : Chip) (r : RegRef) (f : Fld) (n : Nat) : (c.bump r f n).mirrors = c.mirrors := rfl
@[simp] theorem bump_flash (c : Chip) (r : RegRef) (f : Fld) (n : Nat) : (c.bump r f n).flash = c.flash := rfl
@[simp] theorem bump_furnishMin (c : Chip) (r : RegRef) (f : Fld) (n : Nat) : (c.bump r f n).furnishMin = c.furnishMin := rfl
@[simp] theorem bump_furnishCells (c : Chip) (r : RegRef) (f : Fld) (n : Nat) : (c.bump r f n).furnishCells = c.furnishCells := rfl
@[simp] theorem bump_monitor (c : Chip) (r : RegRef) (f : Fld) (n : Nat) : (c.bump r f n).monitor = c.monitor := rfl
@[simp] theorem bump_power (c : Chip) (r : RegRef) (f : Fld) (n : Nat) : (c.bump r f n).power = c.power := rfl
@[simp] theorem bump_freeCtr (c : Chip) (r : RegRef) (f : Fld) (n : Nat) : (c.bump r f n).freeCtr = c.freeCtr := rfl
@[simp] theorem bump_sheets (c : Chip) (r : RegRef) (f : Fld) (n : Nat) : (c.bump r f n).sheets = c.sheets := rfl
@[simp] theorem bump_quires (c : Chip) (r : RegRef) (f : Fld) (n : Nat) : (c.bump r f n).quires = c.quires := rfl
@[simp] theorem bump_waiting (c : Chip) (r : RegRef) (f : Fld) (n : Nat) : (c.bump r f n).waiting = c.waiting := rfl
@[simp] theorem bump_radioReady (c : Chip) (r : RegRef) (f : Fld) (n : Nat) : (c.bump r f n).radioReady = c.radioReady := rfl
@[simp] theorem bump_commands (c : Chip) (r : RegRef) (f : Fld) (n : Nat) : (c.bump r f n).commands = c.commands := rfl
@[simp] theorem bump_nextCmd (c : Chip) (r : RegRef) (f : Fld) (n : Nat) : (c.bump r f n).nextCmd = c.nextCmd := rfl
@[simp] theorem bump_contexts (c : Chip) (r : RegRef) (f : Fld) (n : Nat) : (c.bump r f n).contexts = c.contexts := rfl
@[simp] theorem bump_programs (c : Chip) (r : RegRef) (f : Fld) (n : Nat) : (c.bump r f n).programs = c.programs := rfl
@[simp] theorem bump_nextProgram (c : Chip) (r : RegRef) (f : Fld) (n : Nat) : (c.bump r f n).nextProgram = c.nextProgram := rfl
@[simp] theorem bump_tokens (c : Chip) (r : RegRef) (f : Fld) (n : Nat) : (c.bump r f n).tokens = c.tokens := rfl
@[simp] theorem bump_pages (c : Chip) (r : RegRef) (f : Fld) (n : Nat) : (c.bump r f n).pages = c.pages := rfl
@[simp] theorem bump_mem (c : Chip) (r : RegRef) (f : Fld) (n : Nat) : (c.bump r f n).mem = c.mem := rfl
@[simp] theorem bump_poison (c : Chip) (r : RegRef) (f : Fld) (n : Nat) : (c.bump r f n).poison = c.poison := rfl
@[simp] theorem bump_host (c : Chip) (r : RegRef) (f : Fld) (n : Nat) : (c.bump r f n).host = c.host := rfl
@[simp] theorem bump_mapRun (c : Chip) (r : RegRef) (f : Fld) (n : Nat) : (c.bump r f n).mapRun = c.mapRun := rfl
@[simp] theorem bump_lastHome (c : Chip) (r : RegRef) (f : Fld) (n : Nat) : (c.bump r f n).lastHome = c.lastHome := rfl
@[simp] theorem bump_migrations (c : Chip) (r : RegRef) (f : Fld) (n : Nat) : (c.bump r f n).migrations = c.migrations := rfl
@[simp] theorem bump_interval (c : Chip) (r : RegRef) (f : Fld) (n : Nat) : (c.bump r f n).interval = c.interval := rfl
@[simp] theorem bump_lend (c : Chip) (r : RegRef) (f : Fld) (n : Nat) : (c.bump r f n).lend = c.lend := rfl
@[simp] theorem bump_borrow (c : Chip) (r : RegRef) (f : Fld) (n : Nat) : (c.bump r f n).borrow = c.borrow := rfl
@[simp] theorem bump_rings (c : Chip) (r : RegRef) (f : Fld) (n : Nat) : (c.bump r f n).rings = c.rings := rfl
@[simp] theorem bump_mbxQueue (c : Chip) (r : RegRef) (f : Fld) (n : Nat) : (c.bump r f n).mbxQueue = c.mbxQueue := rfl
@[simp] theorem bump_locks (c : Chip) (r : RegRef) (f : Fld) (n : Nat) : (c.bump r f n).locks = c.locks := rfl
@[simp] theorem bump_keys (c : Chip) (r : RegRef) (f : Fld) (n : Nat) : (c.bump r f n).keys = c.keys := rfl
@[simp] theorem bump_drains (c : Chip) (r : RegRef) (f : Fld) (n : Nat) : (c.bump r f n).drains = c.drains := rfl
@[simp] theorem bump_cells (c : Chip) (r : RegRef) (f : Fld) (n : Nat) : (c.bump r f n).cells = c.cells := rfl
@[simp] theorem bump_kvSealed (c : Chip) (r : RegRef) (f : Fld) (n : Nat) : (c.bump r f n).kvSealed = c.kvSealed := rfl
@[simp] theorem bump_walks (c : Chip) (r : RegRef) (f : Fld) (n : Nat) : (c.bump r f n).walks = c.walks := rfl
@[simp] theorem bump_walkWait (c : Chip) (r : RegRef) (f : Fld) (n : Nat) : (c.bump r f n).walkWait = c.walkWait := rfl
@[simp] theorem bump_nextIssue (c : Chip) (r : RegRef) (f : Fld) (n : Nat) : (c.bump r f n).nextIssue = c.nextIssue := rfl
@[simp] theorem bump_pfxPool (c : Chip) (r : RegRef) (f : Fld) (n : Nat) : (c.bump r f n).pfxPool = c.pfxPool := rfl
@[simp] theorem bump_weights (c : Chip) (r : RegRef) (f : Fld) (n : Nat) : (c.bump r f n).weights = c.weights := rfl
@[simp] theorem bump_routes (c : Chip) (r : RegRef) (f : Fld) (n : Nat) : (c.bump r f n).routes = c.routes := rfl
@[simp] theorem bump_windows (c : Chip) (r : RegRef) (f : Fld) (n : Nat) : (c.bump r f n).windows = c.windows := rfl
@[simp] theorem bump_rxqs (c : Chip) (r : RegRef) (f : Fld) (n : Nat) : (c.bump r f n).rxqs = c.rxqs := rfl
@[simp] theorem bump_jobs (c : Chip) (r : RegRef) (f : Fld) (n : Nat) : (c.bump r f n).jobs = c.jobs := rfl
@[simp] theorem bump_incarnations (c : Chip) (r : RegRef) (f : Fld) (n : Nat) : (c.bump r f n).incarnations = c.incarnations := rfl
@[simp] theorem bump_engines (c : Chip) (r : RegRef) (f : Fld) (n : Nat) : (c.bump r f n).engines = c.engines := rfl
@[simp] theorem bump_ingress (c : Chip) (r : RegRef) (f : Fld) (n : Nat) : (c.bump r f n).ingress = c.ingress := rfl
@[simp] theorem bump_nextRec (c : Chip) (r : RegRef) (f : Fld) (n : Nat) : (c.bump r f n).nextRec = c.nextRec := rfl
@[simp] theorem bump_lastPort (c : Chip) (r : RegRef) (f : Fld) (n : Nat) : (c.bump r f n).lastPort = c.lastPort := rfl
@[simp] theorem bump_fabPorts (c : Chip) (r : RegRef) (f : Fld) (n : Nat) : (c.bump r f n).fabPorts = c.fabPorts := rfl
@[simp] theorem bump_egress (c : Chip) (r : RegRef) (f : Fld) (n : Nat) : (c.bump r f n).egress = c.egress := rfl
@[simp] theorem bump_streams (c : Chip) (r : RegRef) (f : Fld) (n : Nat) : (c.bump r f n).streams = c.streams := rfl
@[simp] theorem bump_radioMem (c : Chip) (r : RegRef) (f : Fld) (n : Nat) : (c.bump r f n).radioMem = c.radioMem := rfl
@[simp] theorem bump_strips (c : Chip) (r : RegRef) (f : Fld) (n : Nat) : (c.bump r f n).strips = c.strips := rfl
@[simp] theorem bump_peers (c : Chip) (r : RegRef) (f : Fld) (n : Nat) : (c.bump r f n).peers = c.peers := rfl
@[simp] theorem bump_lastHeartbeat (c : Chip) (r : RegRef) (f : Fld) (n : Nat) : (c.bump r f n).lastHeartbeat = c.lastHeartbeat := rfl
@[simp] theorem bump_linkDownAt (c : Chip) (r : RegRef) (f : Fld) (n : Nat) : (c.bump r f n).linkDownAt = c.linkDownAt := rfl
@[simp] theorem bump_linkUpTick (c : Chip) (r : RegRef) (f : Fld) (n : Nat) : (c.bump r f n).linkUpTick = c.linkUpTick := rfl
@[simp] theorem bump_capacityLost (c : Chip) (r : RegRef) (f : Fld) (n : Nat) : (c.bump r f n).capacityLost = c.capacityLost := rfl
@[simp] theorem bump_poolReload (c : Chip) (r : RegRef) (f : Fld) (n : Nat) : (c.bump r f n).poolReload = c.poolReload := rfl
@[simp] theorem bump_radioFirst (c : Chip) (r : RegRef) (f : Fld) (n : Nat) : (c.bump r f n).radioFirst = c.radioFirst := rfl
@[simp] theorem bump_fapiHeld (c : Chip) (r : RegRef) (f : Fld) (n : Nat) : (c.bump r f n).fapiHeld = c.fapiHeld := rfl
@[simp] theorem bump_fapiArrived (c : Chip) (r : RegRef) (f : Fld) (n : Nat) : (c.bump r f n).fapiArrived = c.fapiArrived := rfl
@[simp] theorem bump_swaps (c : Chip) (r : RegRef) (f : Fld) (n : Nat) : (c.bump r f n).swaps = c.swaps := rfl
@[simp] theorem bump_selfTests (c : Chip) (r : RegRef) (f : Fld) (n : Nat) : (c.bump r f n).selfTests = c.selfTests := rfl
@[simp] theorem bump_jobSteps (c : Chip) (r : RegRef) (f : Fld) (n : Nat) : (c.bump r f n).jobSteps = c.jobSteps := rfl
@[simp] theorem bump_out (c : Chip) (r : RegRef) (f : Fld) (n : Nat) : (c.bump r f n).out = c.out := rfl

/-! ### send -/

@[simp] theorem send_ident (c : Chip) (o : Out) : (c.send o).ident = c.ident := rfl
@[simp] theorem send_pins (c : Chip) (o : Out) : (c.send o).pins = c.pins := rfl
@[simp] theorem send_regs (c : Chip) (o : Out) : (c.send o).regs = c.regs := rfl
@[simp] theorem send_reqs (c : Chip) (o : Out) : (c.send o).reqs = c.reqs := rfl
@[simp] theorem send_time (c : Chip) (o : Out) : (c.send o).time = c.time := rfl
@[simp] theorem send_tsq (c : Chip) (o : Out) : (c.send o).tsq = c.tsq := rfl
@[simp] theorem send_events (c : Chip) (o : Out) : (c.send o).events = c.events := rfl
@[simp] theorem send_firedAt (c : Chip) (o : Out) : (c.send o).firedAt = c.firedAt := rfl
@[simp] theorem send_log (c : Chip) (o : Out) : (c.send o).log = c.log := rfl
@[simp] theorem send_health (c : Chip) (o : Out) : (c.send o).health = c.health := rfl
@[simp] theorem send_errRing (c : Chip) (o : Out) : (c.send o).errRing = c.errRing := rfl
@[simp] theorem send_missRing (c : Chip) (o : Out) : (c.send o).missRing = c.missRing := rfl
@[simp] theorem send_mismatches (c : Chip) (o : Out) : (c.send o).mismatches = c.mismatches := rfl
@[simp] theorem send_damaged (c : Chip) (o : Out) : (c.send o).damaged = c.damaged := rfl
@[simp] theorem send_rcvRecords (c : Chip) (o : Out) : (c.send o).rcvRecords = c.rcvRecords := rfl
@[simp] theorem send_rcvRunning (c : Chip) (o : Out) : (c.send o).rcvRunning = c.rcvRunning := rfl
@[simp] theorem send_mirrors (c : Chip) (o : Out) : (c.send o).mirrors = c.mirrors := rfl
@[simp] theorem send_flash (c : Chip) (o : Out) : (c.send o).flash = c.flash := rfl
@[simp] theorem send_furnishMin (c : Chip) (o : Out) : (c.send o).furnishMin = c.furnishMin := rfl
@[simp] theorem send_furnishCells (c : Chip) (o : Out) : (c.send o).furnishCells = c.furnishCells := rfl
@[simp] theorem send_monitor (c : Chip) (o : Out) : (c.send o).monitor = c.monitor := rfl
@[simp] theorem send_power (c : Chip) (o : Out) : (c.send o).power = c.power := rfl
@[simp] theorem send_freeCtr (c : Chip) (o : Out) : (c.send o).freeCtr = c.freeCtr := rfl
@[simp] theorem send_sheets (c : Chip) (o : Out) : (c.send o).sheets = c.sheets := rfl
@[simp] theorem send_quires (c : Chip) (o : Out) : (c.send o).quires = c.quires := rfl
@[simp] theorem send_waiting (c : Chip) (o : Out) : (c.send o).waiting = c.waiting := rfl
@[simp] theorem send_radioReady (c : Chip) (o : Out) : (c.send o).radioReady = c.radioReady := rfl
@[simp] theorem send_commands (c : Chip) (o : Out) : (c.send o).commands = c.commands := rfl
@[simp] theorem send_nextCmd (c : Chip) (o : Out) : (c.send o).nextCmd = c.nextCmd := rfl
@[simp] theorem send_contexts (c : Chip) (o : Out) : (c.send o).contexts = c.contexts := rfl
@[simp] theorem send_programs (c : Chip) (o : Out) : (c.send o).programs = c.programs := rfl
@[simp] theorem send_nextProgram (c : Chip) (o : Out) : (c.send o).nextProgram = c.nextProgram := rfl
@[simp] theorem send_tokens (c : Chip) (o : Out) : (c.send o).tokens = c.tokens := rfl
@[simp] theorem send_pages (c : Chip) (o : Out) : (c.send o).pages = c.pages := rfl
@[simp] theorem send_mem (c : Chip) (o : Out) : (c.send o).mem = c.mem := rfl
@[simp] theorem send_poison (c : Chip) (o : Out) : (c.send o).poison = c.poison := rfl
@[simp] theorem send_host (c : Chip) (o : Out) : (c.send o).host = c.host := rfl
@[simp] theorem send_mapRun (c : Chip) (o : Out) : (c.send o).mapRun = c.mapRun := rfl
@[simp] theorem send_lastHome (c : Chip) (o : Out) : (c.send o).lastHome = c.lastHome := rfl
@[simp] theorem send_migrations (c : Chip) (o : Out) : (c.send o).migrations = c.migrations := rfl
@[simp] theorem send_interval (c : Chip) (o : Out) : (c.send o).interval = c.interval := rfl
@[simp] theorem send_lend (c : Chip) (o : Out) : (c.send o).lend = c.lend := rfl
@[simp] theorem send_borrow (c : Chip) (o : Out) : (c.send o).borrow = c.borrow := rfl
@[simp] theorem send_rings (c : Chip) (o : Out) : (c.send o).rings = c.rings := rfl
@[simp] theorem send_mbxQueue (c : Chip) (o : Out) : (c.send o).mbxQueue = c.mbxQueue := rfl
@[simp] theorem send_locks (c : Chip) (o : Out) : (c.send o).locks = c.locks := rfl
@[simp] theorem send_keys (c : Chip) (o : Out) : (c.send o).keys = c.keys := rfl
@[simp] theorem send_drains (c : Chip) (o : Out) : (c.send o).drains = c.drains := rfl
@[simp] theorem send_cells (c : Chip) (o : Out) : (c.send o).cells = c.cells := rfl
@[simp] theorem send_kvSealed (c : Chip) (o : Out) : (c.send o).kvSealed = c.kvSealed := rfl
@[simp] theorem send_walks (c : Chip) (o : Out) : (c.send o).walks = c.walks := rfl
@[simp] theorem send_walkWait (c : Chip) (o : Out) : (c.send o).walkWait = c.walkWait := rfl
@[simp] theorem send_nextIssue (c : Chip) (o : Out) : (c.send o).nextIssue = c.nextIssue := rfl
@[simp] theorem send_pfxPool (c : Chip) (o : Out) : (c.send o).pfxPool = c.pfxPool := rfl
@[simp] theorem send_weights (c : Chip) (o : Out) : (c.send o).weights = c.weights := rfl
@[simp] theorem send_routes (c : Chip) (o : Out) : (c.send o).routes = c.routes := rfl
@[simp] theorem send_windows (c : Chip) (o : Out) : (c.send o).windows = c.windows := rfl
@[simp] theorem send_rxqs (c : Chip) (o : Out) : (c.send o).rxqs = c.rxqs := rfl
@[simp] theorem send_jobs (c : Chip) (o : Out) : (c.send o).jobs = c.jobs := rfl
@[simp] theorem send_incarnations (c : Chip) (o : Out) : (c.send o).incarnations = c.incarnations := rfl
@[simp] theorem send_engines (c : Chip) (o : Out) : (c.send o).engines = c.engines := rfl
@[simp] theorem send_ingress (c : Chip) (o : Out) : (c.send o).ingress = c.ingress := rfl
@[simp] theorem send_nextRec (c : Chip) (o : Out) : (c.send o).nextRec = c.nextRec := rfl
@[simp] theorem send_lastPort (c : Chip) (o : Out) : (c.send o).lastPort = c.lastPort := rfl
@[simp] theorem send_fabPorts (c : Chip) (o : Out) : (c.send o).fabPorts = c.fabPorts := rfl
@[simp] theorem send_egress (c : Chip) (o : Out) : (c.send o).egress = c.egress := rfl
@[simp] theorem send_streams (c : Chip) (o : Out) : (c.send o).streams = c.streams := rfl
@[simp] theorem send_radioMem (c : Chip) (o : Out) : (c.send o).radioMem = c.radioMem := rfl
@[simp] theorem send_strips (c : Chip) (o : Out) : (c.send o).strips = c.strips := rfl
@[simp] theorem send_peers (c : Chip) (o : Out) : (c.send o).peers = c.peers := rfl
@[simp] theorem send_lastHeartbeat (c : Chip) (o : Out) : (c.send o).lastHeartbeat = c.lastHeartbeat := rfl
@[simp] theorem send_linkDownAt (c : Chip) (o : Out) : (c.send o).linkDownAt = c.linkDownAt := rfl
@[simp] theorem send_linkUpTick (c : Chip) (o : Out) : (c.send o).linkUpTick = c.linkUpTick := rfl
@[simp] theorem send_capacityLost (c : Chip) (o : Out) : (c.send o).capacityLost = c.capacityLost := rfl
@[simp] theorem send_poolReload (c : Chip) (o : Out) : (c.send o).poolReload = c.poolReload := rfl
@[simp] theorem send_radioFirst (c : Chip) (o : Out) : (c.send o).radioFirst = c.radioFirst := rfl
@[simp] theorem send_fapiHeld (c : Chip) (o : Out) : (c.send o).fapiHeld = c.fapiHeld := rfl
@[simp] theorem send_fapiArrived (c : Chip) (o : Out) : (c.send o).fapiArrived = c.fapiArrived := rfl
@[simp] theorem send_swaps (c : Chip) (o : Out) : (c.send o).swaps = c.swaps := rfl
@[simp] theorem send_selfTests (c : Chip) (o : Out) : (c.send o).selfTests = c.selfTests := rfl
@[simp] theorem send_jobSteps (c : Chip) (o : Out) : (c.send o).jobSteps = c.jobSteps := rfl
@[simp] theorem send_out (c : Chip) (o : Out) : (c.send o).out = o :: c.out := rfl

@[simp] theorem send_reg (c : Chip) (o : Out) (r : RegRef) : (c.send o).reg r = c.reg r := rfl
@[simp] theorem send_fld (c : Chip) (o : Out) (r : RegRef) (f : Fld) : (c.send o).fld r f = c.fld r f := rfl

end Sys2Proof.Laws
end

