-- ==== Sys2Proof/Laws/Access.lean ====
section
/-! SUPPORT. How a row reaches the part: its gate, its port, and what an access supersedes. -/

namespace Sys2Proof.Laws

open Sys2Proof.Machine

/-! ### Gates -/

@[simp] theorem onAny_next (s : State) (f : Chip → Chip) : s.onAny f = .next { s with chip := f s.chip } := rfl

theorem onlyIf_true (s : State) (b : Bool) (f : Chip → Chip) (h : b = true) : s.onlyIf b f = .next { s with chip := f s.chip } := by
  simp [State.onlyIf, State.withChip, h]

theorem onlyIf_false (s : State) (b : Bool) (f : Chip → Chip) (h : b = false) : s.onlyIf b f = .next s := by
  simp [State.onlyIf, State.withChip, h]

theorem onRunning_next (s : State) (f : Chip → Chip) (h : s.chip.running = true) : s.onRunning f = .next { s with chip := f s.chip } :=
  onlyIf_true s _ f h

theorem onLive_next (s : State) (f : Chip → Chip) (h : s.chip.live = true) : s.onLive f = .next { s with chip := f s.chip } :=
  onlyIf_true s _ f h

theorem onAnswering_next (s : State) (f : Chip → Chip) (h : s.chip.running = true) (h2 : s.chip.stage ≠ 0) :
    s.onAnswering f = .next { s with chip := f s.chip } :=
  onlyIf_true s _ f (by simp [h, h2])

/-- A part that does not run takes no command of this kind. -/
theorem onRunning_dark (s : State) (f : Chip → Chip) (h : s.chip.running = false) : s.onRunning f = .next s := onlyIf_false s _ f h

theorem onLive_dark (s : State) (f : Chip → Chip) (h : s.chip.running = false) : s.onLive f = .next s :=
  onlyIf_false s _ f (by simp [Chip.live, h])

theorem onAnswering_dark (s : State) (f : Chip → Chip) (h : s.chip.running = false) : s.onAnswering f = .next s :=
  onlyIf_false s _ f (by simp [h])

/-! ### Ports -/

theorem access_reaches (c : Chip) (r : Requester) (f : Chip → Chip) (h : c.reaches r = true) : c.access r f = f (c.supersede r) := by
  simp [Chip.access, Chip.onPort, h]

theorem onPort_reaches (c : Chip) (r : Requester) (f : Chip → Chip) (h : c.reaches r = true) : c.onPort r f = f c := by
  simp [Chip.onPort, h]

/-- Superseding changes what the requester holds, and the count of torn writes. -/
theorem supersede_form (c : Chip) (r : Requester) : ∃ q rs, c.supersede r = { c with reqs := q, regs := rs } := by
  unfold Chip.supersede
  simp only []
  split <;> split <;> exact ⟨_, _, rfl⟩

theorem supersede_reg (c : Chip) (r : Requester) (x : RegRef) (h : R.GLB_STAT.addr ≠ x.addr) : (c.supersede r).reg x = c.reg x := by
  unfold Chip.supersede
  simp only []
  have key : ∀ d : Chip, d.regs = c.regs → (if (c.getReq r).lowHalf.isNone = true then d
      else (d.bump R.GLB_STAT F.GLB_STAT.TORN_CNT 1).mark R.GLB_STAT F.GLB_STAT.STICKY_TORN).reg x = c.reg x := by
    intro d hd
    split
    · simp [Chip.reg, hd]
    · rw [Chip.mark, Chip.setFld, reg_setReg_other _ _ _ _ h, Chip.bump, Chip.setFld, reg_setReg_other _ _ _ _ h]; simp [Chip.reg, hd]
  refine key _ ?_
  split <;> rfl

theorem supersede_fld (c : Chip) (r : Requester) (x : RegRef) (f : Fld) (h : R.GLB_STAT.addr ≠ x.addr) :
    (c.supersede r).fld x f = c.fld x f := by
  simp [Chip.fld, supersede_reg c r x h]

/-- Nothing held or latched: nothing is superseded. -/
theorem supersede_idle (c : Chip) (r : Requester) (h1 : (c.getReq r).highLatch = none) (h2 : (c.getReq r).lowHalf = none) :
    c.supersede r = c := by
  simp [Chip.supersede, h1, h2]

/-! ### Stages -/

theorem advance_stage (c : Chip) (n : Nat) : (c.advance n).stage = n % 8 := by
  unfold Chip.advance Chip.stage
  rw [irq_fld _ _ _ _ (by decide) (by decide), fld_setFld_same _ _ _ _ (by decide)]; rfl

theorem advance_form (c : Chip) (n : Nat) : ∃ rs o, c.advance n = { c with regs := rs, out := o } := by
  obtain ⟨rs, o, h⟩ := irq_form (c.setFld R.BOOT_STAT F.BOOT_STAT.STAGE n) 11
  exact ⟨rs, o, h⟩

end Sys2Proof.Laws
end

