-- ==== Sys2Proof/Laws/PerInstr.lean ====
section
/-! SUPPORT. One lemma for each command: well-formed, it answers a next state that differs in the part alone. -/

namespace Sys2Proof.Laws

open Sys2Proof.Machine

/-- A guard that holds lets its step through. -/
theorem guarded_true (s : State) (ok : Bool) (r : Host.Outcome State Fault Refusal) (h : ok = true) : s.guarded ok r = r := by
  simp [State.guarded, h]

/-- A guard that does not hold stops the step. -/
theorem guarded_false (s : State) (ok : Bool) (r : Host.Outcome State Fault Refusal) (h : ok = false) :
    s.guarded ok r = .fault .illFormed := by
  simp [State.guarded, h]

/-- Well-formed, the command answers a next state whose queue is untouched. -/
def Answers.Statement (i : Instr) : Prop := i.wf = true → ∀ s : State, ∃ c : Chip, exec i s = .next (s.withChip c)

theorem Answers.registerWrite (r : Requester) (addr : Nat) (size8 : Bool) (v : W64) : Answers.Statement (.registerWrite r addr size8 v) :=
  fun h s => ⟨_, guarded_true s _ _ h⟩
theorem Answers.valueWordWrite (r : Requester) (addr : Nat) (v : W64) : Answers.Statement (.valueWordWrite r addr v) :=
  fun h s => ⟨_, guarded_true s _ _ h⟩
theorem Answers.complementWordWrite (r : Requester) (addr : Nat) (v : W64) : Answers.Statement (.complementWordWrite r addr v) :=
  fun h s => ⟨_, guarded_true s _ _ h⟩
theorem Answers.lowHalfRead (r : Requester) (addr : Nat) : Answers.Statement (.lowHalfRead r addr) :=
  fun h s => ⟨_, guarded_true s _ _ h⟩
theorem Answers.highHalfRead (r : Requester) (addr : Nat) : Answers.Statement (.highHalfRead r addr) :=
  fun h s => ⟨_, guarded_true s _ _ h⟩
theorem Answers.lowHalfWrite (r : Requester) (addr : Nat) (v : W32) : Answers.Statement (.lowHalfWrite r addr v) :=
  fun h s => ⟨_, guarded_true s _ _ h⟩
theorem Answers.highHalfWrite (r : Requester) (addr : Nat) (v : W32) : Answers.Statement (.highHalfWrite r addr v) :=
  fun h s => ⟨_, guarded_true s _ _ h⟩
theorem Answers.unsupportedRequest (r : Requester) (addr : Nat) (size : Nat) : Answers.Statement (.unsupportedRequest r addr size) :=
  fun h s => ⟨_, guarded_true s _ _ h⟩
theorem Answers.unassignedAccess (r : Requester) (addr : Nat) (isWrite : Bool) : Answers.Statement (.unassignedAccess r addr isWrite) :=
  fun h s => ⟨_, guarded_true s _ _ h⟩
theorem Answers.changeLogSpill : Answers.Statement (.changeLogSpill) :=
  fun _ _ => ⟨_, rfl⟩
theorem Answers.lossOfReam (ream : Fin 4) : Answers.Statement (.lossOfReam ream) :=
  fun _ _ => ⟨_, rfl⟩
theorem Answers.rtOffsetWrite (r : Requester) (v c : W32) : Answers.Statement (.rtOffsetWrite r v c) :=
  fun _ _ => ⟨_, rfl⟩
theorem Answers.chipTimeSlew (corr : Int) : Answers.Statement (.chipTimeSlew corr) :=
  fun _ _ => ⟨_, rfl⟩
theorem Answers.ctSecRead (r : Requester) : Answers.Statement (.ctSecRead r) :=
  fun _ _ => ⟨_, rfl⟩
theorem Answers.delayReqSend (d : Fin 2) : Answers.Statement (.delayReqSend d) :=
  fun _ _ => ⟨_, rfl⟩
theorem Answers.domainGood (d : Fin 2) : Answers.Statement (.domainGood d) :=
  fun _ _ => ⟨_, rfl⟩
theorem Answers.domainLost (d : Fin 2) (why : DomainLoss) : Answers.Statement (.domainLost d why) :=
  fun _ _ => ⟨_, rfl⟩
theorem Answers.acquireLock : Answers.Statement (.acquireLock) :=
  fun _ _ => ⟨_, rfl⟩
theorem Answers.wtrExpiry : Answers.Statement (.wtrExpiry) :=
  fun _ _ => ⟨_, rfl⟩
theorem Answers.ppsInEdge : Answers.Statement (.ppsInEdge) :=
  fun _ _ => ⟨_, rfl⟩
theorem Answers.ppsInMissing : Answers.Statement (.ppsInMissing) :=
  fun _ _ => ⟨_, rfl⟩
theorem Answers.holdoverLimitExpiry : Answers.Statement (.holdoverLimitExpiry) :=
  fun _ _ => ⟨_, rfl⟩
theorem Answers.frequencySourceChange (src : FreqSource) (valid : Bool) : Answers.Statement (.frequencySourceChange src valid) :=
  fun _ _ => ⟨_, rfl⟩
theorem Answers.ppsOutPulse : Answers.Statement (.ppsOutPulse) :=
  fun _ _ => ⟨_, rfl⟩
theorem Answers.frameTransmit (port : Fin 4) (sub : Fin 4) (placed : List (Nat × List Byte)) : Answers.Statement (.frameTransmit port sub placed) :=
  fun _ _ => ⟨_, rfl⟩
theorem Answers.tsqHiRead (r : Requester) (port : Fin 4) : Answers.Statement (.tsqHiRead r port) :=
  fun _ _ => ⟨_, rfl⟩
theorem Answers.tsqLoRead (r : Requester) (port : Fin 4) : Answers.Statement (.tsqLoRead r port) :=
  fun _ _ => ⟨_, rfl⟩
theorem Answers.evtWriteEntry (r : Requester) (index : Fin 4096) : Answers.Statement (.evtWriteEntry r index) :=
  fun _ _ => ⟨_, rfl⟩
theorem Answers.evtReadEntry (r : Requester) (index : Fin 4096) : Answers.Statement (.evtReadEntry r index) :=
  fun _ _ => ⟨_, rfl⟩
theorem Answers.evtDisarm (r : Requester) (index : Fin 4096) : Answers.Statement (.evtDisarm r index) :=
  fun _ _ => ⟨_, rfl⟩
theorem Answers.eventFire : Answers.Statement (.eventFire) :=
  fun _ _ => ⟨_, rfl⟩
theorem Answers.windowFinalise (stream : Fin 4096) (w : Fin 4) : Answers.Statement (.windowFinalise stream w) :=
  fun _ _ => ⟨_, rfl⟩
theorem Answers.splitReductionCombine (cmd : Nat) : Answers.Statement (.splitReductionCombine cmd) :=
  fun _ _ => ⟨_, rfl⟩
theorem Answers.scalarInstruction (sheet : SheetAt) (word : W32) : Answers.Statement (.scalarInstruction sheet word) :=
  fun _ _ => ⟨_, rfl⟩
theorem Answers.csrWrite (sheet : SheetAt) (csr : BitVec 12) (v : W32) : Answers.Statement (.csrWrite sheet csr v) :=
  fun _ _ => ⟨_, rfl⟩
theorem Answers.fxVadd (sheet : SheetAt) (o : FxOps) : Answers.Statement (.fxVadd sheet o) :=
  fun _ _ => ⟨_, rfl⟩
theorem Answers.fxVsub (sheet : SheetAt) (o : FxOps) : Answers.Statement (.fxVsub sheet o) :=
  fun _ _ => ⟨_, rfl⟩
theorem Answers.fxVmul (sheet : SheetAt) (o : FxOps) : Answers.Statement (.fxVmul sheet o) :=
  fun _ _ => ⟨_, rfl⟩
theorem Answers.fxVfma (sheet : SheetAt) (o : FxOps) : Answers.Statement (.fxVfma sheet o) :=
  fun _ _ => ⟨_, rfl⟩
theorem Answers.fxVmin (sheet : SheetAt) (o : FxOps) : Answers.Statement (.fxVmin sheet o) :=
  fun _ _ => ⟨_, rfl⟩
theorem Answers.fxVmax (sheet : SheetAt) (o : FxOps) : Answers.Statement (.fxVmax sheet o) :=
  fun _ _ => ⟨_, rfl⟩
theorem Answers.fxVcmplt (sheet : SheetAt) (o : FxOps) : Answers.Statement (.fxVcmplt sheet o) :=
  fun _ _ => ⟨_, rfl⟩
theorem Answers.fxVcmpeq (sheet : SheetAt) (o : FxOps) : Answers.Statement (.fxVcmpeq sheet o) :=
  fun _ _ => ⟨_, rfl⟩
theorem Answers.fxVsel (sheet : SheetAt) (o : FxOps) : Answers.Statement (.fxVsel sheet o) :=
  fun _ _ => ⟨_, rfl⟩
theorem Answers.fxVand (sheet : SheetAt) (o : FxOps) : Answers.Statement (.fxVand sheet o) :=
  fun _ _ => ⟨_, rfl⟩
theorem Answers.fxVor (sheet : SheetAt) (o : FxOps) : Answers.Statement (.fxVor sheet o) :=
  fun _ _ => ⟨_, rfl⟩
theorem Answers.fxVxor (sheet : SheetAt) (o : FxOps) : Answers.Statement (.fxVxor sheet o) :=
  fun _ _ => ⟨_, rfl⟩
theorem Answers.fxVshl (sheet : SheetAt) (o : FxOps) : Answers.Statement (.fxVshl sheet o) :=
  fun _ _ => ⟨_, rfl⟩
theorem Answers.fxVshra (sheet : SheetAt) (o : FxOps) : Answers.Statement (.fxVshra sheet o) :=
  fun _ _ => ⟨_, rfl⟩
theorem Answers.fxVcvt (sheet : SheetAt) (o : FxOps) : Answers.Statement (.fxVcvt sheet o) :=
  fun _ _ => ⟨_, rfl⟩
theorem Answers.fxVrsum (sheet : SheetAt) (o : FxOps) : Answers.Statement (.fxVrsum sheet o) :=
  fun _ _ => ⟨_, rfl⟩
theorem Answers.fxVrmax (sheet : SheetAt) (o : FxOps) : Answers.Statement (.fxVrmax sheet o) :=
  fun _ _ => ⟨_, rfl⟩
theorem Answers.fxVperm (sheet : SheetAt) (o : FxOps) : Answers.Statement (.fxVperm sheet o) :=
  fun _ _ => ⟨_, rfl⟩
theorem Answers.fxVfn (sheet : SheetAt) (o : FxOps) : Answers.Statement (.fxVfn sheet o) :=
  fun _ _ => ⟨_, rfl⟩
theorem Answers.fxVcmul (sheet : SheetAt) (o : FxOps) : Answers.Statement (.fxVcmul sheet o) :=
  fun _ _ => ⟨_, rfl⟩
theorem Answers.fxVcmulc (sheet : SheetAt) (o : FxOps) : Answers.Statement (.fxVcmulc sheet o) :=
  fun _ _ => ⟨_, rfl⟩
theorem Answers.fxVcmag (sheet : SheetAt) (o : FxOps) : Answers.Statement (.fxVcmag sheet o) :=
  fun _ _ => ⟨_, rfl⟩
theorem Answers.fxVscale (sheet : SheetAt) (o : FxOps) : Answers.Statement (.fxVscale sheet o) :=
  fun _ _ => ⟨_, rfl⟩
theorem Answers.fxVmvxs (sheet : SheetAt) (o : FxOps) : Answers.Statement (.fxVmvxs sheet o) :=
  fun _ _ => ⟨_, rfl⟩
theorem Answers.fxVld (sheet : SheetAt) (o : FxOps) (found : FeltRead) : Answers.Statement (.fxVld sheet o found) :=
  fun _ _ => ⟨_, rfl⟩
theorem Answers.fxVst (sheet : SheetAt) (o : FxOps) : Answers.Statement (.fxVst sheet o) :=
  fun _ _ => ⟨_, rfl⟩
theorem Answers.fxVld2 (sheet : SheetAt) (o : FxOps) : Answers.Statement (.fxVld2 sheet o) :=
  fun _ _ => ⟨_, rfl⟩
theorem Answers.fxVldx (sheet : SheetAt) (o : FxOps) : Answers.Statement (.fxVldx sheet o) :=
  fun _ _ => ⟨_, rfl⟩
theorem Answers.fxVstx (sheet : SheetAt) (o : FxOps) : Answers.Statement (.fxVstx sheet o) :=
  fun _ _ => ⟨_, rfl⟩
theorem Answers.fxVgath (sheet : SheetAt) (o : FxOps) : Answers.Statement (.fxVgath sheet o) :=
  fun _ _ => ⟨_, rfl⟩
theorem Answers.fxVscat (sheet : SheetAt) (o : FxOps) : Answers.Statement (.fxVscat sheet o) :=
  fun _ _ => ⟨_, rfl⟩
theorem Answers.feltForm (sheet : SheetAt) (f : Fin 32) (o : FxOps) : Answers.Statement (.feltForm sheet f o) :=
  fun _ _ => ⟨_, rfl⟩
theorem Answers.fxTapld (sheet : SheetAt) (o : FxOps) : Answers.Statement (.fxTapld sheet o) :=
  fun _ _ => ⟨_, rfl⟩
theorem Answers.fxTapmv (sheet : SheetAt) (o : FxOps) : Answers.Statement (.fxTapmv sheet o) :=
  fun _ _ => ⟨_, rfl⟩
theorem Answers.fxDemap (sheet : SheetAt) (o : FxOps) : Answers.Statement (.fxDemap sheet o) :=
  fun _ _ => ⟨_, rfl⟩
theorem Answers.fxCbxupk (sheet : SheetAt) (o : FxOps) : Answers.Statement (.fxCbxupk sheet o) :=
  fun _ _ => ⟨_, rfl⟩
theorem Answers.fxCbxpk (sheet : SheetAt) (o : FxOps) : Answers.Statement (.fxCbxpk sheet o) :=
  fun _ _ => ⟨_, rfl⟩
theorem Answers.fxMma (sheet : SheetAt) (o : FxOps) (residue : Fin 3) : Answers.Statement (.fxMma sheet o residue) :=
  fun _ _ => ⟨_, rfl⟩
theorem Answers.fxAccrd (sheet : SheetAt) (o : FxOps) : Answers.Statement (.fxAccrd sheet o) :=
  fun _ _ => ⟨_, rfl⟩
theorem Answers.fxAccld (sheet : SheetAt) (o : FxOps) : Answers.Statement (.fxAccld sheet o) :=
  fun _ _ => ⟨_, rfl⟩
theorem Answers.fxAccz (sheet : SheetAt) (o : FxOps) : Answers.Statement (.fxAccz sheet o) :=
  fun _ _ => ⟨_, rfl⟩
theorem Answers.fxAccmv (sheet : SheetAt) (o : FxOps) : Answers.Statement (.fxAccmv sheet o) :=
  fun _ _ => ⟨_, rfl⟩
theorem Answers.matrixDrainComplete (sheet : SheetAt) (target : DrainTarget) : Answers.Statement (.matrixDrainComplete sheet target) :=
  fun _ _ => ⟨_, rfl⟩
theorem Answers.joinedStepFire (q : QuireAt) (mismatches : Fin 3) : Answers.Statement (.joinedStepFire q mismatches) :=
  fun _ _ => ⟨_, rfl⟩
theorem Answers.fxDma (sheet : SheetAt) (o : FxOps) : Answers.Statement (.fxDma sheet o) :=
  fun _ _ => ⟨_, rfl⟩
theorem Answers.fxPref (sheet : SheetAt) (o : FxOps) : Answers.Statement (.fxPref sheet o) :=
  fun _ _ => ⟨_, rfl⟩
theorem Answers.copyIn (sheet : SheetAt) (tag : Nat) : Answers.Statement (.copyIn sheet tag) :=
  fun _ _ => ⟨_, rfl⟩
theorem Answers.gatherIn (sheet : SheetAt) (tag : Nat) : Answers.Statement (.gatherIn sheet tag) :=
  fun _ _ => ⟨_, rfl⟩
theorem Answers.poolIn (sheet : SheetAt) (tag : Nat) : Answers.Statement (.poolIn sheet tag) :=
  fun _ _ => ⟨_, rfl⟩
theorem Answers.prefPool (sheet : SheetAt) (tag : Nat) : Answers.Statement (.prefPool sheet tag) :=
  fun _ _ => ⟨_, rfl⟩
theorem Answers.dmaFillComplete (sheet : SheetAt) (tag line inc : Nat) : Answers.Statement (.dmaFillComplete sheet tag line inc) :=
  fun _ _ => ⟨_, rfl⟩
theorem Answers.fxTfence (sheet : SheetAt) (o : FxOps) : Answers.Statement (.fxTfence sheet o) :=
  fun _ _ => ⟨_, rfl⟩
theorem Answers.fxFence (sheet : SheetAt) (o : FxOps) : Answers.Statement (.fxFence sheet o) :=
  fun _ _ => ⟨_, rfl⟩
theorem Answers.fxWaitrdy (sheet : SheetAt) (o : FxOps) : Answers.Statement (.fxWaitrdy sheet o) :=
  fun _ _ => ⟨_, rfl⟩
theorem Answers.fxMkrdy (sheet : SheetAt) (o : FxOps) : Answers.Statement (.fxMkrdy sheet o) :=
  fun _ _ => ⟨_, rfl⟩
theorem Answers.fxClrrdy (sheet : SheetAt) (o : FxOps) : Answers.Statement (.fxClrrdy sheet o) :=
  fun _ _ => ⟨_, rfl⟩
theorem Answers.fxWaitev (sheet : SheetAt) (o : FxOps) : Answers.Statement (.fxWaitev sheet o) :=
  fun _ _ => ⟨_, rfl⟩
theorem Answers.waitevComplete (sheet : SheetAt) : Answers.Statement (.waitevComplete sheet) :=
  fun _ _ => ⟨_, rfl⟩
theorem Answers.fxStrec (sheet : SheetAt) (o : FxOps) : Answers.Statement (.fxStrec sheet o) :=
  fun _ _ => ⟨_, rfl⟩
theorem Answers.fxStred (sheet : SheetAt) (o : FxOps) : Answers.Statement (.fxStred sheet o) :=
  fun _ _ => ⟨_, rfl⟩
theorem Answers.fxCommit (sheet : SheetAt) (o : FxOps) : Answers.Statement (.fxCommit sheet o) :=
  fun _ _ => ⟨_, rfl⟩
theorem Answers.commitBegin (sheet : SheetAt) : Answers.Statement (.commitBegin sheet) :=
  fun _ _ => ⟨_, rfl⟩
theorem Answers.commitDrainComplete (sheet : SheetAt) : Answers.Statement (.commitDrainComplete sheet) :=
  fun _ _ => ⟨_, rfl⟩
theorem Answers.fxRtwait (sheet : SheetAt) (o : FxOps) : Answers.Statement (.fxRtwait sheet o) :=
  fun _ _ => ⟨_, rfl⟩
theorem Answers.rtwaitComplete (sheet : SheetAt) : Answers.Statement (.rtwaitComplete sheet) :=
  fun _ _ => ⟨_, rfl⟩
theorem Answers.fxRand (sheet : SheetAt) (o : FxOps) : Answers.Statement (.fxRand sheet o) :=
  fun _ _ => ⟨_, rfl⟩
theorem Answers.fxCntrd (sheet : SheetAt) (o : FxOps) : Answers.Statement (.fxCntrd sheet o) :=
  fun _ _ => ⟨_, rfl⟩
theorem Answers.fxStmsg (sheet : SheetAt) (o : FxOps) : Answers.Statement (.fxStmsg sheet o) :=
  fun _ _ => ⟨_, rfl⟩
theorem Answers.killRequest (sheet : SheetAt) : Answers.Statement (.killRequest sheet) :=
  fun _ _ => ⟨_, rfl⟩
theorem Answers.sheetReleaseComplete (sheet : SheetAt) : Answers.Statement (.sheetReleaseComplete sheet) :=
  fun _ _ => ⟨_, rfl⟩
theorem Answers.feltUncorrectableError (sheet : SheetAt) (cause : SheetCause) : Answers.Statement (.feltUncorrectableError sheet cause) :=
  fun _ _ => ⟨_, rfl⟩
theorem Answers.patrolScrub (sheet : SheetAt) (found : FeltRead) : Answers.Statement (.patrolScrub sheet found) :=
  fun _ _ => ⟨_, rfl⟩
theorem Answers.scrubNow (r : Requester) (sheet : SheetAt) : Answers.Statement (.scrubNow r sheet) :=
  fun _ _ => ⟨_, rfl⟩
theorem Answers.sheetRetire (sheet : SheetAt) : Answers.Statement (.sheetRetire sheet) :=
  fun _ _ => ⟨_, rfl⟩
theorem Answers.sheetReturn (sheet : SheetAt) : Answers.Statement (.sheetReturn sheet) :=
  fun _ _ => ⟨_, rfl⟩
theorem Answers.sqTailWrite (slice : Fin 1024) (q : Fin 64) (v : W32) : Answers.Statement (.sqTailWrite slice q v) :=
  fun _ _ => ⟨_, rfl⟩
theorem Answers.commandFetch (slot : Fin 64) (q : Fin 64) : Answers.Statement (.commandFetch slot q) :=
  fun _ _ => ⟨_, rfl⟩
theorem Answers.fetchAbort (slot : Fin 64) (q : Fin 64) : Answers.Statement (.fetchAbort slot q) :=
  fun _ _ => ⟨_, rfl⟩
theorem Answers.cqHeadWrite (slice : Fin 1024) (q : Fin 64) (v : W32) : Answers.Statement (.cqHeadWrite slice q v) :=
  fun _ _ => ⟨_, rfl⟩
theorem Answers.taskPlace (cmd : Nat) : Answers.Statement (.taskPlace cmd) :=
  fun _ _ => ⟨_, rfl⟩
theorem Answers.taskSteal (sheet : SheetAt) : Answers.Statement (.taskSteal sheet) :=
  fun _ _ => ⟨_, rfl⟩
theorem Answers.loadBalanceCheck (ream : Fin 4) : Answers.Statement (.loadBalanceCheck ream) :=
  fun _ _ => ⟨_, rfl⟩
theorem Answers.deadlineExpiry (cmd : Nat) : Answers.Statement (.deadlineExpiry cmd) :=
  fun _ _ => ⟨_, rfl⟩
theorem Answers.commandComplete (cmd : Nat) : Answers.Statement (.commandComplete cmd) :=
  fun _ _ => ⟨_, rfl⟩
theorem Answers.programLoad (cmd : Nat) : Answers.Statement (.programLoad cmd) :=
  fun _ _ => ⟨_, rfl⟩
theorem Answers.programUnload (cmd : Nat) : Answers.Statement (.programUnload cmd) :=
  fun _ _ => ⟨_, rfl⟩
theorem Answers.contextCreate (cmd : Nat) : Answers.Statement (.contextCreate cmd) :=
  fun _ _ => ⟨_, rfl⟩
theorem Answers.contextDestroy (cmd : Nat) : Answers.Statement (.contextDestroy cmd) :=
  fun _ _ => ⟨_, rfl⟩
theorem Answers.contextExport (cmd : Nat) : Answers.Statement (.contextExport cmd) :=
  fun _ _ => ⟨_, rfl⟩
theorem Answers.contextImport (cmd : Nat) : Answers.Statement (.contextImport cmd) :=
  fun _ _ => ⟨_, rfl⟩
theorem Answers.jobTeardown (cmd : Nat) : Answers.Statement (.jobTeardown cmd) :=
  fun _ _ => ⟨_, rfl⟩
theorem Answers.blockedSwapCheck (ream : Fin 4) : Answers.Statement (.blockedSwapCheck ream) :=
  fun _ _ => ⟨_, rfl⟩
theorem Answers.couchOutComplete (ctx : Nat) : Answers.Statement (.couchOutComplete ctx) :=
  fun _ _ => ⟨_, rfl⟩
theorem Answers.couchInComplete (ctx : Nat) : Answers.Statement (.couchInComplete ctx) :=
  fun _ _ => ⟨_, rfl⟩
theorem Answers.portCfgWrite (r : Requester) (port : Fin 4) (v c : W32) : Answers.Statement (.portCfgWrite r port v c) :=
  fun _ _ => ⟨_, rfl⟩
theorem Answers.linkUp (port : Fin 4) (sub : Fin 4) : Answers.Statement (.linkUp port sub) :=
  fun _ _ => ⟨_, rfl⟩
theorem Answers.linkDown (port : Fin 4) (sub : Fin 4) : Answers.Statement (.linkDown port sub) :=
  fun _ _ => ⟨_, rfl⟩
theorem Answers.frameReceive (port : Fin 4) (sub : Fin 4) (f : RxFrame) : Answers.Statement (.frameReceive port sub f) :=
  fun _ _ => ⟨_, rfl⟩
theorem Answers.gainStepUpdate (stream : Fin 4096) : Answers.Statement (.gainStepUpdate stream) :=
  fun _ _ => ⟨_, rfl⟩
theorem Answers.ethTxTailWrite (slice : Fin 1024) (q : Fin 64) (v : W32) : Answers.Statement (.ethTxTailWrite slice q v) :=
  fun _ _ => ⟨_, rfl⟩
theorem Answers.ethRxTailWrite (slice : Fin 1024) (q : Fin 64) (v : W32) : Answers.Statement (.ethRxTailWrite slice q v) :=
  fun _ _ => ⟨_, rfl⟩
theorem Answers.bucketRefill : Answers.Statement (.bucketRefill) :=
  fun _ _ => ⟨_, rfl⟩
theorem Answers.shpWrite (r : Requester) (port : Fin 10) (kind : Fin 4) (index : Fin 1024) : Answers.Statement (.shpWrite r port kind index) :=
  fun _ _ => ⟨_, rfl⟩
theorem Answers.shpReadBack (r : Requester) (port : Fin 10) (kind : Fin 4) (index : Fin 1024) : Answers.Statement (.shpReadBack r port kind index) :=
  fun _ _ => ⟨_, rfl⟩
theorem Answers.class0DropAfter (port : Fin 4) (queue : Fin 1024) : Answers.Statement (.class0DropAfter port queue) :=
  fun _ _ => ⟨_, rfl⟩
theorem Answers.strmCfgWrite (r : Requester) (stream : Fin 4096) (v c : W64) : Answers.Statement (.strmCfgWrite r stream v c) :=
  fun _ _ => ⟨_, rfl⟩
theorem Answers.fapiTailWrite (slice : Fin 1024) (v : W32) (unsupported : List (Fin 1024)) : Answers.Statement (.fapiTailWrite slice v unsupported) :=
  fun _ _ => ⟨_, rfl⟩
theorem Answers.fapiHeadWrite (slice : Fin 1024) (v : W32) : Answers.Statement (.fapiHeadWrite slice v) :=
  fun _ _ => ⟨_, rfl⟩
theorem Answers.paramRequest (slot : Fin 64) (last : Bool) : Answers.Statement (.paramRequest slot last) :=
  fun _ _ => ⟨_, rfl⟩
theorem Answers.configRequest (slot : Fin 64) (last : Bool) (cfg : CellConfig) : Answers.Statement (.configRequest slot last cfg) :=
  fun _ _ => ⟨_, rfl⟩
theorem Answers.startRequest (slot : Fin 64) (last : Bool) : Answers.Statement (.startRequest slot last) :=
  fun _ _ => ⟨_, rfl⟩
theorem Answers.stopRequest (slot : Fin 64) (last : Bool) : Answers.Statement (.stopRequest slot last) :=
  fun _ _ => ⟨_, rfl⟩
theorem Answers.dlTtiRequest (slot : Fin 64) (last : Bool) (frame : Fin 1024) (sl : Nat) (pdus : List DlPdu) : Answers.Statement (.dlTtiRequest slot last frame sl pdus) :=
  fun h s => ⟨_, guarded_true s _ _ h⟩
theorem Answers.ulTtiRequest (slot : Fin 64) (last : Bool) (frame : Fin 1024) (sl : Nat) (pdus : List UlPdu) : Answers.Statement (.ulTtiRequest slot last frame sl pdus) :=
  fun h s => ⟨_, guarded_true s _ _ h⟩
theorem Answers.ulDciRequest (slot : Fin 64) (last : Bool) (frame : Fin 1024) (sl : Nat) (candidates : Nat) : Answers.Statement (.ulDciRequest slot last frame sl candidates) :=
  fun h s => ⟨_, guarded_true s _ _ h⟩
theorem Answers.txDataRequest (slot : Fin 64) (last : Bool) (frame : Fin 1024) (sl : Nat) (blocks : List (Nat × List Byte)) : Answers.Statement (.txDataRequest slot last frame sl blocks) :=
  fun h s => ⟨_, guarded_true s _ _ h⟩
theorem Answers.codingJobStart (ream : Fin 4) (engine : Fin 36) : Answers.Statement (.codingJobStart ream engine) :=
  fun _ _ => ⟨_, rfl⟩
theorem Answers.codingJobComplete (ream : Fin 4) (result : JobResult) : Answers.Statement (.codingJobComplete ream result) :=
  fun _ _ => ⟨_, rfl⟩
theorem Answers.stripEngineError (ream : Fin 4) (engine : Fin 36) : Answers.Statement (.stripEngineError ream engine) :=
  fun _ _ => ⟨_, rfl⟩
theorem Answers.floorCfgWrite (r : Requester) (ream : Fin 4) (v c : W64) : Answers.Statement (.floorCfgWrite r ream v c) :=
  fun _ _ => ⟨_, rfl⟩
theorem Answers.class0TaskPlace (ream : Fin 4) : Answers.Statement (.class0TaskPlace ream) :=
  fun _ _ => ⟨_, rfl⟩
theorem Answers.capacityRecompute : Answers.Statement (.capacityRecompute) :=
  fun _ _ => ⟨_, rfl⟩
theorem Answers.coolingShed : Answers.Statement (.coolingShed) :=
  fun _ _ => ⟨_, rfl⟩
theorem Answers.standbyRequest (src : W16) (cell : Fin 1024) (slot : Fin 64) (cfg : CellConfig) : Answers.Statement (.standbyRequest src cell slot cfg) :=
  fun _ _ => ⟨_, rfl⟩
theorem Answers.standbyRetry (cell : Fin 1024) : Answers.Statement (.standbyRetry cell) :=
  fun _ _ => ⟨_, rfl⟩
theorem Answers.mirrorRecordSend (cell : Fin 1024) : Answers.Statement (.mirrorRecordSend cell) :=
  fun _ _ => ⟨_, rfl⟩
theorem Answers.mirrorRecordReceive (src : W16) (cell : Fin 1024) (frame : Fin 1024) (sl : Nat) (items : List MirrorItem) : Answers.Statement (.mirrorRecordReceive src cell frame sl items) :=
  fun h s => ⟨_, guarded_true s _ _ h⟩
theorem Answers.heartbeatSend : Answers.Statement (.heartbeatSend) :=
  fun _ _ => ⟨_, rfl⟩
theorem Answers.heartbeatReceive (port : Fin 6) (src : W16) (msg : PeerMsg) : Answers.Statement (.heartbeatReceive port src msg) :=
  fun _ _ => ⟨_, rfl⟩
theorem Answers.homeLossDetect (peer : W16) (events : List ArmedEvent) : Answers.Statement (.homeLossDetect peer events) :=
  fun _ _ => ⟨_, rfl⟩
theorem Answers.handover (cell : Fin 1024) : Answers.Statement (.handover cell) :=
  fun _ _ => ⟨_, rfl⟩
theorem Answers.handoverMessage (src : W16) (cell : Fin 1024) (boundary : Int) (events : List ArmedEvent) : Answers.Statement (.handoverMessage src cell boundary events) :=
  fun _ _ => ⟨_, rfl⟩
theorem Answers.cellRelease (cell : Fin 1024) : Answers.Statement (.cellRelease cell) :=
  fun _ _ => ⟨_, rfl⟩
theorem Answers.linkHoExpiry (cell : Fin 1024) : Answers.Statement (.linkHoExpiry cell) :=
  fun _ _ => ⟨_, rfl⟩
theorem Answers.takeoverBoundary (cell : Fin 1024) : Answers.Statement (.takeoverBoundary cell) :=
  fun _ _ => ⟨_, rfl⟩
theorem Answers.missHiRead (r : Requester) : Answers.Statement (.missHiRead r) :=
  fun _ _ => ⟨_, rfl⟩
theorem Answers.missLoRead (r : Requester) : Answers.Statement (.missLoRead r) :=
  fun _ _ => ⟨_, rfl⟩
theorem Answers.rope (sheet : SheetAt) (tag : Nat) : Answers.Statement (.rope sheet tag) :=
  fun _ _ => ⟨_, rfl⟩
theorem Answers.walkBegin (sheet : SheetAt) (tag : Nat) : Answers.Statement (.walkBegin sheet tag) :=
  fun _ _ => ⟨_, rfl⟩
theorem Answers.walkStep (sheet : SheetAt) (tag : Nat) : Answers.Statement (.walkStep sheet tag) :=
  fun _ _ => ⟨_, rfl⟩
theorem Answers.walkEnd (sheet : SheetAt) (tag : Nat) : Answers.Statement (.walkEnd sheet tag) :=
  fun _ _ => ⟨_, rfl⟩
theorem Answers.pageFetch (sheet : SheetAt) (tag : Nat) : Answers.Statement (.pageFetch sheet tag) :=
  fun _ _ => ⟨_, rfl⟩
theorem Answers.sample (sheet : SheetAt) (tag : Nat) : Answers.Statement (.sample sheet tag) :=
  fun _ _ => ⟨_, rfl⟩
theorem Answers.verify (sheet : SheetAt) (tag : Nat) : Answers.Statement (.verify sheet tag) :=
  fun _ _ => ⟨_, rfl⟩
theorem Answers.seqAppend (cmd : Nat) : Answers.Statement (.seqAppend cmd) :=
  fun _ _ => ⟨_, rfl⟩
theorem Answers.prefixPublish (cmd : Nat) : Answers.Statement (.prefixPublish cmd) :=
  fun _ _ => ⟨_, rfl⟩
theorem Answers.prefixAttach (cmd : Nat) : Answers.Statement (.prefixAttach cmd) :=
  fun _ _ => ⟨_, rfl⟩
theorem Answers.seqRelease (cmd : Nat) : Answers.Statement (.seqRelease cmd) :=
  fun _ _ => ⟨_, rfl⟩
theorem Answers.weightRegister (cmd : Nat) : Answers.Statement (.weightRegister cmd) :=
  fun _ _ => ⟨_, rfl⟩
theorem Answers.digestComplete (cmd : Nat) (slotIx : Fin 8) : Answers.Statement (.digestComplete cmd slotIx) :=
  fun _ _ => ⟨_, rfl⟩
theorem Answers.map (r : Requester) : Answers.Statement (.map r) :=
  fun _ _ => ⟨_, rfl⟩
theorem Answers.unmap (r : Requester) : Answers.Statement (.unmap r) :=
  fun _ _ => ⟨_, rfl⟩
theorem Answers.protect (r : Requester) : Answers.Statement (.protect r) :=
  fun _ _ => ⟨_, rfl⟩
theorem Answers.mapSeal (r : Requester) : Answers.Statement (.mapSeal r) :=
  fun _ _ => ⟨_, rfl⟩
theorem Answers.mapUnseal (r : Requester) : Answers.Statement (.mapUnseal r) :=
  fun _ _ => ⟨_, rfl⟩
theorem Answers.pin (r : Requester) : Answers.Statement (.pin r) :=
  fun _ _ => ⟨_, rfl⟩
theorem Answers.unpin (r : Requester) : Answers.Statement (.unpin r) :=
  fun _ _ => ⟨_, rfl⟩
theorem Answers.mapRead (r : Requester) : Answers.Statement (.mapRead r) :=
  fun _ _ => ⟨_, rfl⟩
theorem Answers.mappingChangeComplete : Answers.Statement (.mappingChangeComplete) :=
  fun _ _ => ⟨_, rfl⟩
theorem Answers.mappingChangeTimeout : Answers.Statement (.mappingChangeTimeout) :=
  fun _ _ => ⟨_, rfl⟩
theorem Answers.tierSeal (cmd : Nat) : Answers.Statement (.tierSeal cmd) :=
  fun _ _ => ⟨_, rfl⟩
theorem Answers.tierUnseal (cmd : Nat) : Answers.Statement (.tierUnseal cmd) :=
  fun _ _ => ⟨_, rfl⟩
theorem Answers.tierHint (cmd : Nat) : Answers.Statement (.tierHint cmd) :=
  fun _ _ => ⟨_, rfl⟩
theorem Answers.migrationInterval : Answers.Statement (.migrationInterval) :=
  fun _ _ => ⟨_, rfl⟩
theorem Answers.pageMigrationComplete (slot : Fin 64) (va : Nat) (ok : Bool) : Answers.Statement (.pageMigrationComplete slot va ok) :=
  fun h s => ⟨_, guarded_true s _ _ h⟩
theorem Answers.hostPoolWrite (r : Requester) (h : Fin 8) (v c : W64) : Answers.Statement (.hostPoolWrite r h v c) :=
  fun _ _ => ⟨_, rfl⟩
theorem Answers.hostPoolRelease (h : Fin 8) : Answers.Statement (.hostPoolRelease h) :=
  fun _ _ => ⟨_, rfl⟩
theorem Answers.tierCfgWrite (r : Requester) (v c : W64) : Answers.Statement (.tierCfgWrite r v c) :=
  fun _ _ => ⟨_, rfl⟩
theorem Answers.lendWinEnable (r : Requester) (w : Fin 16) : Answers.Statement (.lendWinEnable r w) :=
  fun _ _ => ⟨_, rfl⟩
theorem Answers.borrowConnect (r : Requester) (w : Fin 16) : Answers.Statement (.borrowConnect r w) :=
  fun _ _ => ⟨_, rfl⟩
theorem Answers.borrowRelease (r : Requester) (w : Fin 16) : Answers.Statement (.borrowRelease r w) :=
  fun _ _ => ⟨_, rfl⟩
theorem Answers.lendRequest (w : Fin 16) (src : W16) (key : W32) (kind : LendKind) : Answers.Statement (.lendRequest w src key kind) :=
  fun _ _ => ⟨_, rfl⟩
theorem Answers.lendRecall (r : Requester) (w : Fin 16) : Answers.Statement (.lendRecall r w) :=
  fun _ _ => ⟨_, rfl⟩
theorem Answers.recallReceive (w : Fin 16) (deadline : Nat) : Answers.Statement (.recallReceive w deadline) :=
  fun h s => ⟨_, guarded_true s _ _ h⟩
theorem Answers.evacuationDone (w : Fin 16) : Answers.Statement (.evacuationDone w) :=
  fun _ _ => ⟨_, rfl⟩
theorem Answers.doneReceive (w : Fin 16) : Answers.Statement (.doneReceive w) :=
  fun _ _ => ⟨_, rfl⟩
theorem Answers.recallDeadline (side : LendSide) (w : Fin 16) : Answers.Statement (.recallDeadline side w) :=
  fun _ _ => ⟨_, rfl⟩
theorem Answers.requestAgeForce (ream : Fin 4) : Answers.Statement (.requestAgeForce ream) :=
  fun _ _ => ⟨_, rfl⟩
theorem Answers.slotEnable (r : Requester) (slot : Fin 64) : Answers.Statement (.slotEnable r slot) :=
  fun _ _ => ⟨_, rfl⟩
theorem Answers.slotRelease (r : Requester) (slot : Fin 64) : Answers.Statement (.slotRelease r slot) :=
  fun _ _ => ⟨_, rfl⟩
theorem Answers.slotDrainComplete (slot : Fin 64) : Answers.Statement (.slotDrainComplete slot) :=
  fun _ _ => ⟨_, rfl⟩
theorem Answers.deckleWrite (r : Requester) (slot : Fin 64) (reg : DeckleReg) (v0 v1 c0 c1 : W64) : Answers.Statement (.deckleWrite r slot reg v0 v1 c0 c1) :=
  fun _ _ => ⟨_, rfl⟩
theorem Answers.keyLoad (r : Requester) (slot : Fin 64) : Answers.Statement (.keyLoad r slot) :=
  fun _ _ => ⟨_, rfl⟩
theorem Answers.keyGenerate (r : Requester) (slot : Fin 64) : Answers.Statement (.keyGenerate r slot) :=
  fun _ _ => ⟨_, rfl⟩
theorem Answers.sliceWrite (r : Requester) (i : Fin 1024) (v c : W64) : Answers.Statement (.sliceWrite r i v c) :=
  fun _ _ => ⟨_, rfl⟩
theorem Answers.ringCreate (slice : Fin 1024) : Answers.Statement (.ringCreate slice) :=
  fun _ _ => ⟨_, rfl⟩
theorem Answers.ringDelete (slice : Fin 1024) : Answers.Statement (.ringDelete slice) :=
  fun _ _ => ⟨_, rfl⟩
theorem Answers.ringReadBack (slice : Fin 1024) : Answers.Statement (.ringReadBack slice) :=
  fun _ _ => ⟨_, rfl⟩
theorem Answers.sqDeleteComplete (slot : Fin 64) (q : Fin 64) : Answers.Statement (.sqDeleteComplete slot q) :=
  fun _ _ => ⟨_, rfl⟩
theorem Answers.dirtySwap (r : Requester) (slot : Fin 64) : Answers.Statement (.dirtySwap r slot) :=
  fun _ _ => ⟨_, rfl⟩
theorem Answers.dirtySwapComplete (slot : Fin 64) : Answers.Statement (.dirtySwapComplete slot) :=
  fun _ _ => ⟨_, rfl⟩
theorem Answers.mbxOutWrite (r : Requester) (n : Fin 4) (v : W32) : Answers.Statement (.mbxOutWrite r n v) :=
  fun _ _ => ⟨_, rfl⟩
theorem Answers.mbxInRead (r : Requester) (n : Fin 4) : Answers.Statement (.mbxInRead r n) :=
  fun _ _ => ⟨_, rfl⟩
theorem Answers.firmwareMbxTake (side : MbxSide) (n : Fin 4) : Answers.Statement (.firmwareMbxTake side n) :=
  fun _ _ => ⟨_, rfl⟩
theorem Answers.ping (side : MbxSide) (n : Fin 4) : Answers.Statement (.ping side n) :=
  fun _ _ => ⟨_, rfl⟩
theorem Answers.useQuery (side : MbxSide) (n : Fin 4) : Answers.Statement (.useQuery side n) :=
  fun _ _ => ⟨_, rfl⟩
theorem Answers.firmwareMbxStore (side : MbxSide) (n : Fin 4) : Answers.Statement (.firmwareMbxStore side n) :=
  fun _ _ => ⟨_, rfl⟩
theorem Answers.shmbxWrite (r : Requester) (n : Fin 16) (v : W32) : Answers.Statement (.shmbxWrite r n v) :=
  fun _ _ => ⟨_, rfl⟩
theorem Answers.shmbxRead (r : Requester) (n : Fin 16) : Answers.Statement (.shmbxRead r n) :=
  fun _ _ => ⟨_, rfl⟩
theorem Answers.lockRead (r : Requester) (n : Fin 16) : Answers.Statement (.lockRead r n) :=
  fun _ _ => ⟨_, rfl⟩
theorem Answers.lockRelease (r : Requester) (n : Fin 16) (v : W32) : Answers.Statement (.lockRelease r n v) :=
  fun _ _ => ⟨_, rfl⟩
theorem Answers.lockForce (r : Requester) (mask : W16) : Answers.Statement (.lockForce r mask) :=
  fun _ _ => ⟨_, rfl⟩
theorem Answers.flitReceive (port : Fin 6) (f : Flit) : Answers.Statement (.flitReceive port f) :=
  fun _ _ => ⟨_, rfl⟩
theorem Answers.nakReceive (port : Fin 6) (seq : Fin 4096) : Answers.Statement (.nakReceive port seq) :=
  fun _ _ => ⟨_, rfl⟩
theorem Answers.linkRetrainComplete (port : Fin 6) (peerChip peerPort : Nat) (peerSwitch : Bool) : Answers.Statement (.linkRetrainComplete port peerChip peerPort peerSwitch) :=
  fun h s => ⟨_, guarded_true s _ _ h⟩
theorem Answers.routeWrite (r : Requester) (index : Fin 65536) : Answers.Statement (.routeWrite r index) :=
  fun _ _ => ⟨_, rfl⟩
theorem Answers.windowWrite (r : Requester) (index : Fin 65536) : Answers.Statement (.windowWrite r index) :=
  fun _ _ => ⟨_, rfl⟩
theorem Answers.rxqWrite (r : Requester) (index : Fin 65536) : Answers.Statement (.rxqWrite r index) :=
  fun _ _ => ⟨_, rfl⟩
theorem Answers.jobWrite (r : Requester) (index : Fin 65536) : Answers.Statement (.jobWrite r index) :=
  fun _ _ => ⟨_, rfl⟩
theorem Answers.tabReadBack (r : Requester) (table : Fin 4) (index : Fin 65536) : Answers.Statement (.tabReadBack r table index) :=
  fun _ _ => ⟨_, rfl⟩
theorem Answers.remoteRead (sheet : SheetAt) (tag : Nat) : Answers.Statement (.remoteRead sheet tag) :=
  fun _ _ => ⟨_, rfl⟩
theorem Answers.remoteGather (sheet : SheetAt) (tag : Nat) : Answers.Statement (.remoteGather sheet tag) :=
  fun _ _ => ⟨_, rfl⟩
theorem Answers.rxqPeek (sheet : SheetAt) (tag : Nat) : Answers.Statement (.rxqPeek sheet tag) :=
  fun _ _ => ⟨_, rfl⟩
theorem Answers.fabricRequestReceive (req : FabricRequest) : Answers.Statement (.fabricRequestReceive req) :=
  fun _ _ => ⟨_, rfl⟩
theorem Answers.readResponseReceive (sheet : SheetAt) (tag : Nat) (reply : ReadReply) : Answers.Statement (.readResponseReceive sheet tag reply) :=
  fun _ _ => ⟨_, rfl⟩
theorem Answers.fabricRecordSend (ream : Fin 4) (rec : Nat) : Answers.Statement (.fabricRecordSend ream rec) :=
  fun _ _ => ⟨_, rfl⟩
theorem Answers.fabricStore (ream : Fin 4) : Answers.Statement (.fabricStore ream) :=
  fun _ _ => ⟨_, rfl⟩
theorem Answers.fabricAtomic (ream : Fin 4) : Answers.Statement (.fabricAtomic ream) :=
  fun _ _ => ⟨_, rfl⟩
theorem Answers.messageReservation (req : FabricRequest) : Answers.Statement (.messageReservation req) :=
  fun _ _ => ⟨_, rfl⟩
theorem Answers.messagePayload (queue : Fin 4096) (src : W16) (data : List Byte) : Answers.Statement (.messagePayload queue src data) :=
  fun _ _ => ⟨_, rfl⟩
theorem Answers.fabricFence (ream : Fin 4) (rec : Nat) : Answers.Statement (.fabricFence ream rec) :=
  fun _ _ => ⟨_, rfl⟩
theorem Answers.fabricPop (ream : Fin 4) (rec : Nat) : Answers.Statement (.fabricPop ream rec) :=
  fun _ _ => ⟨_, rfl⟩
theorem Answers.recordAckReceive (ream : Fin 4) (rec : Nat) (reply : RecordReply) : Answers.Statement (.recordAckReceive ream rec reply) :=
  fun _ _ => ⟨_, rfl⟩
theorem Answers.notReadyReceive (ream : Fin 4) (rec : Nat) : Answers.Statement (.notReadyReceive ream rec) :=
  fun _ _ => ⟨_, rfl⟩
theorem Answers.reservationRetry (ream : Fin 4) (rec : Nat) : Answers.Statement (.reservationRetry ream rec) :=
  fun _ _ => ⟨_, rfl⟩
theorem Answers.deadTargetTimeout (target : DeadTarget) : Answers.Statement (.deadTargetTimeout target) :=
  fun _ _ => ⟨_, rfl⟩
theorem Answers.storedComplementMismatch (obj : CompObject) : Answers.Statement (.storedComplementMismatch obj) :=
  fun _ _ => ⟨_, rfl⟩
theorem Answers.complementRewrite (obj : CompObject) : Answers.Statement (.complementRewrite obj) :=
  fun _ _ => ⟨_, rfl⟩
theorem Answers.sheetSelfTestComplete (sheet : SheetAt) (pass : Bool) : Answers.Statement (.sheetSelfTestComplete sheet pass) :=
  fun _ _ => ⟨_, rfl⟩
theorem Answers.quireIsolate (q : QuireAt) : Answers.Statement (.quireIsolate q) :=
  fun _ _ => ⟨_, rfl⟩
theorem Answers.quireTest (q : QuireAt) : Answers.Statement (.quireTest q) :=
  fun _ _ => ⟨_, rfl⟩
theorem Answers.quireTestComplete (q : QuireAt) (pass : Bool) : Answers.Statement (.quireTestComplete q pass) :=
  fun _ _ => ⟨_, rfl⟩
theorem Answers.hardEvidence (cause : HardCause) : Answers.Statement (.hardEvidence cause) :=
  fun _ _ => ⟨_, rfl⟩
theorem Answers.quireSleep (q : QuireAt) : Answers.Statement (.quireSleep q) :=
  fun _ _ => ⟨_, rfl⟩
theorem Answers.quireWake (q : QuireAt) : Answers.Statement (.quireWake q) :=
  fun _ _ => ⟨_, rfl⟩
theorem Answers.healthWindowEnd : Answers.Statement (.healthWindowEnd) :=
  fun _ _ => ⟨_, rfl⟩
theorem Answers.errHiRead (r : Requester) : Answers.Statement (.errHiRead r) :=
  fun _ _ => ⟨_, rfl⟩
theorem Answers.errLoRead (r : Requester) : Answers.Statement (.errLoRead r) :=
  fun _ _ => ⟨_, rfl⟩
theorem Answers.mirWrite (r : Requester) (index : Nat) : Answers.Statement (.mirWrite r index) :=
  fun h s => ⟨_, guarded_true s _ _ h⟩
theorem Answers.mirReadBack (r : Requester) (index : Nat) : Answers.Statement (.mirReadBack r index) :=
  fun h s => ⟨_, guarded_true s _ _ h⟩
theorem Answers.mirrorCopyComplete (index : Fin 64) (ok : Bool) : Answers.Statement (.mirrorCopyComplete index ok) :=
  fun _ _ => ⟨_, rfl⟩
theorem Answers.recoveryBegin : Answers.Statement (.recoveryBegin) :=
  fun _ _ => ⟨_, rfl⟩
theorem Answers.pull : Answers.Statement (.pull) :=
  fun _ _ => ⟨_, rfl⟩
theorem Answers.pullSealed : Answers.Statement (.pullSealed) :=
  fun _ _ => ⟨_, rfl⟩
theorem Answers.loadCheckpoint : Answers.Statement (.loadCheckpoint) :=
  fun _ _ => ⟨_, rfl⟩
theorem Answers.recoveryEnable : Answers.Statement (.recoveryEnable) :=
  fun _ _ => ⟨_, rfl⟩
theorem Answers.recoveryEnd : Answers.Statement (.recoveryEnd) :=
  fun _ _ => ⟨_, rfl⟩
theorem Answers.recoveryStepComplete (outcome : RcvOutcome) : Answers.Statement (.recoveryStepComplete outcome) :=
  fun _ _ => ⟨_, rfl⟩
theorem Answers.recoveryAbort (r : Requester) : Answers.Statement (.recoveryAbort r) :=
  fun _ _ => ⟨_, rfl⟩
theorem Answers.pwrokRise (cardId : BitVec 4) (failed : List SheetAt) : Answers.Statement (.pwrokRise cardId failed) :=
  fun _ _ => ⟨_, rfl⟩
theorem Answers.pwrokFall : Answers.Statement (.pwrokFall) :=
  fun _ _ => ⟨_, rfl⟩
theorem Answers.resetNAssert : Answers.Statement (.resetNAssert) :=
  fun _ _ => ⟨_, rfl⟩
theorem Answers.resetNRelease : Answers.Statement (.resetNRelease) :=
  fun _ _ => ⟨_, rfl⟩
theorem Answers.perstNAssert : Answers.Statement (.perstNAssert) :=
  fun _ _ => ⟨_, rfl⟩
theorem Answers.furnishVerify (a b : FurnishCopy) (readError : Bool) (inc : IncarnationOutcome) : Answers.Statement (.furnishVerify a b readError inc) :=
  fun h s => ⟨_, guarded_true s _ _ h⟩
theorem Answers.recordsApply (recs : List FurnishRecord) : Answers.Statement (.recordsApply recs) :=
  fun h s => ⟨_, guarded_true s _ _ h⟩
theorem Answers.hbmTrained (cxl : List Nat) : Answers.Statement (.hbmTrained cxl) :=
  fun h s => ⟨_, guarded_true s _ _ h⟩
theorem Answers.linksUp : Answers.Statement (.linksUp) :=
  fun _ _ => ⟨_, rfl⟩
theorem Answers.furnishCellAdmit : Answers.Statement (.furnishCellAdmit) :=
  fun _ _ => ⟨_, rfl⟩
theorem Answers.startSlow : Answers.Statement (.startSlow) :=
  fun _ _ => ⟨_, rfl⟩
theorem Answers.flashErase (r : Requester) : Answers.Statement (.flashErase r) :=
  fun _ _ => ⟨_, rfl⟩
theorem Answers.flashProgram (r : Requester) : Answers.Statement (.flashProgram r) :=
  fun _ _ => ⟨_, rfl⟩
theorem Answers.flashRead (r : Requester) : Answers.Statement (.flashRead r) :=
  fun _ _ => ⟨_, rfl⟩
theorem Answers.flashOpComplete (ok : Bool) : Answers.Statement (.flashOpComplete ok) :=
  fun _ _ => ⟨_, rfl⟩
theorem Answers.logFetch (r : Requester) (seq : W64) : Answers.Statement (.logFetch r seq) :=
  fun _ _ => ⟨_, rfl⟩
theorem Answers.monId : Answers.Statement (.monId) :=
  fun _ _ => ⟨_, rfl⟩
theorem Answers.monCaps : Answers.Statement (.monCaps) :=
  fun _ _ => ⟨_, rfl⟩
theorem Answers.monLinks : Answers.Statement (.monLinks) :=
  fun _ _ => ⟨_, rfl⟩
theorem Answers.monCells : Answers.Statement (.monCells) :=
  fun _ _ => ⟨_, rfl⟩
theorem Answers.monTenants : Answers.Statement (.monTenants) :=
  fun _ _ => ⟨_, rfl⟩
theorem Answers.monTemps : Answers.Statement (.monTemps) :=
  fun _ _ => ⟨_, rfl⟩
theorem Answers.monCounters (block : CounterBlock) : Answers.Statement (.monCounters block) :=
  fun _ _ => ⟨_, rfl⟩
theorem Answers.monLog (n : Nat) : Answers.Statement (.monLog n) :=
  fun h s => ⟨_, guarded_true s _ _ h⟩
theorem Answers.monSelftest : Answers.Statement (.monSelftest) :=
  fun _ _ => ⟨_, rfl⟩
theorem Answers.monBaud (rate : Nat) : Answers.Statement (.monBaud rate) :=
  fun h s => ⟨_, guarded_true s _ _ h⟩
theorem Answers.monUnlock : Answers.Statement (.monUnlock) :=
  fun _ _ => ⟨_, rfl⟩
theorem Answers.monUnlockResponse (resp : W32) : Answers.Statement (.monUnlockResponse resp) :=
  fun _ _ => ⟨_, rfl⟩
theorem Answers.monLock : Answers.Statement (.monLock) :=
  fun _ _ => ⟨_, rfl⟩
theorem Answers.monitorIdleLock : Answers.Statement (.monitorIdleLock) :=
  fun _ _ => ⟨_, rfl⟩
theorem Answers.monPeek (addr n : Nat) : Answers.Statement (.monPeek addr n) :=
  fun h s => ⟨_, guarded_true s _ _ h⟩
theorem Answers.monPoke (addr : Nat) (v : W32) : Answers.Statement (.monPoke addr v) :=
  fun h s => ⟨_, guarded_true s _ _ h⟩
theorem Answers.monFlash (op : Fin 4) (addr : W32) : Answers.Statement (.monFlash op addr) :=
  fun _ _ => ⟨_, rfl⟩
theorem Answers.counterCfgWrite (r : Requester) (unit : CounterUnit) (n : Nat) (v : W64) : Answers.Statement (.counterCfgWrite r unit n v) :=
  fun h s => ⟨_, guarded_true s _ _ h⟩
theorem Answers.counterValueWrite (r : Requester) (unit : CounterUnit) (n : Nat) (v : W64) : Answers.Statement (.counterValueWrite r unit n v) :=
  fun h s => ⟨_, guarded_true s _ _ h⟩
theorem Answers.counterOverflow (unit : CounterUnit) (n : Nat) (inc : Nat) (pc : W32) : Answers.Statement (.counterOverflow unit n inc pc) :=
  fun h s => ⟨_, guarded_true s _ _ h⟩
theorem Answers.cntFreeze (r : Requester) (freeze : Bool) : Answers.Statement (.cntFreeze r freeze) :=
  fun _ _ => ⟨_, rfl⟩
theorem Answers.irqMaskWrite (r : Requester) (target : IrqTarget) : Answers.Statement (.irqMaskWrite r target) :=
  fun _ _ => ⟨_, rfl⟩
theorem Answers.gpioOutWrite (r : Requester) (v : W32) : Answers.Statement (.gpioOutWrite r v) :=
  fun _ _ => ⟨_, rfl⟩
theorem Answers.throttleNAssert : Answers.Statement (.throttleNAssert) :=
  fun _ _ => ⟨_, rfl⟩
theorem Answers.throttleHoldExpiry : Answers.Statement (.throttleHoldExpiry) :=
  fun _ _ => ⟨_, rfl⟩
theorem Answers.powerMeasure (watts : Nat) : Answers.Statement (.powerMeasure watts) :=
  fun h s => ⟨_, guarded_true s _ _ h⟩
theorem Answers.junctionAlert (celsius : Nat) : Answers.Statement (.junctionAlert celsius) :=
  fun h s => ⟨_, guarded_true s _ _ h⟩
theorem Answers.coolingFault : Answers.Statement (.coolingFault) :=
  fun _ _ => ⟨_, rfl⟩
theorem Answers.thermtrip : Answers.Statement (.thermtrip) :=
  fun _ _ => ⟨_, rfl⟩
theorem Answers.avsNoAck (bus : AvsBus) : Answers.Statement (.avsNoAck bus) :=
  fun _ _ => ⟨_, rfl⟩
theorem Answers.smbusBlockRead : Answers.Statement (.smbusBlockRead) :=
  fun _ _ => ⟨_, rfl⟩
theorem Answers.smbusAlertResponse : Answers.Statement (.smbusAlertResponse) :=
  fun _ _ => ⟨_, rfl⟩
theorem Answers.fabricLinkDown (port : Fin 6) : Answers.Statement (.fabricLinkDown port) :=
  fun _ _ => ⟨_, rfl⟩
theorem Answers.perstNRelease : Answers.Statement (.perstNRelease) :=
  fun _ _ => ⟨_, rfl⟩
theorem Answers.throttleNRelease : Answers.Statement (.throttleNRelease) :=
  fun _ _ => ⟨_, rfl⟩
theorem Answers.radioPoolReloadComplete (ream : Fin 4) : Answers.Statement (.radioPoolReloadComplete ream) :=
  fun _ _ => ⟨_, rfl⟩
theorem Answers.memoryPatrolPass (target : PatrolTarget) (corrected : Nat) (poisoned : List Nat) : Answers.Statement (.memoryPatrolPass target corrected poisoned) :=
  fun _ _ => ⟨_, rfl⟩
theorem Answers.engineResultBlockWrite (sheet : SheetAt) (tag : Nat) : Answers.Statement (.engineResultBlockWrite sheet tag) :=
  fun _ _ => ⟨_, rfl⟩
theorem Answers.logFetchComplete : Answers.Statement (.logFetchComplete) :=
  fun _ _ => ⟨_, rfl⟩
theorem Answers.cellBoundaryStop (cell : Fin 1024) : Answers.Statement (.cellBoundaryStop cell) :=
  fun _ _ => ⟨_, rfl⟩
theorem Answers.borrowWinInUse (w : Fin 16) : Answers.Statement (.borrowWinInUse w) :=
  fun _ _ => ⟨_, rfl⟩
theorem Answers.stripEngineWatchdog (ream : Fin 4) (engine : Fin 36) : Answers.Statement (.stripEngineWatchdog ream engine) :=
  fun _ _ => ⟨_, rfl⟩

end Sys2Proof.Laws
end

