-- ==== Sys2Proof/Tests/Base.lean ====
section
/-! SUPPORT. Small states on which the tests and the witnesses of the statements stand. -/

namespace Sys2Proof.Tests

open Sys2Proof.Machine

/-- The part after reset with its stage put. -/
def atStage (n : Nat) : State := ⟨Chip.reset.setFld R.BOOT_STAT F.BOOT_STAT.STAGE n, []⟩

/-- The part in operation. -/
def live : State := atStage 5

/-- The part in operation after a change. -/
def liveWith (f : Chip → Chip) : State := live.withChip (f live.chip)

/-- THROTTLE_N low with its hold until t, at uptime u. -/
def throttled (t u : Nat) : State :=
  liveWith (fun c => { c with
    pins := { c.pins with throttleN := false }
    power := { c.power with pinThrottle := true, holdUntil := some t }
    time := { c.time with uptime := u } })

/-- A junction temperature, with MG_ALERT_N asserted. -/
def hot (n : Nat) : State :=
  liveWith (fun c => { c with pins := { c.pins with mgAlertN := false }, power := { c.power with junction := n } })

/-- The part without power. -/
def dark : State := liveWith (fun c => { c with pins := { c.pins with pwrok := false } })

/-- Radio time valid, at a stage. -/
def radioOn (n : Nat) : State :=
  (atStage n).withChip ((atStage n).chip.mark R.TM_STATE F.TM_STATE.RT_VALID)

/-- At stage 4 at an uptime. -/
def slow (u : Nat) : State := (atStage 4).withChip { (atStage 4).chip with time := { TimeSt.reset with uptime := u } }

/-- FLASH_ADDR holds an address. -/
def flashAt (a : Nat) : State := liveWith (fun c => c.setFld R.FLASH_ADDR F.FLASH_ADDR.ADDR a)

/-- A flash operation in progress. -/
def flashBusy (o : FlashOp) : State := liveWith (fun c => { c with flash := { c.flash with busy := some o } })

/-- An entry of the change log. -/
def entry (n : Nat) : LogEntry :=
  let e : LogEntry := ⟨0, n, 0, 1, 3, 0, false, 0, false, 1, 0⟩
  { e with crc := crc16 e.covered }

/-- A log whose ring holds entry 0, its next number, and a fetch. -/
def logged (next : Nat) (f : Option Nat) : State := liveWith (fun c => { c with log := ⟨[entry 0], [], next, [], f⟩ })

/-- The monitor unlocked, its last command at uptime 0. -/
def console (u : Nat) : State :=
  liveWith (fun c => { c with monitor := { c.monitor with unlocked := true }, time := { c.time with uptime := u } })

/-- An unlock key in OTP and a challenge outstanding. -/
def keyed (u : Nat) : State :=
  liveWith (fun c => { c with
    ident := { c.ident with unlockKey := some [1] }
    monitor := { c.monitor with challenge := some 9 }
    time := { c.time with uptime := u } })

/-- Every quire isolated. -/
def isolated : State :=
  liveWith (fun c => (List.range 32).foldl (fun (c : Chip) q => c.setFld (R.QUIRE_HEALTH q) F.QUIRE_HEALTH.STATE 1) c)

/-- The first sheet. -/
def sheet0 : SheetAt := ⟨0, 0, 0, false⟩

/-- Counter 0 of the chip enabled at a value. -/
def counting (v : Nat) : State :=
  liveWith (fun c => (c.setFld (cntCfg .chip 0) F.SC_CFG.ENABLE 1).setFld (cntCount .chip 0) F.SC_COUNT.VALUE v)

/-- The command makes the part this one. -/
def gives (i : Instr) (s : State) (c : Chip) : Bool :=
  match exec i s with
  | .next t => decide (t = { s with chip := c })
  | _ => false

/-- The part after a command. -/
def after (i : Instr) (s : State) : Chip :=
  match exec i s with
  | .next t => t.chip
  | _ => s.chip

/-- The register at an offset. -/
def hit (a : Nat) : RegHit := (regHit a).getD ⟨⟨.SCRATCH, 0, [], .plain32, 0, 0, 0, 0, false, .chip, []⟩, [], 0⟩

/-- The host holds this. -/
def hostHolds (f : ReqState → ReqState) : State := liveWith (·.setReq .host f)

/-- A command descriptor of one task. -/
def desc0 : Desc := ⟨1, 0, 1, 0, 1, 0, 1, 1, 0, 7, 0, 0, 0, 0, 0, 0, [], true⟩

/-- An accepted command. -/
def cmd0 : Command := ⟨3, 0, .sq 0 0 0 0, desc0, [], 0, true, [], 0, 0, false, false, 0, [], [], none, [], 0, none⟩

/-- Its task. -/
def task0 : Task := ⟨3, 0, 0, 0, 0, 1, 0⟩

/-- The first sheet runs the task. -/
def busy (f : Sheet → Sheet) : State :=
  liveWith (fun c => { c with commands := [cmd0] }.setSheet sheet0 (f { sheetReset 0 with task := some task0 }))

/-- Operands of an instruction. -/
def ops (d a b : Fin 32) : FxOps := ⟨d, a, b, false, 0⟩

/-- A ring of a kind of 64 entries of slot 0, by slice 2. -/
def ring64 (kind : Nat) : Ring := ⟨0, kind, 0, 2, 0, 6, 0, false, false, 4, 0, 0, true, [], false, false, 0, 0⟩

/-- Slot 0 is active and slice 2 reaches it; window 0 of the slot is a GiB of host memory that it may write. -/
def slotOn (f : Chip → Chip) : State :=
  liveWith (fun c => f ((((((c.mark (R.SLICE 2) F.SLICE.ENABLE).setFld (R.TEN_STAT 0) F.TEN_STAT.STATE 1).setFld (R.WIN0 0 0) F.WIN0.SIZE_GIB 1).setFld
    (R.WIN0 0 0) F.WIN0.TYPE 2).mark (R.WIN0 0 0) F.WIN0.WRITE)))

/-- A sheet holds what the command leaves on it, as a check. -/
def computes (i : Instr) (s : State) (at_ : SheetAt) (sh : Sheet) : Bool :=
  match exec i s with
  | .next t => decide (t.chip.sheet at_ = sh) && decide (t.chip = { s.chip with sheets := t.chip.sheets, regs := t.chip.regs, out := t.chip.out, nextIssue := t.chip.nextIssue })
  | _ => false

/-- Descriptor words: a head of zeros, and a body. -/
def bodyOf (ws : List W32) : List W32 := List.replicate 4 0 ++ ws ++ List.replicate (80 - ws.length) 0

/-- One page of 4 KiB at address 4096 of slot 0 is staged with READ and WRITE: 0 before it is mapped, 1 mapped, 2 an UNMAP of it waits, 3 behind a command for 10 ms. -/
def mapping (k : Nat) : State :=
  let v0 : W64 := 4096
  let v1 : W64 := BitVec.ofNat 64 (7 * 2 ^ 35 + 3 * 2 ^ 32)
  slotOn (fun c =>
    let c := ((((c.setReg (R.MAP_STAGE 0) v0).setReg (R.MAP_STAGE 1) v1).setReg (R.MAP_STAGE 2) (~~~ v0)).setReg (R.MAP_STAGE 3) (~~~ v1)).setFld (R.DCK_QUOTA 0) F.DCK_QUOTA.T2_GIB 1
    let c := (((c.setFld (R.WIN0 0 0) F.WIN0.TYPE 1).mark (R.WIN0 0 0) F.WIN0.READ))
    let c : Chip := { c with pages := if k = 0 then [] else [(4096, ⟨0, true, true, false, false, false, false, 7, .t2 0, 0, 0⟩)] }
    if k < 2 then c
    else { (c.mark R.MAP_STAT F.MAP_STAT.BUSY) with
      mapRun := some ⟨2, 0, 4096, 0, 1, v1, 1, 0, none⟩
      time := { c.time with uptime := 10000000 }
      commands := if k = 3 then [{ cmd0 with tensors := [⟨0, 8192, 0, false⟩] }] else [] })

end Sys2Proof.Tests
end

