-- ==== Sys2Proof/Tests/Slice0.lean ====
section
/-! SUPPORT. Tests: ill-formed terms that the check refuses, worked examples of the manual, and for each statement a state and operands
that meet its hypotheses. -/

namespace Sys2Proof.Tests

-- one theorem at a time: the checks of many at once take more threads than the limit of check.sh allows
set_option Elab.async false

open Sys2Proof Sys2Proof.Machine Sys2Proof.Laws

/-! ### Ill-formed terms: each is refused by the check and stops by name -/

/-- The command stops as ill-formed on the part in operation. -/
def stops (i : Instr) : Bool :=
  match exec i live with
  | .fault .illFormed => true
  | _ => false

/-- The check refuses the term and the machine stops on it. -/
abbrev Refused (i : Instr) : Prop := i.wf = false ∧ stops i = true

theorem test_ill_formed_register_write : Refused (.registerWrite .host addressSpan true 0) := by decide +kernel
theorem test_ill_formed_value_word_write : Refused (.valueWordWrite .host addressSpan 0) := by decide +kernel
theorem test_ill_formed_complement_word_write : Refused (.complementWordWrite .host addressSpan 0) := by decide +kernel
theorem test_ill_formed_low_half_read : Refused (.lowHalfRead .host addressSpan) := by decide +kernel
theorem test_ill_formed_high_half_read : Refused (.highHalfRead .host addressSpan) := by decide +kernel
theorem test_ill_formed_low_half_write : Refused (.lowHalfWrite .host addressSpan 0) := by decide +kernel
theorem test_ill_formed_high_half_write : Refused (.highHalfWrite .host addressSpan 0) := by decide +kernel
theorem test_ill_formed_unsupported_request : Refused (.unsupportedRequest .host addressSpan 3) := by decide +kernel
theorem test_ill_formed_unassigned_access : Refused (.unassignedAccess .host addressSpan false) := by decide +kernel
theorem test_ill_formed_dl_tti_request : Refused (.dlTtiRequest 0 true 0 65536 []) := by decide +kernel
theorem test_ill_formed_ul_tti_request : Refused (.ulTtiRequest 0 true 0 65536 []) := by decide +kernel
theorem test_ill_formed_ul_dci_request : Refused (.ulDciRequest 0 true 0 65536 0) := by decide +kernel
theorem test_ill_formed_tx_data_request : Refused (.txDataRequest 0 true 0 65536 []) := by decide +kernel
theorem test_ill_formed_mirror_record_receive : Refused (.mirrorRecordReceive 0 0 0 65536 []) := by decide +kernel
theorem test_ill_formed_page_migration_complete : Refused (.pageMigrationComplete 0 (2 ^ 57) true) := by decide +kernel
theorem test_ill_formed_recall_receive : Refused (.recallReceive 0 (2 ^ 64)) := by decide +kernel
theorem test_ill_formed_link_retrain_complete_chip : Refused (.linkRetrainComplete 0 65536 0 false) := by decide +kernel
theorem test_ill_formed_link_retrain_complete_port : Refused (.linkRetrainComplete 0 0 16 false) := by decide +kernel
theorem test_ill_formed_mir_write : Refused (.mirWrite .host 64) := by decide +kernel
theorem test_ill_formed_mir_read_back : Refused (.mirReadBack .host 64) := by decide +kernel
theorem test_ill_formed_furnish_verify : Refused (.furnishVerify ⟨true, true, true, 2 ^ 32, 1, true, true, true, true⟩ ⟨true, true, true, 1, 1, true, true, true, true⟩ false .ok) := by decide +kernel
theorem test_ill_formed_furnish_verify_minimum : Refused (.furnishVerify ⟨true, true, true, 1, 1, true, true, true, true⟩ ⟨true, true, true, 1, 2 ^ 32, true, true, true, true⟩ false .ok) := by decide +kernel
theorem test_ill_formed_records_apply_register : Refused (.recordsApply [⟨.reg (2 ^ 32) [], true⟩]) := by decide +kernel
theorem test_ill_formed_records_apply_words : Refused (.recordsApply [⟨.reg 0 (List.replicate 512 0), true⟩]) := by decide +kernel
theorem test_ill_formed_hbm_trained_devices : Refused (.hbmTrained [1, 1, 1]) := by decide +kernel
theorem test_ill_formed_hbm_trained_size : Refused (.hbmTrained [4096, 1]) := by decide +kernel
theorem test_ill_formed_mon_log : Refused (.monLog (2 ^ 32)) := by decide +kernel
theorem test_ill_formed_mon_baud : Refused (.monBaud (2 ^ 32)) := by decide +kernel
theorem test_ill_formed_mon_peek_address : Refused (.monPeek (2 ^ 32) 1) := by decide +kernel
theorem test_ill_formed_mon_peek_count : Refused (.monPeek 0 (2 ^ 32)) := by decide +kernel
theorem test_ill_formed_mon_poke : Refused (.monPoke (2 ^ 32) 0) := by decide +kernel
theorem test_ill_formed_counter_cfg_write : Refused (.counterCfgWrite .host (.sheet sheet0) 8 0) := by decide +kernel
theorem test_ill_formed_counter_value_write : Refused (.counterValueWrite .host .chip 64 0) := by decide +kernel
theorem test_ill_formed_counter_overflow_number : Refused (.counterOverflow (.ream 0) 32 1 0) := by decide +kernel
theorem test_ill_formed_counter_overflow_increment : Refused (.counterOverflow .chip 0 65536 0) := by decide +kernel
theorem test_ill_formed_power_measure : Refused (.powerMeasure 4096) := by decide +kernel
theorem test_ill_formed_junction_alert : Refused (.junctionAlert 151) := by decide +kernel

/-! ### Worked examples of the manual -/

/-- 02_radio_time.md, "radio time at one chip-time instant": 1,700,000,019.123456789 s is frame 524, tick 424,770, at mu = 1 slot 6,
symbol 12, tick 3,458. -/
theorem test_radio_time_at_an_instant :
    let t := ticksAt (1700000019123456789 * 65536) 0
    frameOf t = 524 ∧ tickInFrame t = 424770 ∧ rtView 1 (tickInFrame t) = (6, 12, 3458) := by decide

/-- 12_tenants.md, "bitmap size and bit positions": a write of WIN3 at 0x1234_5678 sets bit 4,198,964 of the device bitmap; pages 3 to 5 of
WIN2 are bits 524,291 to 524,293 of the host bitmap. -/
theorem test_bitmap_positions :
    let g := 2 ^ 30
    let w := fun (k n t : Nat) => (⟨k * g, n * g, t, true, true, 0, 0⟩ : Win)
    let ws := [w 0 2 2, w 2 256 1, w 258 1 2, w 259 64 1]
    dirtyIndex ws 1 65536 (259 * g + 0x12345678) = some 4198964 ∧
    (dirtyIndex ws 2 4096 (258 * g + 12288), dirtyIndex ws 2 4096 (258 * g + 21887)) = (some 524291, some 524293) := by decide

/-- 17_register_map.md, "locating a sheet counter from a logical sheet": counter 3 of sheet 2.5.18. -/
theorem test_sheet_counter_address :
    (cntCount (.sheet ⟨2, 5, 18, false⟩) 3).addr = 0x03552130 ∧ (cntCfg (.sheet ⟨2, 5, 18, false⟩) 3).addr = 0x03552138 := by decide

/-- 14_fault_recovery.md, "a bad window": 394 points on 820 leave 500 and a debt of 74; the next window ends the debt at 426, probation. -/
theorem test_a_bad_window :
    let h : Health := ({ Health.reset with score := 820, floor := windowFloor 820 }).take 394
    let n : Health := ({ h with floor := windowFloor h.score, debt := 0 }).take h.debt
    (h.score, h.debt) = (500, 74) ∧ (n.score, n.debt, healthState n.score) = (426, 0, 2) := by decide

/-- 13_fabric.md, "a message meeting a full queue": 10, 20, ... 640 microseconds, then 1,000, under the defaults. -/
theorem test_backoff : [1, 2, 3, 4, 5, 6, 7, 8, 16].map live.chip.backoff = [10, 20, 40, 80, 160, 320, 640, 1000, 1000] := by decide

/-- CRC-32C of "123456789", the check value published with the polynomial. -/
theorem test_crc32c : (crc32c [0x31, 0x32, 0x33, 0x34, 0x35, 0x36, 0x37, 0x38, 0x39]).toNat = 0xE3069283 := by decide +kernel

/-- CRC-16/CCITT-FALSE of "123456789", its published check value. -/
theorem test_crc16 : (crc16 [0x31, 0x32, 0x33, 0x34, 0x35, 0x36, 0x37, 0x38, 0x39]).toNat = 0x29B1 := by decide +kernel

/-! ### Witnesses of the statements -/

theorem witness_ThrottlingHeatAndManagementBus_throttle :
    (throttled 5 0).chip.pins.throttleN = false ∧ (throttled 5 5).chip.running = true ∧ (throttled 5 5).chip.power.holdUntil = some 5 ∧
    5 ≤ (throttled 5 5).chip.time.uptime ∧ (throttled 5 4).chip.power.holdUntil = some 5 ∧ (throttled 5 4).chip.time.uptime < 5 ∧
    live.chip.running = true ∧ 2001 ≤ 4095 := by decide
theorem witness_ThrottlingHeatAndManagementBus :
    live.chip.running = true ∧ 95 ≤ 150 ∧ (hot 105).chip.running = true ∧ 105 ≤ (hot 105).chip.power.junction ∧ (hot 105).chip.power.cooling = false ∧
    (hot 115).chip.running = true ∧ 115 ≤ (hot 115).chip.power.junction ∧ live.chip.stage ≠ 0 ∧ live.chip.power.clockLimited.contains 1 = false ∧
    live.chip.power.avsFail.contains 1 = false ∧ (hot 20).chip.running = true ∧ (hot 20).chip.pins.mgAlertN = false := by decide

theorem witness_ResetInputsActAsTheTableStates :
    dark.chip.pins.pwrok = false ∧ live.chip.pins.pwrok = true ∧ (liveWith (fun c => { c with pins := { c.pins with resetN := false } })).chip.pins.resetN = false ∧
    live.chip.pins.perstN = true ∧ (∀ r ∈ live.chip.rings, live.chip.ringInHost r = false) := by decide

theorem witness_StartUpStagesAdvance :
    let bad : FurnishCopy := ⟨false, true, true, 3, 0, true, true, true, true⟩
    let good : FurnishCopy := ⟨true, true, true, 3, 0, true, true, true, true⟩
    State.reset.chip.running = true ∧ State.reset.chip.stage = 0 ∧ copyOk bad = true ∧ copyOk good = true ∧ FurnishCopy.valid bad 0 = false ∧
    FurnishCopy.valid good 0 = true ∧ bad.version ≤ good.version ∧ (atStage 1).chip.running = true ∧ (atStage 1).chip.stage = 1 ∧
    [(⟨.unknown 0x8000, true⟩ : FurnishRecord)].all recordOk = true ∧ live.chip.stage ≠ 1 ∧ (atStage 2).chip.stage = 2 ∧ [64, 64].sum ≤ 4096 ∧
    (atStage 3).chip.stage = 3 ∧ live.chip.stage ≠ 3 ∧ (radioOn 4).chip.running = true ∧ (radioOn 4).chip.stage = 4 ∧ (radioOn 4).chip.rtValid = true ∧
    (radioOn 4).chip.furnishCells = [] ∧ (atStage 4).chip.rtValid = false ∧ (slow 120000000000).chip.running = true ∧ 1 ≤ (slow 120000000000).chip.stage ∧
    (slow 120000000000).chip.stage ≤ 4 ∧ (slow 120000000000).chip.rtValid = false ∧
    (slow 120000000000).chip.time.started + 120000000000 ≤ (slow 120000000000).chip.time.uptime := by decide

theorem witness_FlashOperationsRunUnderTheirChecks :
    live.chip.running = true ∧ live.chip.stage ≠ 0 ∧ live.chip.reaches .host = true ∧ mayReachBar0 .host = true ∧
    (live.chip.supersede .host).early .host = false ∧ live.chip.flash.busy = none ∧
    (flashAt 0x2000000).chip.fld R.FLASH_ADDR F.FLASH_ADDR.ADDR % 65536 = 0 ∧ (flashAt 0x2000000).chip.fld R.FLASH_ADDR F.FLASH_ADDR.ADDR % 256 = 0 ∧
    ((flashAt 0x2000000).chip.supersede .host).flashBarred ((flashAt 0x2000000).chip.fld R.FLASH_ADDR F.FLASH_ADDR.ADDR) 65536 = false ∧
    ((flashAt 0x2000000).chip.supersede .host).flashBarred ((flashAt 0x2000000).chip.fld R.FLASH_ADDR F.FLASH_ADDR.ADDR) 256 = false ∧
    (flashAt 0x2000000).chip.flash.busy = none ∧ ((flashAt 0x2000000).chip.supersede .host).early .host = false ∧
    (flashAt 0x2000100).chip.fld R.FLASH_ADDR F.FLASH_ADDR.ADDR % 65536 ≠ 0 ∧
    ((flashAt 0x1FF0000).chip.supersede .host).flashBarred ((flashAt 0x1FF0000).chip.fld R.FLASH_ADDR F.FLASH_ADDR.ADDR) 65536 = true ∧
    (flashAt 0x1FF0000).chip.fld R.FLASH_ADDR F.FLASH_ADDR.ADDR % 65536 = 0 ∧
    (flashBusy ⟨1, 65536, []⟩).chip.flash.busy = some ⟨1, 65536, []⟩ ∧ (flashBusy ⟨2, 256, [1]⟩).chip.flash.busy = some ⟨2, 256, [1]⟩ ∧
    (flashBusy ⟨1, 65536, []⟩).chip.running = true := by decide

theorem witness_ChangeLogFetchAndSpill :
    (logged 1 (some 7)).chip.running = true ∧ (logged 1 (some 7)).chip.log.ring.length = 1 ∧ live.chip.live = true ∧ live.chip.reaches .host = true ∧
    mayReachBar0 .host = true ∧ (logged 1 (some 7)).chip.live = true ∧ (logged 1 (some 7)).chip.log.fetching = some 7 ∧ (logged 1 (some 7)).chip.log.next ≤ 7 ∧
    (logged 2 (some 1)).chip.log.fetching = some 1 ∧ 1 < (logged 2 (some 1)).chip.log.next ∧ (logged 2 (some 1)).chip.logFind 1 = none ∧
    (logged 1 (some 0)).chip.log.fetching = some 0 ∧ 0 < (logged 1 (some 0)).chip.log.next := by decide
theorem witness_ChangeLogFetchAndSpill_entry :
    (logged 1 (some 7)).chip.log.ring = [entry 0] ∧ (logged 1 (some 0)).chip.logFind 0 = some (entry 0) ∧ (logged 1 (some 0)).chip.logDamaged (entry 0) = false :=
  ⟨rfl, (by unfold Chip.logFind; rw [if_neg (by decide)]; rfl), by simp [Chip.logDamaged, logged, liveWith, State.withChip, entry, LogEntry.covered, LogEntry.tag]⟩

theorem witness_MonitorPrintsAndControls :
    live.chip.running = true ∧ live.chip.inRecovery = false ∧ 1 ≤ 1024 ∧ 1024 < 1025 ∧ 115200 ∈ baudRates ∧ 9600 ∉ baudRates ∧
    (console 900000000000).chip.running = true ∧ (console 900000000000).chip.monitor.unlocked = true ∧
    (console 900000000000).chip.monitor.lastCommand + 900000000000 ≤ (console 900000000000).chip.time.uptime ∧
    (console 899999999999).chip.time.uptime < (console 899999999999).chip.monitor.lastCommand + 900000000000 := by decide
theorem witness_MonitorPrintsAndControls_busy : (∀ q < 32, isolated.chip.quireIdle q = false) := by
  set_option maxRecDepth 100000 in decide

theorem witness_MonitorUnlocksAndReachesRegisters :
    (keyed 5).chip.running = true ∧ (keyed 5).chip.unlockRefused = false ∧ live.chip.unlockRefused = true ∧ live.chip.running = true ∧
    (keyed 5).chip.ident.unlockKey = some [1] ∧ (keyed 5).chip.monitor.challenge = some 9 ∧ (console 5).chip.running = true ∧
    (console 5).chip.inRecovery = false ∧ (console 5).chip.monitor.unlocked = true ∧ (console 5).chip.monitorIdle = false ∧
    1 ≤ 64 ∧ 0xFFFFF00 % 4 = 0 ∧ 0xFFFFF00 + 4 * 64 ≤ 0x10000000 ∧ 0xFFFFFFC < 0x10000000 ∧ (3 : Fin 4).val ≠ 0 ∧
    live.chip.inRecovery = false ∧ live.chip.monitor.unlocked = false := by decide
theorem witness_MonitorUnlocksAndReachesRegisters_answers (c : Chip) (k : List Byte) (x : W32) : ∃ r r' : W32, r = c.unlockAnswer k x ∧ r' ≠ c.unlockAnswer k x :=
  ⟨_, ~~~ c.unlockAnswer k x, rfl, fun h => by have := congrArg (·.getLsbD 0) h; simp at this⟩

theorem witness_CountersConfigureCountAndStop :
    live.chip.live = true ∧ live.chip.reaches .host = true ∧ mayReachBar0 .host = true ∧ 63 < counters .chip ∧ 7 < counters (.sheet sheet0) ∧
    cntCfgOk .chip 0 0x01010000 = true ∧ cntCfgOk .chip 0 0x0F010000 = false ∧ live.chip.flag (cntCfg .chip 0) F.SC_CFG.ENABLE = false ∧
    (counting 0).chip.flag (cntCfg .chip 0) F.SC_CFG.ENABLE = true ∧ (counting 0).chip.live = true ∧
    2 ^ 48 ≤ (counting (2 ^ 48 - 1)).chip.fld (cntCount .chip 0) F.SC_COUNT.VALUE + 1 ∧ (counting (2 ^ 48 - 1)).chip.fld (cntCfg .chip 0) F.SC_CFG.ENABLE = 1 ∧
    (counting (2 ^ 48 - 1)).chip.fld (cntCfg .chip 0) F.SC_CFG.STOPPED = 0 ∧ (counting (2 ^ 48 - 1)).chip.flag R.CNT_CTL F.CNT_CTL.FREEZE = false ∧
    (counting (2 ^ 48 - 1)).chip.fld (cntCfg .chip 1) F.SC_CFG.CHAIN_IN = 0 ∧ (counting (2 ^ 48 - 1)).chip.live = true := by decide

theorem witness_AccessesReachRegistersByHalves :
    live.chip.running = true ∧ live.chip.reaches .host = true ∧ 0x80008 < addressSpan ∧ accessOk 0x80008 3 = false ∧
    accessPath .host 0x80008 = some .host ∧ accessPath .host 0x30 = some .host ∧ live.chip.place 0x30 = .unassigned := by decide
/-- A pair's value word: its two halves, with and without a latched one. -/
theorem witness_AccessesReachRegistersByHalves_pair :
    live.chip.place 0x80008 = .word (hit 0x80008) 0x80008 8 ∧ (hit 0x80008).pairWord 0x80008 = some ⟨0x80008, false, 0, false⟩ ∧
    live.chip.place 0x8000C = .word (hit 0x8000C) 0x80008 8 ∧ (hit 0x8000C).pairWord 0x80008 = some ⟨0x80008, false, 0, false⟩ ∧
    accessPath .host 0x8000C = some .host ∧ (live.chip.getReq .host).highLatch = none ∧
    (hostHolds (fun q => { q with highLatch := some (0x80008, 7) })).chip.place 0x8000C = .word (hit 0x8000C) 0x80008 8 ∧
    ((hostHolds (fun q => { q with highLatch := some (0x80008, 7) })).chip.getReq .host).highLatch = some (0x80008, 7) := by decide
/-- A staging register, and a low half held for it. -/
theorem witness_AccessesReachRegistersByHalves_stage :
    live.chip.place 0x500100 = .word (hit 0x500100) 0x500100 8 ∧ (hit 0x500100).desc.id = .MAP_STAGE ∧ (hit 0x500100).desc.logged = false ∧
    (hit 0x500100).pairWord 0x500100 = none ∧ live.chip.early (hostPath .host) = false ∧ (live.chip.supersede .host).early (hostPath .host) = false ∧
    (hostHolds (fun q => { q with lowHalf := some (0x500100, 7) })).chip.place 0x500104 = .word (hit 0x500104) 0x500100 8 ∧
    (hit 0x500104).desc.id = .MAP_STAGE ∧ (hit 0x500104).desc.logged = false ∧ (hit 0x500104).pairWord 0x500100 = none ∧
    ((hostHolds (fun q => { q with lowHalf := some (0x500100, 7) })).chip.getReq .host).lowHalf = some (0x500100, 7) := by decide

theorem witness_ComplementedPairsTakeMatchingWords :
    live.chip.running = true ∧ live.chip.reaches .host = true ∧ 0x80010 < addressSpan ∧ accessPath .host 0x80008 = some .host ∧
    accessPath .host 0x80010 = some .host ∧ live.chip.place 0x80008 = .word (hit 0x80008) 0x80008 8 ∧
    (hit 0x80008).pairWord 0x80008 = some ⟨0x80008, false, 0, false⟩ ∧ live.chip.place 0x80010 = .word (hit 0x80010) 0x80010 8 ∧
    (hit 0x80010).pairWord 0x80010 = some ⟨0x80008, false, 0, true⟩ ∧ live.chip.early (hostPath .host) = false ∧
    (live.chip.getReq .host).lowHalf = none ∧ (live.chip.getReq .host).highLatch = none ∧ (hit 0x80010).desc.id = .RADIO_CFG ∧
    (hit 0x80010).desc.logged = true ∧ (hit 0x80010).desc.fits (live.chip.heldWord .host (hit 0x80010) ⟨0x80008, false, 0, true⟩ 0) = true := by decide

/-- Entry k waits with its mask bit set and IRQ_EN on. -/
def waitingIrq (k : Nat) : State :=
  liveWith (fun c => ((c.setReg R.GLB_IRQ_STAT (BitVec.ofNat 64 (2 ^ k))).setFld R.GLB_IRQ_MASK ⟨k, 1⟩ 1).mark R.GLB_CTL F.GLB_CTL.IRQ_EN
    |>.setFlag (R.MSIX_CTRL k) F.MSIX_CTRL.MASK false)
theorem witness_InterruptMaskAndOutputPins :
    live.chip.live = true ∧ live.chip.reaches .host = true ∧ mayReachBar0 .host = true ∧ live.chip.reg R.GLB_IRQ_STAT = 0 ∧
    (waitingIrq 9).chip.live = true ∧ (waitingIrq 9).chip.reg R.GLB_IRQ_STAT = BitVec.ofNat 64 (2 ^ 9) ∧
    (waitingIrq 9).chip.flag R.GLB_IRQ_MASK ⟨9, 1⟩ = true ∧ (0 : W32).getLsbD 9 = false ∧ (waitingIrq 9).chip.flag R.GLB_CTL F.GLB_CTL.IRQ_EN = true ∧
    (waitingIrq 9).chip.flag (R.MSIX_CTRL 9) F.MSIX_CTRL.MASK = false ∧ live.chip.early .host = false ∧
    live.chip.reaches (.slice 3) = true ∧ mayReachBar0 (.slice 3) = false := by decide
theorem check_irq : gives (.irqMaskWrite .host (.mask 0)) (waitingIrq 9)
    { ((waitingIrq 9).chip.supersede .host).setReg R.GLB_IRQ_MASK 0 with out := .msix 9 :: (waitingIrq 9).chip.out } = true := by decide

/-- The host has latched the head of a ring of one error. -/
def oneError : State := (hostHolds (fun q => { q with popLatch := [(R.ERR_HI.addr, 2)] })).withChip
  { (hostHolds (fun q => { q with popLatch := [(R.ERR_HI.addr, 2)] })).chip with errRing := [⟨1, 2⟩] }
/-- At the end of a health window. -/
def windowEnds (score debt : Nat) : State :=
  liveWith (fun c => { c with health := { c.health with score := score, debt := debt }, time := { c.time with uptime := 600 * 10 ^ 9 } })
theorem witness_ErrorAndMissRingsHealthWindowAndPatrol :
    oneError.chip.live = true ∧ oneError.chip.reaches .host = true ∧ mayReachBar0 .host = true ∧ oneError.chip.errRing = [⟨1, 2⟩] ∧
    tabGet (oneError.chip.getReq .host).popLatch R.ERR_HI.addr = some 2 ∧ live.chip.live = true ∧
    live.chip.time.uptime < live.chip.health.windowStart + tenMinutes ∧ (windowEnds 900 0).chip.live = true ∧
    (windowEnds 900 0).chip.health.windowStart + tenMinutes ≤ (windowEnds 900 0).chip.time.uptime ∧
    (windowEnds 900 450).chip.health.windowStart + tenMinutes ≤ (windowEnds 900 450).chip.time.uptime := by decide
/-- One miss in the ring, its head latched by the host. -/
def missed : State :=
  liveWith (fun c => (c.slotMiss 5 7 700 3 0).setReq .host (fun q => { q with popLatch := [(R.MISS_HI.addr, 9)] }))
theorem witness_ErrorAndMissRingsHealthWindowAndPatrol_misses : missed.chip.live = true ∧ missed.chip.reaches .host = true ∧ mayReachBar0 .host = true ∧
    missed.chip.missRing.length = 1 ∧ live.chip.missRing.length < 64 ∧ live.chip.missRing = [] ∧
    tabGet (missed.chip.getReq .host).popLatch R.MISS_HI.addr = some 9 ∧ live.chip.missCause 0 0 = 2 ∧ (radioOn 5).chip.missCause 0 0 = 0 := by
  decide +kernel

/-- A value is marked broken. -/
def broken (o : CompObject) (t : Nat) : State :=
  liveWith (fun c => { c with damaged := [o], mismatches := [(o, 0)], time := { c.time with uptime := t } })
theorem witness_StoredValuesFoundBrokenAreReportedAndRewritten :
    live.chip.live = true ∧ CompObject.carried .radioCfg = true ∧ CompObject.carried (.register 0x10) = false ∧
    live.chip.mismatches.any (fun x => x.1 == .radioCfg && decide (live.chip.time.uptime ≤ x.2 + tenMinutes)) = false ∧
    (broken .radioCfg 5).chip.mismatches.any (fun x => x.1 == .radioCfg && decide ((broken .radioCfg 5).chip.time.uptime ≤ x.2 + tenMinutes)) = true ∧
    (broken .radioCfg 5).chip.live = true ∧ (broken .radioCfg 5).chip.damaged.contains .radioCfg = true ∧ live.chip.mismatches = [] := by decide

theorem witness_SheetsFailScrubTestAndReturn :
    (busy id).chip.live = true ∧ ((busy id).chip.sheetK 0).role = .active ∧ ((busy id).chip.sheetK 0).errorUptime = none ∧
    ((busy (fun sh => { sh with role := .scrubbing })).chip.sheetK 0).role = .scrubbing ∧ 0 ∉ (busy id).chip.selfTests ∧
    ((busy id).chip.sheetK 0).patrolWord < 24575 ∧ ((busy (fun sh => { sh with patrolWord := 24575 })).chip.sheetK 0).patrolWord = 24575 ∧
    (busy id).chip.reaches .host = true ∧ (busy id).chip.early .host = false ∧ ((busy id).chip.sheetK 0).task ≠ none ∧
    (liveWith (fun c => c.mark (sheetCtl 0) F.SHEET_CTL.RETIRE)).chip.flag (sheetCtl 0) F.SHEET_CTL.RETIRE = true ∧
    (live.chip.sheetK 0).task = none ∧ (live.chip.sheetK 1).task = none ∧ (live.chip.sheetK 0).killing = false ∧
    keyPrimary (sheetKey sheet0) = 0 := by decide

/-- Quire 1 in a state, isolated at uptime 0, half an hour ago. -/
def quireIn (st : Nat) : State :=
  liveWith (fun c => { c.setFld (R.QUIRE_HEALTH 1) F.QUIRE_HEALTH.STATE st with
    quires := [(1, { quireReset with isolations := [0] })], time := { c.time with uptime := 1800 * 10 ^ 9 } })
theorem witness_QuiresIsolateTestSleepAndWake :
    live.chip.live = true ∧ live.chip.fld (R.QUIRE_HEALTH 1) F.QUIRE_HEALTH.STATE ≠ 1 ∧ (quireIn 1).chip.live = true ∧
    (quireIn 1).chip.fld (R.QUIRE_HEALTH 1) F.QUIRE_HEALTH.STATE = 1 ∧ ((quireIn 1).chip.quire 1).isolatedForGood = false ∧
    ((quireIn 1).chip.quire 1).isolations = [0] ∧ 0 + 600 * 10 ^ 9 ≤ (quireIn 1).chip.time.uptime ∧
    (quireIn 3).chip.fld (R.QUIRE_HEALTH 1) F.QUIRE_HEALTH.STATE = 3 ∧ (quireIn 2).chip.fld (R.QUIRE_HEALTH 1) F.QUIRE_HEALTH.STATE = 2 ∧
    live.chip.quireUp 1 = true ∧ (busy id).chip.quireHeld 0 = true ∧ quireIx 0 1 = 1 := by decide
theorem witness_QuiresIsolateTestSleepAndWake_sheets : 48 ≤ (quireIn 1).chip.activeSheets 1 := by decide +kernel
theorem witness_QuiresIsolateTestSleepAndWake_uncovered : live.chip.reamCovered 0 = false ∧ live.chip.quireHeld 1 = false := by decide +kernel

/-- The staging words hold an entry of a length in 2 MiB units. -/
def staged (units : Nat) : State :=
  liveWith (fun c => ((((c.setFld (R.WIN0 0 0) F.WIN0.SIZE_GIB 1).setFld (R.WIN0 0 0) F.WIN0.TYPE 1).setReg (R.MIR_STAGE 0) (fput (fput 0 ⟨18, 16⟩ units) ⟨34, 1⟩ 1)).setReg
    (R.MIR_STAGE 2) (~~~ (fput (fput 0 ⟨18, 16⟩ units) ⟨34, 1⟩ 1))).setReg (R.MIR_STAGE 3) (~~~ 0))
/-- Entry 3 copies step 4; a sealed one has a stamp outstanding. -/
def mirrored (sealed_ : Bool) : State :=
  liveWith (fun c => { c with mirrors := [(3, ⟨0, fput 1 ⟨35, 1⟩ (if sealed_ then 1 else 0), 0, none, [], [], [], some 4, none, [(0, 2)], false⟩)] })
theorem witness_MirrorEntriesAreWrittenReadAndCopied :
    (staged 4).chip.live = true ∧ (staged 4).chip.reaches .host = true ∧ (staged 4).chip.early .host = false ∧ mayReachBar0 .host = true ∧
    (staged 4).chip.reg (R.MIR_STAGE 2) = ~~~ ((staged 4).chip.reg (R.MIR_STAGE 0)) ∧
    (staged 4).chip.reg (R.MIR_STAGE 3) = ~~~ ((staged 4).chip.reg (R.MIR_STAGE 1)) ∧ (3 : Nat) < 64 ∧
    live.chip.reg (R.MIR_STAGE 2) ≠ ~~~ (live.chip.reg (R.MIR_STAGE 0)) ∧ (mirrored false).chip.live = true ∧
    ((tabGet (mirrored false).chip.mirrors 3).map (fun (e : MirrorEntry) => (e.copying, fget e.v0 ⟨35, 1⟩))) = some (some 4, 0) ∧
    ((tabGet (mirrored true).chip.mirrors 3).map (fun (e : MirrorEntry) => (e.stamps, fget e.v0 ⟨35, 1⟩))) = some ([(0, 2)], 1) ∧
    tabGet live.chip.mirrors 3 = none := by decide

/-- A recovery descriptor of job 1, epoch 1, step 0 with its CRC: PULL, PULL_SEALED and LOAD_CHECKPOINT move nothing to address 8. -/
def descBytes (op : Nat) : List Byte :=
  let b := bytesLE 4 1 ++ bytesLE 4 1 ++ [0#8, BitVec.ofNat 8 op] ++ bytesLE 2 0 ++ bytesLE 4 0xFFFFFFFF ++ bytesLE 8 8 ++ List.replicate 100 0#8
  b ++ bytesLE 4 (crc32c b).toNat
/-- The descriptor stands at address 0 of the host's slot, whose window 0 is device memory with one page; job 1 is its job. -/
def recovering (op : Nat) (rs : List RcvRecord) : State :=
  liveWith (fun c => { ((((c.setFld (R.WIN0 0 0) F.WIN0.SIZE_GIB 1).setFld (R.WIN0 0 0) F.WIN0.TYPE 1).mark (R.WIN0 0 0) F.WIN0.READ).mark
      (R.WIN0 0 0) F.WIN0.WRITE) with
    pages := [(0, ⟨0, true, true, false, false, false, false, 0, .t2 0, 0, 0⟩)]
    jobs := [(0, ⟨fput 1 ⟨32, 32⟩ 1, false, [], [], []⟩)]
    rcvRecords := rs
    mem := (memWrite [] 0 (descBytes op)) })
set_option maxRecDepth 100000 in
theorem witness_RecoveryStepsRunInOrder_begin : (recovering 1 []).chip.RcvReady 1 := by unfold Chip.RcvReady; decide +kernel
set_option maxRecDepth 100000 in
theorem witness_RecoveryStepsRunInOrder_end : (recovering 6 [⟨1, 1, false, []⟩]).chip.RcvReady 6 := by unfold Chip.RcvReady; decide +kernel
set_option maxRecDepth 100000 in
theorem witness_RecoveryStepsRunInOrder_pull : (recovering 2 [⟨1, 1, false, []⟩]).chip.RcvReady 2 := by unfold Chip.RcvReady; decide +kernel
set_option maxRecDepth 100000 in
theorem witness_RecoveryStepsRunInOrder_others : (recovering 3 [⟨1, 1, false, []⟩]).chip.RcvReady 3 ∧ (recovering 4 [⟨1, 1, false, []⟩]).chip.RcvReady 4 ∧
    (recovering 5 [⟨1, 1, false, []⟩]).chip.RcvReady 5 := by unfold Chip.RcvReady; decide +kernel
set_option maxRecDepth 100000 in
theorem witness_RecoveryStepsRunInOrder :
    (recovering 1 []).chip.failed = false ∧ (recovering 1 []).chip.rcvDesc.job = 1 ∧ (recovering 1 []).chip.rcvRecord 1 = none ∧
    (recovering 2 [⟨1, 1, false, []⟩]).chip.rcvRecord 1 = some ⟨1, 1, false, []⟩ ∧
    (recovering 2 [⟨1, 1, false, []⟩]).chip.rcvDesc.epoch = 1 ∧ (recovering 2 [⟨1, 1, false, []⟩]).chip.rcvDest (recovering 2 []).chip.rcvDesc = true ∧
    (recovering 2 []).chip.rcvDesc.localSrc ≠ (recovering 2 []).chip.rcvDesc.dst ∧ (recovering 2 []).chip.rcvDesc.localSrc = 0 ∧
    (recovering 4 []).chip.permitted 0 0 0 false = true ∧ (recovering 2 []).chip.jobSlot 1 = 0 ∧
    ((recovering 2 [⟨1, 2, false, []⟩]).chip.rcvRecord 1).map (fun (r : RcvRecord) => r.epoch) = some 2 := by decide +kernel

/-- A step of an operation that wants a job step runs. -/
def running (op jobStep : Nat) : State :=
  liveWith (fun c => { c with rcvRunning := some ⟨1, 1, 0, op, jobStep, 0, 0, 0, 0, 0, 0, [], 0, false⟩ })
theorem witness_RecoveryStepsComplete :
    live.chip.rcvRunning = none ∧ live.chip.live = true ∧ (running 2 anyStep).chip.live = true ∧
    (running 2 5).chip.rcvRunning = some ⟨1, 1, 0, 2, 5, 0, 0, 0, 0, 0, 0, [], 0, false⟩ ∧ (5 : Nat) ≠ anyStep ∧ 5 ≠ (7 : W32).toNat ∧
    (running 4 0).chip.rcvRunning = some ⟨1, 1, 0, 4, 0, 0, 0, 0, 0, 0, 0, [], 0, false⟩ ∧
    (running 3 0).chip.rcvRunning = some ⟨1, 1, 0, 3, 0, 0, 0, 0, 0, 0, 0, [], 0, false⟩ ∧
    (running 3 0).chip.reaches .host = true ∧ (running 3 0).chip.early .host = false := by decide

theorem witness_LaneOperationsOnRegisters :
    (busy id).chip.AtRest sheet0 task0 cmd0 ∧ laneTy ((busy id).chip.sheet sheet0).csrs.fmtD = some .fp32 ∧
    (∀ op ∈ [Instr.fxVadd, .fxVsub, .fxVmul, .fxVmin, .fxVmax, .fxVcmplt, .fxVcmpeq, .fxVcmul, .fxVcmulc, .fxVscale, .fxVand, .fxVor, .fxVxor, .fxVshl, .fxVshra,
      .fxVfma, .fxVsel], (busy id).chip.fxLegal sheet0 task0 cmd0 (op sheet0 (ops 4 1 2))) ∧
    (busy id).chip.fxLegal sheet0 task0 cmd0 (.fxVcmag sheet0 (ops 4 1 0)) ∧ (busy id).chip.fxLegal sheet0 task0 cmd0 (.fxVfn sheet0 (ops 4 1 0)) ∧
    (busy (fun sh => { sh with csrs := { sh.csrs with fmt := 0x0E } })).chip.fxLegal sheet0 task0 cmd0 (.fxVcvt sheet0 (ops 4 1 0)) := by
  refine ⟨by unfold Chip.AtRest; decide, by decide, ?_, by unfold Chip.fxLegal; decide, by unfold Chip.fxLegal; decide, by unfold Chip.fxLegal; decide⟩
  intro op h
  simp only [List.mem_cons, List.not_mem_nil, or_false] at h
  rcases h with h | h | h | h | h | h | h | h | h | h | h | h | h | h | h | h | h <;> subst h <;> unfold Chip.fxLegal <;> decide

theorem witness_ReductionsAndMovesOfVectors :
    (busy id).chip.AtRest sheet0 task0 cmd0 ∧ laneTy ((busy id).chip.sheet sheet0).csrs.fmtD = some .fp32 ∧
    (∀ i ∈ [Instr.fxVrsum sheet0 (ops 4 1 0), .fxVrmax sheet0 (ops 4 1 0), .fxVperm sheet0 (ops 4 1 2), .fxVmvxs sheet0 (ops 4 1 0), .fxVld sheet0 (ops 4 0 0) .clean,
      .fxVld sheet0 (ops 4 0 0) (.corrected 0), .fxVld2 sheet0 (ops 4 0 0), .fxVldx sheet0 (ops 4 0 0), .fxVgath sheet0 (ops 4 0 1), .fxTapld sheet0 (ops 8 0 0),
      .fxCbxupk sheet0 (ops 4 0 0)], (busy id).chip.fxLegal sheet0 task0 cmd0 i) ∧
    ((busy id).chip.sheetK (keyPrimary (sheetKey sheet0))).feltCeWindow < 64 ∧
    (busy id).chip.fld (sheetCntK (sheetKey sheet0)) F.SHEET_CNT.FELT_CE < fmax F.SHEET_CNT.FELT_CE ∧
    ((((busy id).chip.sheet sheet0).v 1).map (fun w => ((busy id).chip.sheet sheet0).x 0 + w)).all (fun a => feltOk a.toNat 4) = true := by
  refine ⟨by unfold Chip.AtRest; decide, by decide, ?_, by decide, by decide, by decide⟩
  intro i h
  simp only [List.mem_cons, List.not_mem_nil, or_false] at h
  rcases h with h | h | h | h | h | h | h | h | h | h | h <;> subst h <;> unfold Chip.fxLegal <;> decide

/-- A sheet set for DEMAP, or for MX stores. -/
def dsp (fmt dm : W32) : State := busy (fun sh => { sh with csrs := { sh.csrs with fmt := fmt, dmcfg := dm } })
theorem witness_StoresToFeltAndFeltForms :
    (busy id).chip.AtRest sheet0 task0 cmd0 ∧ laneTy ((busy id).chip.sheet sheet0).csrs.fmtA = some .fp32 ∧ laneTy ((busy id).chip.sheet sheet0).csrs.fmtD = some .fp32 ∧
    fmtMx ((busy id).chip.sheet sheet0).csrs.fmtD = false ∧
    (∀ i ∈ [Instr.fxVst sheet0 (ops 0 0 1), .fxVstx sheet0 (ops 1 0 0), .fxVscat sheet0 (ops 1 0 2), .fxCbxpk sheet0 (ops 1 0 0),
      .feltForm sheet0 0 (ops 1 0 0), .feltForm sheet0 22 (ops 1 0 0), .feltForm sheet0 9 (ops 1 0 0), .feltForm sheet0 13 (ops 1 0 0), .fxTapmv sheet0 (ops 4 1 2)],
      (busy id).chip.fxLegal sheet0 task0 cmd0 i) ∧
    ((((busy id).chip.sheet sheet0).v 2).map (fun w => ((busy id).chip.sheet sheet0).x 0 + w)).all (fun a => feltOk a.toNat 4) = true := by
  refine ⟨by unfold Chip.AtRest; decide, by decide, by decide, by decide, ?_, by decide⟩
  intro i h
  simp only [List.mem_cons, List.not_mem_nil, or_false] at h
  rcases h with h | h | h | h | h | h | h | h | h <;> subst h <;> unfold Chip.fxLegal <;> decide
theorem witness_StoresToFeltAndFeltForms_special :
    (dsp 0x08 0).chip.AtRest sheet0 task0 cmd0 ∧ fmtMx ((dsp 0x08 0).chip.sheet sheet0).csrs.fmtD = true ∧
    laneTy ((dsp 0x08 0).chip.sheet sheet0).csrs.fmtA = some .fp32 ∧ (dsp 0x08 0).chip.fxLegal sheet0 task0 cmd0 (.fxVstx sheet0 (ops 1 0 0)) ∧
    (dsp 0 0x30000000).chip.AtRest sheet0 task0 cmd0 ∧ (dsp 0 0x30000000).chip.fxLegal sheet0 task0 cmd0 (.fxDemap sheet0 (ops 0 1 2)) := by
  refine ⟨by unfold Chip.AtRest; decide, by decide, by decide, by unfold Chip.fxLegal; decide, by unfold Chip.AtRest; decide, by unfold Chip.fxLegal; decide⟩

/-- A sheet set for a matrix instruction. -/
def matrixSheet (fmt shape : W32) : State := busy (fun s => { s with csrs := { s.csrs with fmt := fmt, mshape := shape, mstride := 0x00400040 } })
theorem witness_MatrixInstructionsOnBanks :
    (matrixSheet 0x0421 0x0001FFFF).chip.AtRest sheet0 task0 cmd0 ∧ (∀ r : Fin 3, (matrixSheet 0x0421 0x0001FFFF).chip.fxLegal sheet0 task0 cmd0 (.fxMma sheet0 (ops 4 0 0) r)) ∧
    (mmaOpOf ((matrixSheet 0x0421 0x0001FFFF).chip.sheet sheet0).csrs (ops 4 0 0)).mode ≠ 2 ∧ mmaKind 1 1 = some .fp32 ∧
    (matrixSheet 0x0421 0x0001FFFF).chip.fld (sheetCntK (sheetKey sheet0)) F.SHEET_CNT.RES_RETRY < fmax F.SHEET_CNT.RES_RETRY ∧
    ((matrixSheet 0x0421 0x0001FFFF).chip.sheetK (keyPrimary (sheetKey sheet0))).errorUptime = none ∧
    (busy id).chip.AtRest sheet0 task0 cmd0 ∧ (∀ i ∈ [Instr.fxAccrd sheet0 (ops 0 0 0), .fxAccld sheet0 (ops 0 0 0), .fxAccz sheet0 (ops 0 0 0), .fxAccmv sheet0 (ops 1 0 0)],
      (busy id).chip.fxLegal sheet0 task0 cmd0 i) ∧ accRdOk .fp32 0 = true ∧ accLdKind 0 = some .fp32 ∧
    live.chip.live = true ∧ (live.chip.sheet sheet0).stalled = [] ∧ (live.chip.sheet sheet0).window = [] ∧ (live.chip.sheet sheet0).joined = none := by
  refine ⟨by unfold Chip.AtRest; decide, ?_, by decide, by decide, by decide, by decide, by unfold Chip.AtRest; decide, ?_, by decide, by decide, by decide, by decide, by decide, by decide⟩
  · intro r; unfold Chip.fxLegal; match r with
    | 0 => decide
    | 1 => decide
    | 2 => decide
  · intro i h
    simp only [List.mem_cons, List.not_mem_nil, or_false] at h
    rcases h with h | h | h | h <;> subst h <;> unfold Chip.fxLegal <;> decide
/-- 64 sheets of a quire that have issued one joined instruction of so many groups. -/
def joinedQuire (shape : W32) : State :=
  liveWith (fun c => { c with
    commands := [cmd0]
    sheets := (List.range 64).map (fun l => (2 * l, { sheetReset (2 * l) with
      task := some { task0 with index := l, logical := l }
      joined := some ⟨0, true, false, false, 0, 0, { Csrs.zero with fmt := 0x0421, mshape := shape, mstride := 0x00100010 }⟩ })) })
/-- The quire's joined step can fire. -/
def joinedCan (s : State) (more : Bool) : Bool :=
  match s.chip.joinedGroup 0 with
  | some l => (match l.head? with
    | some x => x.2.1.task == some { task0 with index := 0 } && l.all (fun y => y.2.2.agrees x.2.2) && joinedReady (l.map (fun y => (y.2.1, y.2.2))) 0 &&
      l.all (fun y => y.2.1.stalled.isEmpty && y.2.1.window.isEmpty) && (decide (1 < x.2.2.op.steps) == more)
    | none => false)
  | none => false
theorem witness_MatrixInstructionsOnBanks_joined :
    joinedCan (joinedQuire 0x8002FFFF) true = true ∧ joinedCan (joinedQuire 0x8001FFFF) false = true ∧ ((joinedQuire 0x8002FFFF).chip.quire 0).joined = none ∧
    (joinedQuire 0x8002FFFF).chip.live = true := by decide +kernel

/-- A command with input and output tensors, job 7 and two reduction slots. -/
def richCmd : Command := { cmd0 with desc := { desc0 with job := 7, rslots := 2 }, tensors := List.replicate 16 ⟨0, 4096, 0, false⟩ }
/-- Its task of a class on the first sheet, with radio time, the fabric, job 7, a readable counter and a fence record in felt. -/
def rich (cls : Nat) (f : Sheet → Sheet) : State :=
  (radioOn 5).withChip ((((({ (radioOn 5).chip with
    commands := [richCmd]
    jobs := [(1, ⟨BitVec.ofNat 64 (7 * 2 ^ 32 + 1), false, [], [], []⟩)] } : Chip).mark R.FAB_CFG F.FAB_CFG.FAB_EN).mark (R.DCK_CTL 0) F.DCK_CTL.CNT_RD).mark
      (cntCfg (.sheet sheet0) 0) F.SC_CFG.SLOT_EN).setSheet sheet0
      (f { sheetReset 0 with
        task := some { task0 with cls := cls }
        xregs := (List.range 32).map (fun i => if i = 5 then 0x00010000 else if i = 6 then BitVec.ofNat 32 (600 * 2 ^ 21) else 0)
        felt := [(0, 4)]
        tags := [(0, 0)] }))
theorem witness_SynchronisingInstructionsOfASheet :
    (rich 1 id).chip.AtRest sheet0 task0 richCmd ∧ (rich 1 id).chip.undrained 0 = false ∧
    (∀ i ∈ [Instr.fxFence sheet0 (ops 0 0 0), .fxTfence sheet0 (ops 0 0 0), .fxWaitrdy sheet0 (ops 0 0 0), .fxMkrdy sheet0 (ops 0 0 5), .fxClrrdy sheet0 (ops 0 0 5),
      .fxWaitev sheet0 (ops 3 1 0), .fxRand sheet0 (ops 3 0 1), .fxCntrd sheet0 (ops 3 0 0), .fxCntrd sheet0 (ops 3 0 1), .fxStrec sheet0 (ops 0 5 0),
      .fxStred sheet0 (ops 0 5 0), .fxStmsg sheet0 (ops 0 0 0), .fxCommit sheet0 (ops 0 0 0)], (rich 1 id).chip.fxLegal sheet0 task0 richCmd i) ∧
    ((rich 1 id).chip.sheet sheet0).records.length < 64 ∧
    msgIllegal (feltWords ((rich 1 id).chip.sheet sheet0) 0 16) 0 = false ∧ msgOut ((rich 1 id).chip.fxCtxAt sheet0 task0 richCmd) (feltWords ((rich 1 id).chip.sheet sheet0) 0 16) = false ∧
    wordAt (feltWords ((rich 1 id).chip.sheet sheet0) 0 16) 0 % 256 = 4 ∧ (((rich 1 id).chip.sheet sheet0).csrs.write 0x801 3).isSome = true := by
  refine ⟨by unfold Chip.AtRest; decide, by decide, ?_, by decide, by decide, by decide, by decide, by decide⟩
  intro i h
  simp only [List.mem_cons, List.not_mem_nil, or_false] at h
  rcases h with h | h | h | h | h | h | h | h | h | h | h | h | h <;> subst h <;> unfold Chip.fxLegal <;> decide
theorem witness_SynchronisingInstructionsOfASheet_waits :
    (rich 0 id).chip.AtRest sheet0 { task0 with cls := 0 } richCmd ∧ (rich 0 id).chip.rtValid = true ∧
    (rich 0 id).chip.fxLegal sheet0 { task0 with cls := 0 } richCmd (.fxRtwait sheet0 (ops 3 0 0)) ∧
    (rich 0 id).chip.fxLegal sheet0 { task0 with cls := 0 } richCmd (.fxRtwait sheet0 (ops 3 6 0)) ∧
    (rtJudge (rich 0 id).chip.tick 600 0).isSome = true ∧ rtJudge (rich 0 id).chip.tick 0 0 = none ∧
    (rich 1 (fun sh => { sh with wait := some (.token 3 5) })).chip.waitMet task0 (.token 3 5) = true ∧
    ((rich 1 (fun sh => { sh with wait := some (.token 3 5) })).chip.sheet sheet0).waitReg = some 3 ∧
    ((rich 0 (fun sh => { sh with wait := some (.radio 3 0 0 (some (-10 ^ 18))) })).chip.sheet sheet0).wait = some (.radio 3 0 0 (some (-10 ^ 18))) ∧
    (-10 ^ 18) ≤ (rich 0 (fun sh => { sh with wait := some (.radio 3 0 0 (some (-10 ^ 18))) })).chip.tick ∧ (rich 0 id).chip.tick < 0 ∧
    (rich 1 (fun sh => { sh with wait := some (.token 3 5) })).chip.live = true := by
  refine ⟨by unfold Chip.AtRest; decide, by decide, by unfold Chip.fxLegal; decide, by unfold Chip.fxLegal; decide, by decide, by decide, by decide, by decide, by decide,
    by decide, by decide, by decide⟩
/-- A task whose context has a commit that has not drained. -/
def undrainedSheet : State := liveWith (fun _ => { (busy id).chip with quires := [(0, { quireReset with slots := [⟨task0, 0, [], 0, []⟩] })] })
theorem witness_SynchronisingInstructionsOfASheet_drain :
    undrainedSheet.chip.AtRest sheet0 task0 cmd0 ∧ undrainedSheet.chip.fxLegal sheet0 task0 cmd0 (.fxTfence sheet0 (ops 0 0 0)) ∧ undrainedSheet.chip.undrained 0 = true := by
  refine ⟨by unfold Chip.AtRest; decide, by unfold Chip.fxLegal; decide, by decide⟩

/-- A sheet whose felt holds the descriptor of a POOL_IN of 16 bytes at address 0, of a page with a pool. -/
def transfer (f : Sheet → Sheet) : State :=
  (busy (fun sh => f { sh with felt := [(0, 2), (2, 12), (24, 16)], tags := [(0, 0)] })).withChip
    { (busy (fun sh => f { sh with felt := [(0, 2), (2, 12), (24, 16)], tags := [(0, 0)] })).chip with
      contexts := [(0, ⟨0, 1, 1, false, 4096, .onChip, [0], [], [], none, none, 0, false, 0, [], 0, false⟩)] }
/-- A request of a KIND. -/
def request (kind : Nat) (served : Bool) : DmaReq := ⟨0, kind, List.replicate 64 0, [0], 0, false, 0, served, [(0, [7])], none, none⟩
theorem witness_TransfersOfASheet :
    (transfer id).chip.AtRest sheet0 task0 cmd0 ∧ (transfer id).chip.fxLegal sheet0 task0 cmd0 (.fxDma sheet0 (ops 0 0 0)) ∧
    (∃ out, (transfer id).chip.dmaIssue 0 false ((transfer id).chip.fxCtxAt sheet0 task0 cmd0)
      { ((transfer id).chip.sheet sheet0).past with window := [(transfer id).chip.fxEntryAt sheet0 (.fxDma sheet0 (ops 0 0 0))] }
      ((transfer id).chip.fxEntryAt sheet0 (.fxDma sheet0 (ops 0 0 0))) = .ok out) ∧ (((transfer id).chip.sheet sheet0).rd 0).toNat < 0x50 := by
  refine ⟨by unfold Chip.AtRest; decide, by unfold Chip.fxLegal; decide, ⟨_, rfl⟩, by decide⟩
theorem witness_TransfersOfASheet_served :
    (transfer (fun sh => { sh with dma := [request 2 false] })).chip.live = true ∧
    ((transfer (fun sh => { sh with dma := [request 2 false] })).chip.sheet sheet0).request 0 = some (request 2 false) ∧
    ((transfer (fun sh => { sh with dma := [request 0 false] })).chip.sheet sheet0).request 0 = some (request 0 false) ∧ (request 0 false).parts = [] ∧
    ((transfer (fun sh => { sh with dma := [request 2 false] })).chip.quire 0).poison = [] ∧
    ((transfer (fun sh => { sh with dma := [request 0 true] })).chip.sheet sheet0).request 0 = some (request 0 true) ∧ 0 ∈ (request 0 true).lines ∧
    ((transfer id).chip.sheet sheet0).request 5 = none ∧ ((transfer id).chip.sheet sheet0).incarnation ≠ 1 := by decide

/-- FX.COMMIT alone in the window. -/
def committing (done : List Nat) : State :=
  (busy (fun sh => { sh with window := [⟨.fxCommit sheet0 (ops 0 0 0), 0, 0, .zero, 0⟩] })).withChip
    { (busy (fun sh => { sh with window := [⟨.fxCommit sheet0 (ops 0 0 0), 0, 0, .zero, 0⟩] })).chip with commands := [{ cmd0 with committed := done }] }
/-- A slot with one store record drains; its sheet runs no task. -/
def draining : State :=
  liveWith (fun c => { c with commands := [cmd0], quires := [(0, { quireReset with slots := [⟨task0, 0, [⟨.store, 0, 0, 16, 0, 0, 0, false, (0, 0, 0), [], []⟩], 0, []⟩] })] })
/-- A command all of whose tasks have drained with one partial. -/
def combining : State :=
  liveWith (fun c => { c with commands := [{ cmd0 with committed := [0], drained := 1, partials := [⟨0, 0, 0, 0, false, (0, 0, 0), []⟩] }] })
theorem witness_CommitsDrainAndKillsRelease :
    (committing []).chip.live = true ∧ ((committing []).chip.sheet sheet0).task = some task0 ∧ ((committing []).chip.sheet sheet0).window.length = 1 ∧
    (committing []).chip.command 3 = some cmd0 ∧ ((committing []).chip.sheet sheet0).quiet = true ∧ ((committing []).chip.sheet sheet0).commitSlot = false ∧
    cmd0.committed.contains 0 = false ∧ ((committing [0]).chip.command 3).map (fun (k : Command) => k.committed) = some [0] ∧
    ((draining.chip.quire 0).slots.find? (fun y => y.sheet == 0)).isSome = true ∧ draining.chip.command 3 = some cmd0 ∧
    draining.chip.keysWhere (fun t => t.ctx == 0) = [] ∧ draining.chip.live = true ∧ (combining.chip.command 3).map (fun (k : Command) => k.drained) = some 1 ∧ combining.chip.live = true ∧
    (busy id).chip.live = true ∧ ((busy id).chip.sheet sheet0).task = some task0 ∧ cmd0.desc.mode ≠ 2 ∧ task0.cls ≠ 0 ∧
    ((busy (fun sh => { sh with task := some { task0 with cls := 0 } })).chip.sheet sheet0).task = some { task0 with cls := 0 } ∧ ((busy (fun sh => { sh with killing := true })).chip.sheet sheet0).killing = true ∧
    ((busy id).chip.sheet sheet0).killing = false ∧ ((busy id).chip.sheet sheet0).acquired = none := by decide

/-- A timing state. -/
def timing (n : Nat) : State := liveWith (fun c => c.setFld R.TM_STATE F.TM_STATE.STATE n)
/-- Domain d enabled and 16 intervals good, in a timing state. -/
def domainRun (d : Fin 2) (n : Nat) : State :=
  (timing n).withChip ((((timing n).chip.mark (R.PTP_DOM_CFG d.val) F.PTP_DOM_CFG.ENABLE).setFld (R.PTP_DOM_CFG d.val) F.PTP_DOM_CFG.CLASS_MAX 255).setDomain d.val (fun x => { x with goodRun := 16 }))
/-- ACQUIRING on a good domain A since uptime 0. -/
def acquiring (t : Nat) : State :=
  (timing 1).withChip { (timing 1).chip.mark (R.PTP_DOM_STAT 0) F.PTP_DOM_STAT.GOOD with time := { TimeSt.reset with uptime := t } }
/-- In holdover since uptime 0, with a limit of no seconds. -/
def holding (t : Nat) : State :=
  (timing 5).withChip { (timing 5).chip with time := { TimeSt.reset with uptime := t, holdover := some ⟨0, false, none⟩ } }
/-- LOCKED_B with A good and REVERT. -/
def reverting : State :=
  (timing 3).withChip (((timing 3).chip.mark (R.PTP_DOM_STAT 0) F.PTP_DOM_STAT.GOOD).mark (R.PTP_DOM_CFG 0) F.PTP_DOM_CFG.REVERT)
theorem witness_TimingStatesMoveAsTabled :
    (∀ n < 6, (domainRun 1 n).chip.live = true ∧ (domainRun 1 n).chip.tmState = n) ∧
    (domainRun 1 0).chip.flag (R.PTP_DOM_CFG 1) F.PTP_DOM_CFG.ENABLE = true ∧ (domainRun 1 0).chip.domGood 1 = false ∧
    16 ≤ ((domainRun 1 0).chip.domain 1).goodRun ∧
    (domainRun 1 0).chip.fld (R.PTP_DOM_STAT 1) F.PTP_DOM_STAT.GM_CLASS ≤ (domainRun 1 0).chip.fld (R.PTP_DOM_CFG 1) F.PTP_DOM_CFG.CLASS_MAX ∧
    (acquiring (64 * nsPerSec)).chip.live = true ∧ (acquiring (64 * nsPerSec)).chip.tmState = 1 ∧ (acquiring (64 * nsPerSec)).chip.domGood 0 = true ∧
    (acquiring (64 * nsPerSec)).chip.time.acquiring = 0 ∧ (acquiring 5).chip.time.uptime < (acquiring 5).chip.time.lockSince + 64 * nsPerSec ∧
    ((acquiring 0).chip.domain 0).offset.natAbs ≤ 100 ∧
    (holding 0).chip.live = true ∧ (holding 0).chip.tmState = 5 ∧ (holding 0).chip.time.holdover = some ⟨0, false, none⟩ ∧
    (holding (3 * nsPerSec)).chip.time.ppsLast + 3 * nsPerSec ≤ (holding (3 * nsPerSec)).chip.time.uptime := by decide
theorem witness_TimingStatesMoveAsTabled_revert :
    reverting.chip.live = true ∧ reverting.chip.tmState = 3 ∧ reverting.chip.domGood 0 = true ∧
    reverting.chip.flag (R.PTP_DOM_CFG 0) F.PTP_DOM_CFG.REVERT = true ∧
    ((reverting.withChip { reverting.chip with time := { TimeSt.reset with uptime := 65536 * nsPerSec } }).chip.domain 0).goodSince +
      reverting.chip.fld (R.PTP_DOM_CFG 0) F.PTP_DOM_CFG.WTR * nsPerSec ≤ 65536 * nsPerSec ∧
    (timing 2).chip.tmState = 2 ∧ (timing 2).chip.live = true := by decide

/-- LOCKED_A with a phase offset. -/
def slewing (off : Int) : State := liveWith (fun c => (c.setFld R.TM_STATE F.TM_STATE.STATE 2).setPhase 0 off)
/-- Domain 0 enabled. -/
def domainRun2 : State := liveWith (fun c => c.mark (R.PTP_DOM_CFG 0) F.PTP_DOM_CFG.ENABLE)
theorem witness_RadioTimeStepsSlewsAndIsRead :
    live.chip.live = true ∧ live.chip.reaches .host = true ∧ mayReachBar0 .host = true ∧ live.chip.early .host = false ∧ cellsAdmitted live.chip = false ∧
    (signed 32 (5 : W32).toNat).natAbs ≤ 1258291200 ∧ 1258291200 < (signed 32 (0x70000000 : W32).toNat).natAbs ∧ (0 : W32) ≠ ~~~ (0 : W32) ∧
    (slewing 5).chip.servoDomain = some 0 ∧ (slewing 5).chip.live = true ∧
    0 < ((slewing 5).chip.domain 0).offset ∧ live.chip.servoDomain = none ∧
    domainRun2.chip.flag (R.PTP_DOM_CFG 0) F.PTP_DOM_CFG.ENABLE = true ∧ live.chip.flag (R.PTP_DOM_CFG 0) F.PTP_DOM_CFG.ENABLE = false ∧
    (liveWith (fun c => c.mark R.PPS_CFG F.PPS_CFG.OUT_EN)).chip.flag R.PPS_CFG F.PPS_CFG.OUT_EN = true ∧
    live.chip.flag R.PPS_CFG F.PPS_CFG.OUT_EN = false ∧ mayReachBar0 (.slice 0) = false := by decide

/-- The staging words hold a GPIO event of pin 1, with radio time valid or not. -/
def stagedEvent (valid : Bool) : State :=
  liveWith (fun c => ((((c.setReg (R.EVT_STAGE 0) (fput 0 evAction 6)).setReg (R.EVT_STAGE 1) 0x11).setReg (R.EVT_STAGE 2) (~~~ (fput 0 evAction 6))).setReg
    (R.EVT_STAGE 3) (~~~ 0x11)).setFlag R.TM_STATE F.TM_STATE.RT_VALID valid)
/-- Entry 5 drives pin 1 and is due, after so many firings in this tick. -/
def armed (fired : Nat) : State :=
  (radioOn 5).withChip { ((radioOn 5).chip.setFld R.GLB_CTL F.GLB_CTL.GPIO_DIR 2).setFld R.GLB_CTL F.GLB_CTL.GPIO_EVT 2 with
    firedAt := ((radioOn 5).chip.tick, fired)
    events := [(5, ⟨fput (fput 0 evAction 6) evState 1, 0x11, ~~~ (fput (fput 0 evAction 6) evState 1), ~~~ 0x11,
      some (radioOn 5).chip.tick, (radioOn 5).chip.tick⟩)] }
theorem witness_EventTableIsWrittenAndFires :
    (stagedEvent true).chip.live = true ∧ (stagedEvent true).chip.reaches .host = true ∧ mayReachBar0 .host = true ∧
    (stagedEvent true).chip.early .host = false ∧ (stagedEvent true).chip.reg (R.EVT_STAGE 2) = ~~~ ((stagedEvent true).chip.reg (R.EVT_STAGE 0)) ∧
    (stagedEvent true).chip.reg (R.EVT_STAGE 3) = ~~~ ((stagedEvent true).chip.reg (R.EVT_STAGE 1)) ∧ evtRangeOk .host 3900 = true ∧
    evtActionOk .host ((stagedEvent true).chip.reg (R.EVT_STAGE 0)) ((stagedEvent true).chip.reg (R.EVT_STAGE 1)) = true ∧
    evtRangeOk .host 5 = false ∧ (stagedEvent true).chip.rtValid = true ∧ (stagedEvent false).chip.rtValid = false ∧
    live.chip.nextDue = none ∧ (armed 0).chip.live = true ∧ (armed 0).chip.rtValid = true ∧ (armed 32).chip.firedAt.2 = 32 ∧
    ((armed 0).chip.nextDue.map (fun (x : Nat × EvEntry) => x.1)) = some 5 ∧
    ((armed 0).chip.fld R.GLB_CTL F.GLB_CTL.GPIO_DIR).testBit (fget ((armed 0).chip.event 5).w1 ⟨4, 4⟩) = true ∧
    ((armed 0).chip.fld R.GLB_CTL F.GLB_CTL.GPIO_EVT).testBit (fget ((armed 0).chip.event 5).w1 ⟨4, 4⟩) = true ∧
    ((armed 32).chip.nextDue.map (fun (x : Nat × EvEntry) => x.1)) = some 5 := by decide

/-- Port 0 with its first link up, and one released frame in class 0 queue 3. -/
def sending : State :=
  liveWith (fun c => { (((c.mark (R.PORT_CFG 0) F.PORT_CFG.ENABLE).setFld (R.PORT_CFG 0) F.PORT_CFG.SUB_EN 1).setFld (R.PORT_STAT 0) F.PORT_STAT.LINK_UP 1) with
    egress := [(0, { egReset with class0 := [(3, ⟨true, 0, 100, 0, some 0, [⟨[7], 64, some 9, none⟩]⟩)] })] })
/-- Port 0 with its first link up and one Delay_Req waiting. -/
def asking : State := sending.withChip { sending.chip with egress := [(0, { egReset with ptp := [(0, [⟨[], 64, none, some 0⟩])] })] }
/-- One frame waits in DRR queue 0 of class 2 of port 0. -/
def queueing : State :=
  sending.withChip { sending.chip with egress := [(0, { egReset with queues := [(0, { queueReset with place := ⟨true, 2, 0, 0⟩, frames := [⟨[7], 64, none, none⟩] })] })] }
/-- A stamp waits on port 0 and the host has latched its rest. -/
def stampWaits : State :=
  (hostHolds (fun q => { q with popLatch := [((R.TSQ_HI 0).addr, 2)] })).withChip
    { (hostHolds (fun q => { q with popLatch := [((R.TSQ_HI 0).addr, 2)] })).chip with tsq := [[⟨9, 1, 2, 0⟩], [], [], []] }
theorem witness_PortsLinksFramesAndStamps :
    live.chip.live = true ∧ live.chip.reaches .host = true ∧ mayReachBar0 .host = true ∧ live.chip.early .host = false ∧ live.chip.portExists 0 = true ∧
    regFits .PORT_CFG ((0 : W32).setWidth 64) = true ∧
    sending.chip.live = true ∧ sending.chip.linkIsUp 0 0 = true ∧ sending.chip.subEnabled 0 0 = true ∧ live.chip.linkIsUp 0 0 = false ∧
    live.chip.subEnabled 0 0 = false ∧ (sending.chip.eg 0).releasedNext 0 = some 3 ∧ ((sending.chip.eg 0).c0 3).frames = [⟨[7], 64, some 9, none⟩] ∧
    (nth sending.chip.tsq 0 []).length < 64 ∧ 0 < sending.chip.tsq.length ∧
    (asking.chip.eg 0).releasedNext 0 = none ∧ tabGetD (asking.chip.eg 0).ptp 0 [] = [⟨[], 64, none, some 0⟩] ∧
    (queueing.chip.eg 0).releasedNext 0 = none ∧ tabGetD (queueing.chip.eg 0).ptp 0 [] = [] ∧
    nth stampWaits.chip.tsq 0 [] = [⟨9, 1, 2, 0⟩] ∧ tabGet (stampWaits.chip.getReq .host).popLatch (R.TSQ_HI 0).addr = some 2 ∧
    stampWaits.chip.live = true := by decide
theorem witness_PortsLinksFramesAndStamps_drr :
    ((queueing.chip.eg 0).drr (queueing.chip.fld (R.PORT_CFG 0) F.PORT_CFG.SHP_OVH) 0).isSome = true := by decide +kernel
theorem witness_PortsLinksFramesAndStamps_named : live.chip.portNamed 0 = false ∧
    (liveWith (fun c => c.mark (R.PTP_DOM_CFG 0) F.PTP_DOM_CFG.ENABLE)).chip.portNamed 0 = true := by decide +kernel

/-- The staging words of port 0 hold a group's entry of BURST b. -/
def shaping (b : Nat) : State :=
  liveWith (fun c => ((c.setReg (shpStage 0 0) (fput (fput 0 shpRefill 9) shpBurst b)).setReg (shpStage 0 2) (~~~ (fput (fput 0 shpRefill 9) shpBurst b))).setReg (shpStage 0 3) (~~~ 0))
/-- A group's bucket with a rate waiting. -/
def filling : State := liveWith (fun c => { c with egress := [(0, { egReset with groups := [(5, ⟨0, 0, 0, some (9, 40)⟩)] })] })
/-- One released frame in class 0 queue 3, long ago. -/
def sending2 : State :=
  liveWith (fun c => { c with egress := [(0, { egReset with class0 := [(3, ⟨true, 0, 100, 0, some (c.tick - 100), [⟨[7], 64, some 9, none⟩]⟩)] })] })
theorem witness_EgressIsShapedAndReleased :
    (shaping 40).chip.live = true ∧ (shaping 40).chip.reaches .host = true ∧ mayReachBar0 .host = true ∧ (shaping 40).chip.early .host = false ∧
    (shaping 40).chip.portExists 0 = true ∧ (shaping 40).chip.shpStaged 0 = true ∧
    shpInvalid 0 2 5 ((shaping 40).chip.reg (shpStage 0 0)) ((shaping 40).chip.reg (shpStage 0 1)) = false ∧
    shpInvalid 0 2 5 ((shaping 38).chip.reg (shpStage 0 0)) ((shaping 38).chip.reg (shpStage 0 1)) = true ∧ live.chip.shpStaged 0 = false ∧
    filling.chip.live = true ∧ (tabGet (filling.chip.eg 0).groups 5).isSome = true ∧ sending2.chip.live = true ∧
    ((sending2.chip.eg 0).c0 3).released = some (sending2.chip.tick - 100) ∧ sending2.chip.tick - 100 + 100 ≤ sending2.chip.tick := by decide

/-- An enabled uplink stream of one PRB on port 0. -/
def strmOne : W64 := fput (fput 0 F.STRM_CFG.ENABLE 1) F.STRM_CFG.NUM_PRB 1
/-- An eCPRI frame with one PRB of eAxC 0 for frame 0, slot 0, symbol 0. -/
def ecpri0 : Ecpri := ⟨1, false, 0, 0, 0, 0, 0, 0, [⟨0, none, [⟨0, List.replicate 12 (1, 1)⟩]⟩]⟩
/-- A good frame of 64 bytes. -/
def frame (b : FrameBody) : RxFrame := ⟨0, 0, true, 0, 64, false, 0, 0, 0, b⟩
/-- Four windows: 1 open for frame 0, slot 0, symbol 0, and 2 closing. -/
def windows4 : List RxWindow :=
  [windowReset, ⟨true, 0, 0, 0, 0, none, [], false, [0], [⟨0, 0, false⟩]⟩, ⟨false, 0, 0, 0, 0, some 0, [], true, [0], [⟨0, 0, false⟩]⟩, windowReset]
/-- Stream 3 with window 1 open for frame 0, slot 0, symbol 0 and window 2 closing; a link up. -/
def receiving : State :=
  liveWith (fun c => { ((c.setReg (R.STRM_CFG 3) strmOne).setFld (R.PORT_STAT 0) F.PORT_STAT.LINK_UP 1) with
    streams := [(3, ⟨windows4, [0], [0], []⟩)] })
theorem witness_FronthaulStreamsAndFrames :
    live.chip.live = true ∧ live.chip.reaches .host = true ∧ mayReachBar0 .host = true ∧ live.chip.early .host = false ∧
    regFits .STRM_CFG strmOne = true ∧ gainGroups strmOne ≤ 64 ∧
    64 < gainGroups (fput 0 F.STRM_CFG.NUM_PRB 200) ∧ live.chip.linkIsUp 0 0 = false ∧ receiving.chip.live = true ∧ receiving.chip.linkIsUp 0 0 = true ∧
    (frame (.other [])).length = 64 ∧ receiving.chip.onTime 3 ecpri0 (ticksAt (receiving.chip.rxStamp 0 0) receiving.chip.rtOffset) = some 1 ∧
    1 < (receiving.chip.stream 3).windows.length ∧
    (sectionComp (receiving.chip.reg (R.STRM_CFG 3)) ⟨0, none, [⟨0, List.replicate 12 (1, 1)⟩]⟩).isSome = true ∧
    0 < receiving.chip.strm 3 F.STRM_CFG.NUM_PRB ∧ receiving.chip.fld (R.STRM_GRID 3) F.STRM_GRID.TARGET = 0 ∧
    ((receiving.chip.stream 3).win 2).closing = true ∧ ((receiving.chip.stream 3).win 1).closing = false ∧ (receiving.chip.stream 3).measured = [] ∧
    (liveWith (fun c => c.mark (R.PTP_DOM_CFG 0) F.PTP_DOM_CFG.ENABLE)).chip.ptpDomain 0 0 24 = some 0 ∧ live.chip.ring 0 3 0 = none ∧
    ecpri0.slotId < 2 ^ fget (receiving.chip.reg (R.STRM_CFG 3)) F.STRM_CFG.MU := by decide
theorem witness_FronthaulStreamsAndFrames_stream : receiving.chip.streamFor 0 0 0 ecpri0 = some 3 ∧ receiving.chip.strmTaken 4 strmOne = true ∧
    live.chip.strmTaken 4 strmOne = false ∧ live.chip.streamFor 0 0 0 ecpri0 = none := by decide +kernel
theorem witness_FronthaulStreamsAndFrames_ring :
    let s := liveWith (fun c => { ((c.setFld (R.WIN0 0 0) F.WIN0.SIZE_GIB 1).setFld (R.WIN0 0 0) F.WIN0.TYPE 2).mark (R.WIN0 0 0) F.WIN0.WRITE with
      rings := [⟨0, 3, 0, 0, 0, 6, 0, false, false, 4, 0, 1, true, [], false, false, 0, 0⟩] })
    (s.chip.ring 0 3 0).isSome = true ∧ s.chip.permitted 0 (s.chip.treadNat 0 0 8) 60 true = true := by decide +kernel
theorem witness_FronthaulStreamsAndFrames_gain :
    (receiving.withChip (receiving.chip.setStream 3 { receiving.chip.stream 3 with measured := [([0], [⟨9, 12, true⟩])] })).chip.live = true ∧
    ((receiving.withChip (receiving.chip.setStream 3 { receiving.chip.stream 3 with measured := [([0], [⟨9, 12, true⟩])] })).chip.stream 3).measured =
      [([0], [⟨9, 12, true⟩])] := by decide

/-- Slot 0 is active and slice 2 rings its ring of a kind; window 0 of the slot is host memory. -/
def ringing (kind : Nat) : State :=
  liveWith (fun c => { ((((c.mark (R.SLICE 2) F.SLICE.ENABLE).setFld (R.TEN_STAT 0) F.TEN_STAT.STATE 1).setFld (R.WIN0 0 0) F.WIN0.SIZE_GIB 1).setFld
      (R.WIN0 0 0) F.WIN0.TYPE 2) with
    rings := [ring64 kind] })
/-- A completion queue with an entry posted, none consumed, and one held. -/
def filled : State :=
  (ringing 1).withChip { (ringing 1).chip with rings := [{ ring64 1 with own := 2, held := [⟨0, 0, 0, 0, 0, false, false, 0, 0, 0, 0, 0, false, []⟩] }] }
/-- L2's messages wait for a buffer. -/
def holdingL2 : State := (ringing 5).withChip { (ringing 5).chip with fapiHeld := [(0, [.slotInd 0 0 0])] }
theorem witness_DoorbellsMoveTheirRings :
    (ringing 0).chip.live = true ∧ (ringing 0).chip.reaches (.slice 2) = true ∧ live.chip.sliceOn 2 = false ∧
    (∀ k < 6, (ringing k).chip.sliceOn 2 = true ∧ (ringing k).chip.ring ((ringing k).chip.sliceSlot 2) k 0 = some (ring64 k) ∧
      (ringing k).chip.slotState 0 = 1) ∧
    (ring64 0).slice = 2 ∧ 3 < (ring64 0).size ∧ (ring64 0).ahead 0 0 ≤ (ring64 0).ahead 0 3 ∧ 3 ≠ (ring64 0).soft ∧ (ring64 0).size ≤ 64 ∧
    (ringing 1).chip.ring 0 0 0 = none ∧ (ring64 0).own = (ring64 0).soft ∧ 1 = ((ring64 0).own + 1) % (ring64 0).size ∧
    filled.chip.live = true ∧ ((filled.chip.ring 0 1 0).map (fun (x : Ring) => x.held.length)) = some 1 ∧
    (ring64 1).ahead 0 1 ≤ (ring64 1).ahead 0 2 ∧ (ring64 1).ahead 1 2 ≠ (ring64 1).size - 1 ∧
    holdingL2.chip.live = true ∧ tabGetD holdingL2.chip.fapiHeld 0 [] = [.slotInd 0 0 0] := by decide
theorem witness_DoorbellsMoveTheirRings_moves (k : Nat) (h : k ∈ [0, 2, 3, 4, 5]) : (ringing k).chip.TailMoves 2 k 0 1 (ring64 k) := by
  simp only [List.mem_cons, List.not_mem_nil, or_false] at h
  rcases h with rfl | rfl | rfl | rfl | rfl <;> unfold Chip.TailMoves <;> decide

/-- A small FDD carrier without streams. -/
def cfg0 : CellConfig := ⟨0, 10, 2, 2, false, 52, [], [], []⟩
/-- Slot 0 serves cells 0 to 7; its L2 has one message, for cell 0, and no buffer posted. -/
def fapiOne : State :=
  slotOn (fun c => { (((c.setFld (R.DCK_CTL 0) F.DCK_CTL.KIND 1).setFld (R.DCK_RADIO 0) F.DCK_RADIO.CELL_COUNT 8).setFld R.TM_STATE F.TM_STATE.STATE 2) with
    rings := [{ ring64 4 with soft := 1 }, ring64 5]
    fapiArrived := [(0, [(1, -38825756958720000)])] })
/-- Cell 0 is active there, and runs or not. -/
def fapiRuns (r : Bool) : State :=
  fapiOne.withChip ({ fapiOne.chip with cells := [(0, { cellNew 0 cfg0 with running := r })] }.setCellState 0 cellActive)
theorem witness_FapiConfiguresStartsAndStopsCells :
    fapiOne.chip.live = true ∧ (fapiOne.chip.fapiNext 0).map (fun (x : Ring × Nat × Int × Nat) => (x.2.1, x.2.2)) = some (0, -38825756958720000, 1) ∧
    inRange 0 (fapiOne.chip.cellRange 0) = true ∧ live.chip.fapiNext 0 = none ∧ live.chip.live = true ∧
    ((fapiRuns true).chip.fapiNext 0).isSome = true ∧ (tabGet (fapiRuns true).chip.cells 0).map (fun (x : Cell) => x.running) = some true ∧
    (fapiRuns false).chip.cellState 0 = cellActive ∧ (tabGet (fapiRuns false).chip.cells 0).map (fun (x : Cell) => x.running) = some false ∧
    fapiOne.chip.cellState 0 = cellDown ∧ (tabGet fapiOne.chip.cells 0).isNone = true := by decide +kernel
theorem witness_FapiConfiguresStartsAndStopsCells_asks : fapiOne.chip.Asks 0 0 (-38825756958720000) :=
  ⟨⟨{ ring64 4 with soft := 1 }, 1, by decide +kernel⟩, by decide, by decide⟩
theorem witness_FapiConfiguresStartsAndStopsCells_outside :
    let s := fapiOne.withChip (fapiOne.chip.setFld (R.DCK_RADIO 0) F.DCK_RADIO.CELL_COUNT 0)
    s.chip.live = true ∧ (s.chip.fapiNext 0).isSome = true ∧ inRange 0 (s.chip.cellRange 0) = false := by decide
theorem witness_FapiConfiguresStartsAndStopsCells_weight :
    fapiOne.chip.configWeight 0 cfg0 = some 1 ∧ fapiOne.chip.configWeight 0 { cfg0 with mu := 3 } = none := by decide
theorem witness_FapiConfiguresStartsAndStopsCells_admitted : (fapiOne.chip.configured 0 0 cfg0).isSome = true := by decide +kernel

/-- A PUSCH of one block without UCI. -/
def pusch0 : Pusch := ⟨1, 2, false, false, 8, 500, [400], 0, 40, 0, 13⟩
/-- Cell 0 runs with a weight of one eighth. -/
def fapiRunning : State := (fapiRuns true).withChip ((fapiRuns true).chip.setFld (R.CELL_STAT 0) F.CELL_STAT.WEIGHT 1)
theorem witness_FapiSlotRequestsAreChargedAndQueued : fapiRunning.chip.live = true ∧ (fapiRunning.chip.fapiNext 0).isSome = true ∧
    fapiRunning.chip.protected_ 0 = false ∧
    (tabGet fapiRunning.chip.cells 0).map (fun (x : Cell) => (x.running, slotsPerFrame (x.cfg.mu % 4))) = some (true, 10) := by decide
theorem witness_FapiSlotRequestsAreChargedAndQueued_inTime (us : Nat) (h : us ∈ [650, 300]) :
    fapiRunning.chip.AsksInTime 0 0 700 0 { cellNew 0 cfg0 with running := true } us := by
  refine ⟨-38825756958720000, ⟨⟨{ ring64 4 with soft := 1 }, 1, by decide +kernel⟩, by decide +kernel, by decide +kernel⟩, by decide +kernel, rfl, by decide +kernel, ?_⟩
  simp only [List.mem_cons, List.not_mem_nil, or_false] at h
  rcases h with rfl | rfl <;> decide +kernel
set_option maxRecDepth 100000 in
theorem witness_FapiSlotRequestsAreChargedAndQueued_cutoff :
    downCutoff { cellNew 0 cfg0 with running := true } = 650 ∧ uplinkCutoff.at_ 0 = 300 ∧
    fapiRunning.chip.airStart (cellNew 0 cfg0) 600 0 < -38825756958720000 ∧
    64 < (cellNew 0 cfg0).candidates 3 0 + 65 ∧ (cellNew 0 cfg0).candidates 3 0 + 3 ≤ 64 := by decide
set_option maxRecDepth 100000 in
theorem witness_FapiSlotRequestsAreChargedAndQueued_budget :
    iterationsFor [ldpcRows false 400 8] 8 18750 = some 8 ∧ iterationsFor [ldpcRows false 400 8] 8 100 = none ∧
    1 * 937500 < encodeCost [936000] ∧ (occasions (List.replicate 5 (.prach 3))).1 = 5 ∧ (occasions (List.replicate 129 (.pucch 1 0 2 4))).2 = 129 := by
  decide

/-- A decode, on an engine or queued: the last block of a PUSCH of cell 0. -/
def decoding (on : Option Nat) : State :=
  let j : CodeJob := ⟨.decode, 0, 0, 0, 0, 10, true, 8⟩
  slotOn (fun c => (({ c with
    cells := [(0, { cellNew 0 ⟨0, 10, 2, 2, false, 52, [], [], [⟨0xA007, [0, 1, 0, 0, 0, 0, 0, 0]⟩]⟩ with
      running := true
      harq := if on.isNone then [] else [⟨1, 2, 0, [(3, 5)], 4, 0, true⟩]
      work := [⟨0, 2, 1, 2, 700, 0, 13, 1, true, [], none⟩, ⟨1, 5, 1, 0, 700, 0, 13, 1, true, [], none⟩]
      dlWork := [⟨0, some 0, 0, 700, 0, 1, none⟩] })]
    rings := [{ ring64 5 with own := 0 }]
    strips := [(0, match on with
      | none => ⟨[], [j]⟩
      | some e => ⟨[(e, if e < 16 then j else if e < 28 then { j with kind := .encode } else if e < 32 then { j with kind := .polarDecode } else { j with kind := .prach })], []⟩)] } : Chip).setCellState 0 cellActive).setFld (R.CELL_STAT 0) F.CELL_STAT.WEIGHT 1)
theorem witness_CodingStripTakesAndEndsJobs :
    (∀ e ∈ [none, some 0, some 16, some 28, some 32], (decoding e).chip.live = true) ∧ (decoding none).chip.engineOn 0 0 = true ∧
    (decoding none).chip.engineOn 0 36 = false ∧
    tabGet ((decoding none).chip.strip 0).engines 0 = none ∧ ((decoding none).chip.nextJob 0 0).map (fun (j : CodeJob) => j.kind) = some .decode ∧
    (decoding none).chip.nextJob 0 16 = none ∧
    ((decoding none).chip.ulWork ⟨.decode, 0, 0, 0, 0, 10, true, 8⟩).map (fun (x : Cell × UlWork) => (x.1.harq.length, x.2.left)) = some (0, 1) ∧
    0 < harqBuffers ((decoding none).chip.cuOf 0) ∧
    (tabGet ((decoding (some 0)).chip.strip 0).engines 0).map (fun (j : CodeJob) => (j.kind, j.iterations)) = some (.decode, 8) ∧
    (tabGet (decoding (some 0)).chip.cells 0).map (fun (x : Cell) => ((x.buf 1 2 0).isSome, x.running, x.param 0xA007 0)) = some (true, true, 256) ∧
    ((decoding (some 16)).chip.strip 0).engines.map (fun (x : Nat × CodeJob) => (x.1, x.2.kind)) = [(16, .encode)] ∧
    ((decoding (some 28)).chip.strip 0).engines.map (fun (x : Nat × CodeJob) => (x.1, x.2.kind)) = [(28, .polarDecode)] ∧
    ((decoding (some 32)).chip.strip 0).engines.map (fun (x : Nat × CodeJob) => (x.1, x.2.kind)) = [(32, .prach)] ∧
    (tabGet (decoding (some 16)).chip.cells 0).map (fun (x : Cell) => (x.dlWork.length, x.work.length)) = some (1, 2) := by decide

/-- Cell 0 is active on ream 0 with a weight. -/
def oneCell (f : Cell → Cell) : State :=
  liveWith (fun c => (({ c with cells := [(0, f { cellNew 0 ⟨0, 10, 2, 2, false, 52, [], [], []⟩ with running := true })] } : Chip).setCellState 0 cellActive).setFld
    (R.CELL_STAT 0) F.CELL_STAT.WEIGHT 1)
/-- A cooling fault lasts, and its step has passed. -/
def cooling : State :=
  (oneCell id).withChip { (oneCell id).chip with
    power := { (oneCell id).chip.power with cooling := true, junction := 106 }, time := { (oneCell id).chip.time with uptime := 10 ^ 12 } }
/-- Cell 0 is to stop now. -/
def stopping (why : Nat) : State := oneCell (fun x => { x with stop := some (-38825756958720000, why) })
theorem witness_CellsAreWeighedAdmittedAndShed :
    (oneCell id).chip.live = true ∧ cooling.chip.live = true ∧ cooling.chip.power.cooling = true ∧ 100 ≤ cooling.chip.power.junction ∧
    cooling.chip.power.lastShed + cooling.chip.fld R.RADIO_CFG F.RADIO_CFG.THERM_STEP * 10 ^ 7 ≤ cooling.chip.time.uptime ∧
    live.chip.power.cooling = false ∧ (stopping stopShed).chip.live = true ∧ (stopping stopShed).chip.tick = -38825756958720000 ∧
    (∀ w ∈ [stopRelease, stopShed, stopEpoch], (stopping w).chip.tick < 0) ∧ ((oneCell id).chip.sheddable 0) = [0] ∧ (oneCell id).chip.shedNext 0 = some 0 ∧
    (oneCell id).chip.cellState 0 = cellActive ∧ (oneCell id).chip.protected_ 0 = false ∧
    (tabGet (stopping stopShed).chip.cells 0).bind (fun (x : Cell) => x.stop) = some (-38825756958720000, 1) ∧
    (tabGet (oneCell id).chip.cells 0).map (fun (x : Cell) => x.stop) = some none := by decide
theorem witness_CellsAreWeighedAdmittedAndShed_weights :
    weightRow ⟨1, 90, 4, 4, false, 273, [.downlink, .special, .uplink], [], []⟩ = some ⟨true, 1, 100, 4, false, 8⟩ ∧
    bandwidthOk ⟨1, 90, 4, 4, false, 273, [.downlink, .special, .uplink], [], []⟩ = true ∧ cellWeight ⟨0, 3, 2, 2, false, 15, [], [], []⟩ = none ∧
    cellWeight ⟨1, 100, 64, 64, true, 273, [.uplink, .downlink, .special, .special], [], []⟩ = some 60 ∧
    cellWeight ⟨1, 100, 64, 64, true, 273, [.uplink], [], []⟩ = none ∧ cellWeight ⟨0, 20, 2, 2, false, 106, [], [], []⟩ = some 2 := by decide
theorem witness_CellsAreWeighedAdmittedAndShed_admitted : ((oneCell id).chip.admitCell 0 1 cellActive).isSome = true ∧ (tabGet (oneCell id).chip.cells 0).isSome = true := by
  decide +kernel
theorem witness_CellsAreWeighedAdmittedAndShed_fits : ∀ r ∈ live.chip.reamList, (∀ q < 8, live.chip.quireIn (r * 8 + q) = true) ∧ live.chip.emergency r = false ∧
    live.chip.stayingLoad r ≤ (smallest (live.chip.capRows r false)).1 := by decide +kernel

/-- A class 0 task is ready on ream 0, whose sheets are idle. -/
def readyRadio (n : Nat) : State :=
  liveWith (fun c => { c with commands := [{ cmd0 with desc := { desc0 with cls := 0 } }], radioReady := [(0, List.replicate n { task0 with cls := 0 })] })
theorem witness_FloorsAreSetAndClassZeroTakesSheets : live.chip.live = true ∧ live.chip.reaches .host = true ∧ mayReachBar0 .host = true ∧
    live.chip.early .host = false ∧ live.chip.emergency 0 = false ∧ live.chip.reamLoad 0 = 0 ∧
    regFits .FLOOR_CFG (fput (fput (fput 0 F.FLOOR_CFG.FLOOR_SHEETS 16) F.FLOOR_CFG.RADIO_POOL_MIB 2) F.FLOOR_CFG.HBM_RES 8) = true ∧
    fget (fput 0 F.FLOOR_CFG.FLOOR_SHEETS 9) F.FLOOR_CFG.FLOOR_SHEETS = 9 := by decide
/-- The same, while sheet 1 of the quire runs a task of a joined command. -/
def readyJoined : State :=
  liveWith (fun c => ({ c with
    commands := [{ cmd0 with desc := { desc0 with cls := 0 } }, { cmd0 with uid := 4, desc := { desc0 with mode := 2, tasks := 64 } }]
    radioReady := [(0, [{ task0 with cls := 0 }])] } : Chip).setSheetK 2 { c.sheetK 2 with task := some { task0 with cmd := 4 } })
theorem witness_FloorsAreSetAndClassZeroTakesSheets_joined : readyJoined.chip.live = true ∧ (readyJoined.chip.nextRadio 0).isSome = true ∧
    (readyJoined.chip.radioSource 0).map (fun (x : Nat × List Nat) => (x.1, x.2.headD 9)) = some (0, 0) ∧ readyJoined.chip.joinedOn 0 = [2] ∧
    ((readyRadio 1).chip.joinedOn 0).length = 0 := by decide +kernel
theorem witness_FloorsAreSetAndClassZeroTakesSheets_ready : (readyRadio 1).chip.live = true ∧ ((readyRadio 1).chip.radioAt 0).length = 1 ∧
    ((readyRadio 1).chip.nextRadio 0).isSome = true ∧ ((readyRadio 1).chip.radioSource 0).map (fun (x : Nat × List Nat) => x.2.headD 9) = some 0 ∧
    ((readyRadio 1).chip.command 3).isSome = true := by decide +kernel
theorem witness_FloorsAreSetAndClassZeroTakesSheets_kill : (busy id).chip.keyLogical 0 = some 0 ∧ (busy id).chip.quireUp 0 = true ∧
    ((busy id).chip.sourceRank 0).map (fun (x : List Nat) => x.headD 9) = some 3 := by decide +kernel

/-- Cell 0 is active with a live shadow on chip 7, on fabric port 0, and its L2 has freed a buffer. -/
def shadowed0 : State :=
  liveWith (fun c => (((((((({ c with
    cells := [(0, { cellNew 0 ⟨0, 10, 2, 2, false, 52, [], [], []⟩ with running := true, toMirror := [.release 1 2 0] })]
    time := { c.time with uptime := 10 ^ 12 } } : Chip).setCellState 0 cellActive).mark (R.CELL_STAT 0) F.CELL_STAT.PROTECTED).mark (R.CELL_CTL 0) F.CELL_CTL.SHADOW_EN).setFld
    (R.CELL_CTL 0) F.CELL_CTL.SHADOW_CHIP 7).setFld R.RADIO_CFG F.RADIO_CFG.HB_PATHS 1).mark (R.FPORT_STAT 0) F.FPORT_STAT.LINK_UP).mark R.TM_STATE F.TM_STATE.RT_VALID).setFld
    (R.CELL_STAT 0) F.CELL_STAT.WEIGHT 1)
/-- The same cell without its shadow. -/
def unshadowed0 : State := shadowed0.withChip (shadowed0.chip.setFlag (R.CELL_STAT 0) F.CELL_STAT.PROTECTED false)
/-- A radio slot for cells 0 to 7, and cell 0 in standby for chip 7. -/
def shadowSide : State :=
  slotOn (fun c => (((({ c with
    cells := [(0, { cellNew 0 ⟨0, 10, 2, 2, false, 52, [], [], []⟩ with peer := some 7 })] } : Chip).setCellState 0 cellStandby).setFld (R.DCK_CTL 0) F.DCK_CTL.KIND 1).setFld
    (R.DCK_RADIO 0) F.DCK_RADIO.CELL_COUNT 8).mark R.TM_STATE F.TM_STATE.RT_VALID)
theorem witness_CellsStandByAndAreMirrored : shadowed0.chip.live = true ∧ shadowed0.chip.shadowing = true ∧ shadowed0.chip.protected_ 0 = true ∧
    shadowed0.chip.cellState 0 = cellActive ∧ shadowed0.chip.fabUp 0 = true ∧ shadowed0.chip.shadowChips = [7] ∧
    shadowed0.chip.lastHeartbeat + shadowed0.chip.fld R.RADIO_CFG F.RADIO_CFG.HB_PERIOD * 1000 ≤ shadowed0.chip.time.uptime ∧
    unshadowed0.chip.live = true ∧ unshadowed0.chip.protected_ 0 = false ∧ unshadowed0.chip.flag (R.CELL_CTL 0) F.CELL_CTL.SHADOW_EN = true ∧
    (tabGet unshadowed0.chip.cells 0).map (fun (x : Cell) => (x.retryAt, x.stop)) = some (0, none) ∧ unshadowed0.chip.cellState 0 = cellActive ∧
    unshadowed0.chip.fld (R.CELL_CTL 0) F.CELL_CTL.SHADOW_CHIP = 7 ∧
    shadowSide.chip.live = true ∧ shadowSide.chip.cellState 0 = cellStandby ∧ (tabGet shadowSide.chip.cells 0).bind (fun (x : Cell) => x.peer) = some 7 ∧
    shadowSide.chip.cellCounts 3 = false ∧ shadowSide.chip.cellCounts 0 = true ∧
    shadowSide.chip.standby 7 9 0 ⟨0, 10, 2, 2, false, 52, [], [], []⟩ = none := by decide
theorem witness_CellsStandByAndAreMirrored_standby : (shadowSide.chip.standby 7 3 0 ⟨0, 10, 2, 2, false, 52, [], [], []⟩).isSome = true := by decide +kernel
theorem witness_CellsStandByAndAreMirrored_a1 :
    (shadowed0.withChip { shadowed0.chip with ident := { shadowed0.chip.ident with stepping := .a1 } }).chip.shadowing = false := by decide

/-- Chip 7 was heard at the start and never since. -/
def lostPeer (s : State) : State := s.withChip { s.chip with peers := [(7, ⟨0, false⟩)], time := { s.chip.time with uptime := 10 ^ 12 } }
/-- Cell 0 stands at its boundary in a state. -/
def takingOver (st : Nat) : State :=
  shadowed0.withChip (({ shadowed0.chip with
    cells := [(0, { cellNew 0 ⟨0, 10, 2, 2, false, 52, [], [], []⟩ with boundary := some (-38825756958720000 * 2) })] } : Chip).setCellState 0 st)
/-- A sub-port of cell 0 has been down for long. -/
def linkLost : State :=
  shadowed0.withChip (({ shadowed0.chip with
    cells := [(0, { cellNew 0 ⟨0, 10, 2, 2, false, 52, [], [0], []⟩ with running := true })], linkDownAt := [(0, 0)] } : Chip).setFld
      (R.CELL_CTL 0) F.CELL_CTL.LINK_HO 5)
theorem witness_CellsAreTakenOverHandedOverAndReleased :
    (lostPeer shadowed0).chip.live = true ∧ (lostPeer shadowSide).chip.live = true ∧ tabGet (lostPeer shadowSide).chip.peers 7 = some ⟨0, false⟩ ∧
    (lostPeer shadowSide).chip.fld R.RADIO_CFG F.RADIO_CFG.HB_PERIOD * (lostPeer shadowSide).chip.fld R.RADIO_CFG F.RADIO_CFG.HB_MISS * 1000 ≤ 10 ^ 12 ∧
    shadowed0.chip.cellCtlBad 0 = false ∧ shadowed0.chip.cellCounts 0 = true ∧ live.chip.cellCounts 0 = false ∧
    (takingOver cellTaking).chip.live = true ∧ (takingOver cellTaking).chip.cellState 0 = cellTaking ∧ (takingOver cellTaking).chip.rtValid = true ∧
    -38825756958720000 * 2 ≤ (takingOver cellTaking).chip.tick ∧ (takingOver cellHanding).chip.cellState 0 = cellHanding ∧
    (tabGet shadowed0.chip.cells 0).map (fun (x : Cell) => x.stop) = some none ∧ linkLost.chip.live = true ∧
    linkLost.chip.fld (R.CELL_CTL 0) F.CELL_CTL.LINK_HO = 5 ∧ linkLost.chip.cellState 0 = cellActive ∧ linkLost.chip.protected_ 0 = true ∧
    (tabGet linkLost.chip.cells 0).map (fun (x : Cell) => linkLost.chip.cellPaths x) = some [(0, 0, 0)] := by decide

/-- A submission queue with an entry of zeros, and its completion queue. -/
def submitted : State := slotOn (fun c => { c with rings := [{ ring64 0 with soft := 1 }, { ring64 1 with base := 4096 }] })
/-- Context 0 of slot 0: three sheets of quire 0 beyond the floor. -/
def ctx0 (p : CtxPlace) : Context :=
  { slot := 0, footprint := 3, reamMask := 1, joinedCapable := false, poolBytes := 0, place := p, gang := [8, 9, 10], images := [], queued := [],
    blockedSince := none, runnableSince := none, aic := 0, aicOverride := false, couchPages := 1, pools := [], couchStart := 0, evicting := false }
/-- A command of class 1 with four tasks. -/
def cmd4 : Command := { cmd0 with placed := false, desc := { desc0 with ctx := 0, cls := 1, tasks := 4, footprint := 3 } }
/-- The command waits for placement on context 0; the floor of ream 0 has eight sheets. -/
def placing (p : CtxPlace) (cls : Nat) : State :=
  slotOn (fun c => ({ c with commands := [{ cmd4 with desc := { cmd4.desc with cls := cls } }], contexts := [(0, ctx0 p)] } : Chip).setFld (R.FLOOR_CFG 0) F.FLOOR_CFG.FLOOR_SHEETS 8)
/-- Four of its tasks are queued for its second sheet. -/
def stealing : State :=
  (placing .onChip 2).withChip ((placing .onChip 2).chip.setQueueAt 9 ((List.range 4).map (fun i => taskOf { cmd4 with desc := { cmd4.desc with cls := 2 } } i 1)))
theorem witness_CommandsAreFetchedCheckedAndPlaced :
    submitted.chip.live = true ∧ submitted.chip.slotState 0 = 1 ∧ (submitted.chip.ring 0 0 0).map (fun (g : Ring) => (g.own, g.soft, g.stopped, g.deleting)) = some (0, 1, false, false) ∧
    submitted.chip.cqHolds 0 0 = false ∧ live.chip.ring 0 0 0 = none ∧ (placing .onChip 2).chip.live = true ∧ live.chip.command 3 = none ∧
    (placing .onChip 2).chip.mayStart cmd4 = true ∧ cmd4.placed = false ∧ cmd4.ending = none ∧ cmd4.desc.program < builtinFirst ∧
    ((placing .onChip 2).chip.context 0).map (fun (x : Context) => x.place) = some .onChip ∧ ((placing .couched 2).chip.context 0).map (fun (x : Context) => x.place) = some .couched := by
  decide
theorem witness_CommandsAreFetchedCheckedAndPlaced_crc : crcOk (submitted.chip.treadN 0 0 64) 60 = false ∧ crcOk (List.replicate 60 0 ++ bytesLE 4 (crc32c (List.replicate 60 0)).toNat) 60 = true := by
  decide +kernel
theorem witness_CommandsAreFetchedCheckedAndPlaced_steals : stealing.chip.live = true ∧ stealing.chip.flag (R.SCHED_CFG 0) F.SCHED_CFG.STEAL_EN = true ∧
    stealing.chip.freeSheet 16 = true ∧ stealing.chip.queueAt 8 = [] ∧ stealing.chip.keyPos 16 = 8 ∧ stealing.chip.inFloor 0 8 = false ∧
    (stealing.chip.ctxAt 8).map (fun (x : Nat × Context) => x.1) = some 0 ∧ stealing.chip.longest [8, 9, 10] = some 9 ∧
    (stealing.chip.tailHalf (stealing.chip.queueAt 9)).length = 2 ∧ stealing.chip.flag (R.SCHED_CFG 0) F.SCHED_CFG.MOVE_EN = true := by decide +kernel

/-- Slot 0 has built-in command n, or with 1 an ordinary one whose task has committed and drained; output slot 0 has 64 bytes in host memory, with its completion queue behind. -/
def built (n plain : Nat) : State :=
  slotOn (fun c => ({ c with
    commands := [{ cmd0 with
      placed := false, source := .sq 0 0 7 1, tensors := List.replicate 16 ⟨0, 64, 0, false⟩, committed := if plain = 1 then [0] else [], drained := plain,
      desc := { desc0 with program := if plain = 1 then 1 else builtinFirst + n, ctx := 0xFFFF, deadline := 1, flags := 16, token := 5, params := [0, 1, 0] } }]
    rings := [{ ring64 1 with base := 4096 }]
    time := { c.time with chip := 10 ^ 9 } } : Chip).setFld (R.DCK_QUOTA 0) F.DCK_QUOTA.T2_GIB 1)
theorem witness_CommandsEndAndBuiltinsRun :
    (∀ n < 8, (built n 0).chip.live = true ∧
      ((built n 0).chip.command 3).map (fun (k : Command) => (k.desc.program == 0xFFFFFF00 + n, k.ending.isNone, (built n 0).chip.mayStart k)) = some (true, true, true)) ∧
    ((built 1 1).chip.command 3).map (fun (k : Command) => (k.drained, k.committed.length, k.desc.tasks, k.fabricOpen)) = some (1, 1, 1, 0) ∧
    ((built 1 1).chip.command 3).map (fun (k : Command) => (k.partials.length, k.deferred.length, k.source)) = some (0, 0, .sq 0 0 7 1) ∧
    (built 1 1).chip.slotState 0 = 1 ∧ ((built 1 1).chip.ring 0 1 0).map (fun (g : Ring) => (g.full, g.held.length)) = some (false, 0) ∧
    live.chip.command 3 = none ∧ (built 4 0).chip.context 0xFFFF = none ∧ (built 2 0).chip.programs.length = 0 ∧ ((built 7 0).chip.jobAt 0).isNone = true := by decide
theorem witness_CommandsEndAndBuiltinsRun_late : ((built 1 1).chip.command 3).map (fun (k : Command) =>
    (k.desc.cls, decide (k.desc.deadline < (built 1 1).chip.taiNs), k.desc.flags.testBit 4)) = some (1, true, true) := by decide +kernel
theorem witness_CommandsEndAndBuiltinsRun_create : ((built 3 0).chip.newContext { slot := 0, footprint := 1, reamMask := 1, joinedCapable := false, poolBytes := 0, place := .onChip, gang := [], images := [], queued := [], blockedSince := none, runnableSince := none, aic := 0, aicOverride := false, couchPages := 0, pools := [], couchStart := 0, evicting := false }).isSome = true := by
  decide +kernel

/-- A context of one sheet that is on its way, with one queued task where it is off chip. -/
def couching (p : CtxPlace) : State :=
  let t : Task := ⟨3, 0, 0, 0, 0, 2, 0⟩
  slotOn (fun c => ({ c with commands := [{ cmd0 with desc := { desc0 with ctx := 0, cls := 2 } }], contexts := [(0, { slot := 0, footprint := 1, reamMask := 1, joinedCapable := false, poolBytes := 0, place := p, gang := if p = .couched then [] else [8], images := [], queued := if p = .couched then [t] else [], blockedSince := none, runnableSince := none, aic := 0, aicOverride := false, couchPages := 1, pools := [], couchStart := 0, evicting := false })] } : Chip).setFld (R.FLOOR_CFG 0) F.FLOOR_CFG.FLOOR_SHEETS 8)
theorem witness_ContextsCouchOutAndInAndSwap : (∀ p ∈ [CtxPlace.onChip, .couchingOut, .couched, .couchingIn], (couching p).chip.live = true ∧
      ((couching p).chip.context 0).map (fun (x : Context) => x.place) = some p) ∧
    live.chip.context 0 = none ∧ (couching .couchingOut).chip.swaps = [] ∧ (couching .couchingOut).chip.undrained 0 = false ∧
    (couching .couched).chip.flag (R.SCHED_CFG 0) F.SCHED_CFG.SWAP_EN = true ∧ tabGet (couching .couched).chip.swaps 0 = none := by decide
theorem witness_ContextsCouchOutAndInAndSwap_gang : ((couching .couchingOut).chip.context 0).map (fun (x : Context) => ((couching .couchingOut).chip.gangKeys x)) = some [(0, 8, 16)] ∧
    ((couching .couchingOut).chip.sheetK 16).savable 0 = true ∧ ((couching .couched).chip.noteBlocked.runnableOff 0).length = 1 ∧
    (((couching .couched).chip.context 0).bind (fun (x : Context) => (couching .couched).chip.findGang x [])) = some [8] := by decide +kernel

theorem witness_ScalarInstructionsOfTheControlCore : (busy id).chip.AtRest sheet0 task0 cmd0 ∧ cmd0.ending = none := by unfold Chip.AtRest; decide
theorem witness_ScalarInstructionsOfTheControlCore_words :
    rvWord (BitVec.ofNat 32 (encI 0x13 0 5 0 9)) = some (encI 0x13 0 5 0 9, 4) ∧ fxOpcode (encI 0x13 0 5 0 9) = false ∧ rvWord 0x4515 = some (encI 0x13 0 10 0 5, 2) ∧
    rvWord 0 = none ∧ fxOpcode 0x0B = true ∧ (fxDecode sheet0 0x0B).isSome = true ∧ fxDecode sheet0 0xFC00000B = none ∧ rvWord 0xFC00000B = some (0xFC00000B, 4) ∧
    rvWord 0x0B = some (0x0B, 4) ∧ rvWord 0x73 = some (0x73, 4) ∧ fxOpcode 0x73 = false ∧ feltOk 0 4 = true ∧ feltOk 0x60000 4 = false := by decide
theorem witness_ScalarInstructionsOfTheControlCore_runs :
    (match rvExec ((busy id).chip.fxCtxAt sheet0 task0 cmd0) ((busy id).chip.sheet sheet0) (encI 0x13 0 5 0 9) 4 with | .ok sh => sh.x 5 | _ => 0) = 9 ∧
    (match rvExec ((busy id).chip.fxCtxAt sheet0 task0 cmd0) ((busy id).chip.sheet sheet0) 0x73 4 with | .trap c => c | _ => 0) = trScalar := by decide

/-- A sequence of 70 tokens in two pages whose descriptor stands at address 0: the list at 128, the objects at 4096 and 16384. -/
def seq0 : SeqDesc := ⟨0, 6, 1, 32, 1, 1, 2, 70, 0, 2, 0, 128, 144, 0, List.replicate 32 0⟩
/-- Slot 0 has the sequence in its memory, as slot 0 of the tensors of its command. -/
def withSeq (c : Chip) (q : SeqDesc) (state : Nat) (m : Command) : Chip :=
  let c : Chip := { c with commands := [{ m with tensors := [⟨0, 2097152, 0, false⟩] }], pages := [(0, ⟨2, true, true, false, false, false, false, 0, .t2 0, 0, 0⟩)] }
  let c := (((c.setFld (R.WIN0 0 0) F.WIN0.SIZE_GIB 1).setFld (R.WIN0 0 0) F.WIN0.TYPE 1).mark (R.WIN0 0 0) F.WIN0.READ).mark (R.WIN0 0 0) F.WIN0.WRITE
  let bs := bytesLE 2 1 ++ bytesLE 1 q.pageLog2 ++ bytesLE 1 q.heads ++ bytesLE 2 q.dim ++ bytesLE 1 q.kfmt ++ bytesLE 1 q.vfmt ++ bytesLE 4 0 ++ bytesLE 2 q.ropeDim ++
    bytesLE 10 0 ++ bytesLE 4 q.pages ++ bytesLE 4 0 ++ bytesLE 8 q.pageList ++ bytesLE 8 q.ropeTab ++ List.replicate 80 0
  ((c.tput 0 0 bs).tput 0 128 (bytesLE 8 (4096 + state) ++ bytesLE 8 (16384 + state))).writeSeq 0 q 0
/-- The first sheet's engine request 5 of a kind with these body words. -/
def engineAsking (kind : Nat) (ws : List W32) : State :=
  let s := busy (fun sh => { sh with dma := [⟨5, kind, bodyOf ws, [], 0, false, 7, false, [], none, none⟩] })
  s.withChip (withSeq s.chip seq0 1 cmd0)
/-- The quire's walk slot 0 belongs to the sheet: two pages, none selected. -/
def walking (mode kind : Nat) (ws : List W32) : State :=
  (engineAsking kind ws).withChip ((engineAsking kind ws).chip.setWalkSlot 0 0 (some ⟨sheetKey sheet0, task0, 0, 70, 6, 1, 32, 1, 1, [4096, 16384], [], 1, mode, 4, 0, 1, 0, []⟩))
theorem witness_EngineRequestsAreServedWithResultBlocks :
    (∀ k ∈ [0x40, 0x41, 0x42, 0x43, 0x44, 0x48, 0x49], (engineAsking k [0, 0, 0, 4]).chip.live = true ∧ ((engineAsking k []).chip.engineReq sheet0 5 k).isSome = true ∧
      (engineAsking k []).chip.engineReq sheet0 6 k = none) ∧
    (engineAsking 0x42 []).chip.stepBefore 0 7 = false ∧ (engineAsking 0x42 []).chip.walkSlot 0 0 = none ∧ (walking 0 0x43 []).chip.walkSlot 0 0 ≠ none ∧
    (engineAsking 0x41 []).chip.freeWalkSlot 0 = some 0 := by decide +kernel
set_option maxRecDepth 100000 in
theorem witness_EngineRequestsAreServedWithResultBlocks_sequence :
    ((engineAsking 0x40 []).chip.readSeq 0 0).map (fun q => (q.tokens, q.pages, q.heads)) = some (70, 2, 1) ∧
    (engineAsking 0x40 []).chip.readSeq 0 4096 = none ∧ (engineAsking 0x40 []).chip.readEnd 0 144 8 = .ok ∧ (engineAsking 0x41 []).chip.readEnd 0 128 16 = .ok ∧
    ((engineAsking 0x41 []).chip.pageEntry 0 seq0 1) = (16384, 1) := by decide +kernel
theorem witness_EngineRequestsAreServedWithResultBlocks_query :
    feltOk 0 128 = true ∧ (∀ l ∈ linesOf 0 128, ((engineAsking 0x41 []).chip.sheet sheet0).ready l = true) := by decide +kernel
theorem witness_EngineRequestsAreServedWithResultBlocks_sampler :
    (engineAsking 0x48 []).chip.samplerNext 0 1 7 = true ∧ sampleBad (sampleArgs (bodyOf [0, 0, 4, 0, 0, 0x3F800000])) [[(0, 0)]] = false ∧
    sampleBad (sampleArgs (bodyOf [0, 0, 4, 0, 0, 0x3F800000])) [[]] = true ∧ (f32 (sampleArgs (bodyOf [0, 0, 4, 0, 0, 0x3F800000])).temp).isZero = true ∧
    (f32 (sampleArgs (bodyOf [0, 0, 4, 0, 0x3F800000, 0x3F800000])).temp).isZero = false ∧ (engineAsking 0x48 []).chip.samplerNext 0 2 7 = false := by decide +kernel
theorem witness_EngineRequestsAreServedWithResultBlocks_rows :
    (match (engineAsking 0x48 [0, 0, 4]).chip.rowsOf sheet0 task0 (bodyOf [0, 0, 4]) 0 1 with
      | .inl (some [r]) => r.length == 4
      | _ => false) = true := by decide +kernel

/-- The command of slot 0 has committed and drained, and this action heads its deferred list; the pages of its sequence stand in a state. -/
def acting (kind state : Nat) (ws : List W32) : State :=
  liveWith (fun c => withSeq ((c.setFld R.TIER_CFG F.TIER_CFG.PFX_T2_GIB 1).setFld R.TIER_CFG F.TIER_CFG.PFX_T3_GIB 1) seq0 state
    { cmd0 with committed := [0], drained := 1, deferred := [⟨kind, bodyOf ws, 0⟩] })
theorem witness_CompletionActionsChangeSequencesPoolAndWeights :
    (∀ k ∈ [0x50, 0x51, 0x52, 0x53, 0x54], (acting k 1 [0, 10]).chip.live = true ∧ ((acting k 1 [0, 10]).chip.headDeferred 3 k).isSome = true ∧ (acting k 1 [0, 10]).chip.headDeferred 4 k = none) := by decide +kernel
set_option maxRecDepth 100000 in
theorem witness_CompletionActionsChangeSequencesPoolAndWeights_sequence :
    ((acting 0x50 1 [0, 10]).chip.readSeq 0 0).map (fun q => (q.tokens, q.pages)) = some (70, 2) ∧ (acting 0x50 1 [0, 10]).chip.readSeq 0 4096 = none ∧
    (acting 0x50 1 [0, 10]).chip.appendErr 0 seq0 10 = 0 ∧ (acting 0x50 1 [0, 10]).chip.appendErr 0 seq0 100 = 2 ∧ (acting 0x50 1 [0, 10]).chip.appendErr 0 seq0 (2 ^ 32) = 3 := by decide +kernel
set_option maxRecDepth 100000 in
theorem witness_CompletionActionsChangeSequencesPoolAndWeights_pool :
    ((acting 0x51 2 [0, 0, 1]).chip.pageEntry 0 seq0 0).2 = 2 ∧ (acting 0x51 2 [0, 0, 1]).chip.pfxFind 0 [] seq0 = none ∧
    (acting 0x51 2 [0, 0, 1]).chip.pfxRoom 0 4096 8192 = true ∧ (acting 0x54 3 [0]).chip.covered 0 0 64 (some 3) = false ∧
    (acting 0x54 3 [0]).chip.poisoned 0 0 64 = false ∧ freeWeight [] = some 0 := by decide +kernel
/-- The command is watermarked. -/
def watermarked : State :=
  (acting 0x54 3 [0]).withChip ((acting 0x54 3 [0]).chip.updCommand 3 (fun k => { k with desc := { k.desc with flags := 1 } }))
set_option maxRecDepth 100000 in
theorem witness_CompletionActionsChangeSequencesPoolAndWeights_digest :
    ((watermarked.chip.command 3).map (fun k => (watermarked.chip.digestSlots k, k.desc.flags.testBit 0, k.digests.length, k.ending.isNone))) = some ([0], true, 0, true) := by decide +kernel

theorem witness_MappingOperationsRunAsStaged :
    (∀ k ∈ [0, 1, 2, 3], (mapping k).chip.live = true) ∧ (mapping 0).chip.reaches .host = true ∧ mayReachBar0 .host = true ∧ (mapping 0).chip.early .host = false ∧
    ((mapping 0).chip.supersede .host).flag R.MAP_STAT F.MAP_STAT.BUSY = false ∧ (mapping 2).chip.flag R.MAP_STAT F.MAP_STAT.BUSY = true ∧
    ((mapping 1).chip.pageAt 0 4096).isSome = true := by decide +kernel
theorem witness_MappingOperationsRunAsStaged_operation :
    let m := (mapping 0).chip.stagedMap 1 1
    m.op = 1 ∧ m.va = 4096 ∧ m.count = 1 ∧ (mapping 0).chip.opErr m = 0 ∧ (mapping 0).chip.removes m = false ∧
    (mapping 1).chip.opErr m = 2 ∧ (mapping 1).chip.removes { m with op := 2 } = true ∧ (mapping 1).chip.opErr { m with op := 2 } = 0 ∧
    ((mapping 1).chip.pageExact 0 0 4096).isSome = true := by decide +kernel
theorem witness_MappingOperationsRunAsStaged_waiting :
    ((mapping 2).chip.mapRun.map (fun m => ((mapping 2).chip.runReady m, m.cmd))) = some (true, none) ∧ ((mapping 3).chip.mapRun.map (fun m => (mapping 3).chip.runReady m)) = some false ∧
    (mapping 3).chip.covered 0 4096 4096 none = true := by decide +kernel

/-- One sealed page in a tier, and a deferred tier request over it at the head of the command's list. -/
def tiering (kind : Nat) : State :=
  (mapping 1).withChip (({ (mapping 1).chip with
    commands := [{ cmd0 with tensors := [⟨4096, 4096, 0, false⟩], committed := [0], drained := 1, deferred := [⟨kind, bodyOf [0, 0, 0, 0, 4096], 0⟩] }]
    pages := [(4096, ⟨0, true, true, true, false, false, false, 7, .t2 0, 9, 0⟩)] } : Chip))
theorem witness_TierRequestsAreRecordedAndPagesMigrate :
    (∀ k ∈ [0x58, 0x59, 0x5A], (tiering k).chip.live = true ∧ ((tiering k).chip.headDeferred 3 k).isSome = true ∧ (tiering k).chip.headDeferred 4 k = none) ∧
    (tiering 0x58).chip.mapRun = none ∧ (tiering 0x58).chip.covered 0 4096 4096 (some 3) = false ∧ (tiering 0x58).chip.covered 0 4096 4096 none = true ∧
    ((tiering 0x58).chip.wholePages 0 4096 4096).map List.length = some 1 ∧ (tiering 0x58).chip.wholePages 0 4096 64 = none := by decide +kernel
/-- The page's copy to T2 of ream 1 runs. -/
def migrating : State := (tiering 0x5A).withChip ((tiering 0x5A).chip.startMigration 4096 (.t2 1))
theorem witness_TierRequestsAreRecordedAndPagesMigrate_migration :
    migrating.chip.live = true ∧ (migrating.chip.migrations.find? (fun g => g.key == devKey 0 4096)).isSome = true ∧
    (tabGet migrating.chip.pages (devKey 0 4096)).map (fun p => (migrating.chip.pagePoisoned 4096 p, ({ migrating.chip with migrations := [] } : Chip).destOk 0 p (.t2 1))) = some (false, true) ∧
    (∀ h < 8, migrating.chip.flag (R.HOST_POOL_STAT h) F.HOST_POOL_STAT.DRAINING = false) ∧ (∀ w < 16, migrating.chip.borrowState w ≠ 3) := by decide +kernel
theorem witness_TierRequestsAreRecordedAndPagesMigrate_registers :
    regFits .TIER_CFG 0x0400000000000000 = true ∧ regFits .TIER_CFG 0 = false ∧ live.chip.reamLoad 0 = 0 ∧ (busy (fun sh => { sh with dma := [⟨5, 0, [], [], 0, false, 7, false, [], none, none⟩] })).chip.live = true ∧
    fget (regWrite .HOST_POOL 0 1) F.HOST_POOL.ENABLE = 1 ∧ fget (regWrite .HOST_POOL 0 1) F.HOST_POOL.SIZE_GIB = 0 := by decide +kernel

/-- Window 3 of 1 GiB lent and borrowed in these states, with recall deadlines that have come where it is recalled. -/
def lending (l b : Nat) : State :=
  liveWith (fun c =>
    let c := ((((c.setFld (R.LEND_WIN0 3) F.LEND_WIN0.SIZE_GIB 1).setFlag (R.LEND_WIN0 3) F.LEND_WIN0.ENABLE (l != 0)).setFld (R.LEND_STAT 3) F.LEND_STAT.STATE l).setFld
      (R.BORROW_WIN0 3) F.BORROW_WIN0.SIZE_GIB 1).setFlag (R.BORROW_WIN0 3) F.BORROW_WIN0.ENABLE (b != 0)
    { c.setFld (R.BORROW_STAT 3) F.BORROW_STAT.STATE b with
      lend := if l = 3 then [(3, ⟨some 0, [], []⟩)] else []
      borrow := if b = 3 then [(3, ⟨some 0, [], []⟩)] else [] })
theorem witness_WindowsAreLentBorrowedAndRecalled :
    (∀ k ∈ [0, 1, 2, 3], (lending k k).chip.live = true ∧ (lending k k).chip.lendState 3 = k ∧ (lending k k).chip.borrowState 3 = k) ∧ (lending 0 0).chip.reaches .host = true ∧
    ((lending 0 0).chip.supersede .host).early .host = false ∧ mayReachBar0 .host = true ∧ (lending 0 0).chip.t2Free ≥ 2 ^ 30 ∧
    (lending 2 2).chip.flag (R.LEND_WIN0 3) F.LEND_WIN0.RECALL = false ∧ (lending 2 2).chip.windowHolds 3 = false ∧
    (lending 3 3).chip.borrowDeadline 3 = some 0 ∧ ((lending 3 3).chip.lendWin 3).deadline = some 0 ∧ (lending 3 3).chip.taiNs = 0 := by decide +kernel

/-- Slot 3 in a state, its key words staged; a draining one has begun to drain. -/
def slots (k : Nat) : State :=
  liveWith (fun c =>
    let c := (c.setFld (R.TEN_STAT 3) F.TEN_STAT.STATE k).setFld (R.DCK_CTL 3) F.DCK_CTL.DEF_DEADLINE 1000
    let c := (List.range 8).foldl (fun (d : Chip) i => d.setReg (R.KEY_C 3 i) (~~~ 0)) c
    if k = 2 then { c with drains := [⟨3, 0⟩] } else c)
theorem witness_SlotsDecklesKeysAndSlicesFollowTheirRules :
    (∀ k ∈ [0, 1, 2], (slots k).chip.live = true ∧ (slots k).chip.slotState 3 = k ∧ (slots k).chip.early .host = false) ∧ (slots 0).chip.reaches .host = true ∧
    mayReachBar0 .host = true ∧ (slots 0).chip.keyStaged 3 = true ∧ live.chip.keyStaged 3 = false ∧ (slots 2).chip.commands.length = 0 ∧ (slots 2).chip.quires.length = 0 ∧
    (slots 2).chip.drains.any (fun d => d.slot == 3) = true := by decide +kernel
theorem witness_SlotsDecklesKeysAndSlicesFollowTheirRules_checks :
    (slots 0).chip.deckleErr 3 .ctl (regWrite .DCK_CTL 0 (fput ((slots 0).chip.reg (R.DCK_CTL 3)) F.DCK_CTL.ENABLE 1)) 0 = 0 ∧
    (slots 1).chip.deckleErr 3 .ctl (regWrite .DCK_CTL 0 (fput ((slots 1).chip.reg (R.DCK_CTL 3)) F.DCK_CTL.RELEASE 1)) 0 = 0 ∧
    (slots 0).chip.deckleErr 3 .quota (BitVec.ofNat 64 (2 ^ 52)) 0 = 0 ∧ (slots 0).chip.deckleErr 3 .quota (BitVec.ofNat 64 (4000 * 2 ^ 52)) 0 = 6 ∧
    (slots 0).chip.sliceErr 9 0 = 0 := by decide +kernel

/-- A submission queue of 64 entries is staged on slice 2: 0 not yet made, 1 made, 2 being deleted. -/
def ringMaking (k : Nat) : State :=
  let v1 : W64 := fput 0 rsLog2 6
  slotOn (fun c =>
    let c := ((c.setFld (R.DCK_LIMITS 0) F.DCK_LIMITS.SQ_MAX 4).mark (R.WIN0 0 0) F.WIN0.READ).setReg (R.RING_STAGE 2 1) v1
    let c := (c.setReg (R.RING_STAGE 2 2) (~~~ 0)).setReg (R.RING_STAGE 2 3) (~~~ v1)
    if k = 0 then c else { c with rings := [{ ring64 0 with stage1 := v1, deleting := k == 2 }] })
theorem witness_RingsAreMadeDeletedAndReadBack :
    (∀ k ∈ [0, 1, 2], (ringMaking k).chip.live = true ∧ (ringMaking k).chip.reaches (.slice 2) = true) ∧ (ringMaking 0).chip.sliceOn 2 = true ∧ (ringMaking 0).chip.early .host = false ∧
    (ringMaking 0).chip.ringStaged 2 = true ∧ live.chip.ringStaged 2 = false ∧ (ringMaking 0).chip.ringErr 0 0 ((ringMaking 0).chip.reg (R.RING_STAGE 2 1)) = 0 ∧
    (ringMaking 1).chip.ringErr 0 0 ((ringMaking 1).chip.reg (R.RING_STAGE 2 1)) = 3 ∧ ((ringMaking 1).chip.ring 0 0 0).isSome = true ∧ (ringMaking 2).chip.sqBusy 0 0 = false ∧
    live.chip.flag (R.DIRTY_STAT 0) F.DIRTY_STAT.BUSY = false := by decide +kernel

/-- The host's mailbox 1 holds a word, firmware has one for it, and the host holds lock 3. -/
def posted (w : Nat) : State :=
  liveWith (fun c => { c.setReg (mbxOut .host 1) (BitVec.ofNat 64 (2 ^ 63 + w)) with mbxQueue := [(1, [9])], locks := [(3, ⟨1, false⟩), (4, ⟨0, true⟩)] })
theorem witness_MailboxesAndLocksPassWords :
    (posted 7).chip.live = true ∧ (posted 7).chip.reaches .host = true ∧ (posted 7).chip.mbxSide .host = some .host ∧ (posted 7).chip.mbxSide .firmware = none ∧
    (posted 7).chip.flag (mbxOut .host 1) F.MBX_OUT.FULL = true ∧ live.chip.flag (mbxOut .host 1) F.MBX_OUT.FULL = false ∧
    (posted 7).chip.flag (mbxIn .host 1) F.MBX_IN.FULL = false ∧ tabGetD (posted 7).chip.mbxQueue (mbxKey .host 1) [] = [9] ∧
    (posted 7).chip.sharedOpen .host 3 = true ∧ live.chip.sharedOpen (.slice 5) 3 = false ∧ (posted 7).chip.lock 3 = ⟨1, false⟩ ∧ (posted 7).chip.lock 4 = ⟨0, true⟩ ∧
    (posted 7).chip.ownerNumber .host = 1 ∧ (posted 7).chip.early .host = false := by decide +kernel

/-- Port F1 is up with a flit to replay, port F2 trains, and a job is staged. -/
def fabricUp : State :=
  liveWith (fun c =>
    let c := ((((c.mark R.FAB_CFG F.FAB_CFG.FAB_EN).mark (R.FPORT_STAT 1) F.FPORT_STAT.LINK_UP).mark (R.FPORT_CFG 1) F.FPORT_CFG.ENABLE).mark (R.FPORT_CFG 2) F.FPORT_CFG.ENABLE).setReg
      (R.TAB_STAGE 0) (BitVec.ofNat 64 (7 * 2 ^ 32 + 1))
    let c := (c.setReg (R.TAB_STAGE 2) (~~~ (BitVec.ofNat 64 (7 * 2 ^ 32 + 1)))).setReg (R.TAB_STAGE 3) (~~~ 0)
    { c with fabPorts := [(1, { fabPortReset with replay := [⟨4, 1⟩] }), (2, { fabPortReset with retrain := some 0 })] })
theorem witness_FabricLinksCarryFlitsAndTablesAreWritten :
    fabricUp.chip.live = true ∧ fabricUp.chip.fabUp 1 = true ∧ fabricUp.chip.fabUp 2 = false ∧ (fabricUp.chip.fport 1).replay.length = 1 ∧
    fabricUp.chip.portExists 6 = true ∧ (fabricUp.chip.fport 2).retrain = some 0 ∧ fabricUp.chip.reaches .host = true ∧ mayReachBar0 .host = true ∧
    (fabricUp.chip.supersede .host).early .host = false ∧ fabricUp.chip.tabStaged = true ∧ live.chip.tabStaged = false ∧ fabricUp.chip.chipId ≠ 5 := by decide +kernel
/-- Window and queue words of job 7 over a GiB that slot 0 has mapped. -/
def tabled : State := fabricUp.withChip (({ fabricUp.chip with pages := [(0, ⟨3, true, true, false, false, false, false, 0, .t2 0, 0, 0⟩)] }.setFld
  (R.WIN0 0 0) F.WIN0.TYPE 1).setFld (R.WIN0 0 0) F.WIN0.SIZE_GIB 1)
theorem witness_FabricLinksCarryFlitsAndTablesAreWritten_memory :
    tabled.chip.deviceCovered 0 0 2097152 = true ∧ fabricUp.chip.deviceCovered 0 0 2097152 = false ∧
    tabled.chip.rxMemOk 0 0 16384 = true ∧ fabricUp.chip.rxMemOk 0 0 16384 = false := by decide +kernel

/-- Job 7 of chip 3 may read, write and add to a window of 2 MiB of slot 0, whose key 0 is 9; receive queue 4 of 4 entries of 256 bytes at 16384. -/
def fabReceiving : State :=
  liveWith (fun c =>
    let c := ((((c.setFld (R.WIN0 0 0) F.WIN0.TYPE 1).setFld (R.WIN0 0 0) F.WIN0.SIZE_GIB 1).mark (R.WIN0 0 0) F.WIN0.READ).mark (R.WIN0 0 0) F.WIN0.WRITE).setFld (R.DCK_FAB 0 0) F.DCK_FAB.KEY_2f 9
    { c with
      jobs := [(0, ⟨BitVec.ofNat 64 (7 * 2 ^ 32 + 1), false, [], [], []⟩)]
      windows := [(2, ⟨0, BitVec.ofNat 64 (7 * 2 ^ 32 + 15 * 2 ^ 20 + 1), 0⟩)]
      rxqs := [(4, ⟨BitVec.ofNat 64 16384, BitVec.ofNat 64 (7 * 2 ^ 32 + 2 * 2 ^ 20 + 8 * 2 ^ 15 + 1), 0, 0, 0, [], []⟩)]
      pages := [(0, ⟨2, true, true, false, false, false, false, 0, .t2 0, 0, 0⟩)] })
/-- A request of it under its key. -/
def fabAsking (op : FabricOp) : FabricRequest :=
  ⟨3, 1, 5, 7, (match op with
    | .message _ _ _ => 4
    | _ => 2), 9, op⟩
/-- A store waits in ream 0. -/
def receiving2 : State := fabReceiving.withChip (fabReceiving.chip.setIngress 0 [⟨(3, 4), 7, 0, 64, .store 0 [8, 8, 8], []⟩])
/-- An addition waits in ream 0. -/
def receivingAdd : State := fabReceiving.withChip (fabReceiving.chip.setIngress 0 [⟨(3, 4), 7, 0, 64, .atomic 0 3 5 0, []⟩])
/-- A message of two bytes has its slot. -/
def receivingMsg : State := fabReceiving.withChip (fabReceiving.chip.setRxq 4 { (fabReceiving.chip.rxqs.map (fun x => x.2)).headD ⟨0, 0, 0, 0, 0, [], []⟩ with
  reserved := [⟨0, 7, 7, 2, 5, 6, 0, false⟩] })
theorem witness_FabricReceiverChecksAppliesAndAcknowledges :
    fabReceiving.chip.live = true ∧ tabGetD fabReceiving.chip.incarnations 3 0 ≤ (fabAsking (.read 0 4)).inc.toNat ∧
    (fabReceiving.chip.jobAt 7).map (fun x => x.2.torn) = some false ∧ (fabReceiving.chip.jobAt 8).isNone = true ∧ fabReceiving.chip.fabKey 0 0 = 9 ∧
    (tabGet fabReceiving.chip.windows 2).map (fun w => (fget w.v1 ⟨20, 1⟩, fget w.v1 ⟨21, 1⟩, fget w.v1 ⟨22, 1⟩, fget w.v1 ⟨23, 1⟩, fget w.v1 ⟨0, 16⟩)) = some (1, 1, 1, 1, 1) ∧
    fabReceiving.chip.check 0 64 4 true = .ok ∧ fabReceiving.chip.check 0 2097152 4 true ≠ .ok ∧ fabReceiving.chip.poisoned 0 64 4 = false ∧
    (fabReceiving.chip.rxq 4).map (fun x => (x.on, fget x.v1 ⟨20, 4⟩, fget x.v1 ⟨15, 5⟩)) = some (true, 2, 8) ∧ fabReceiving.chip.rxq 5 = none := by decide +kernel
theorem witness_FabricReceiverChecksAppliesAndAcknowledges_buffer :
    receiving2.chip.live = true ∧ (receiving2.chip.ingressAt 0).length = 1 ∧ fabReceiving.chip.ingressAt 0 = [] ∧ (receivingAdd.chip.ingressAt 0).length = 1 ∧
    ((mergeStore 0 ⟨(3, 5), 7, 66, [3]⟩ (receiving2.chip.ingressAt 0)).map List.length) = some 1 ∧
    mergeStore 0 ⟨(3, 5), 7, 66, [3]⟩ (receivingAdd.chip.ingressAt 0) = none := by decide +kernel
theorem witness_FabricReceiverChecksAppliesAndAcknowledges_messages :
    receivingMsg.chip.live = true ∧ (receivingMsg.chip.rxq 4).map (fun x => x.reserved.map (fun r => (r.src, r.length, r.written))) = some [(7, 2, false)] ∧
    (fabReceiving.chip.rxq 4).map (fun x => x.reserved.length) = some 0 := by decide +kernel

/-- A record of job 7 for the part itself. -/
def record7 (uid op : Nat) (st : RecState) : FabRec := ⟨uid, 3, 0, 0, 7, 0, op, 2, 0, 4, 0, true, 0, 9, 2, 0, 0, 0, [1, 2], 0, st, 0, 0⟩
/-- A message, a FENCE and a store of one source, at an uptime of 10 ms. -/
def fabSending : State :=
  liveWith (fun c => ({ c with commands := [{ cmd0 with fabricOpen := 3 }], time := { c.time with uptime := 10000000 } } : Chip).setEngine 0
    [record7 1 3 .queued, record7 2 4 .queued, record7 3 1 .queued])
/-- One record, which awaits an answer, is sent, waits, or stands alone. -/
def sendingOne (op : Nat) : State := fabSending.withChip (fabSending.chip.setEngine 0 [record7 1 op .reserving, record7 2 op .sent, record7 3 op (if op = 5 then .queued else .waiting 5)])
theorem witness_FabricSenderSendsCompletesAndGivesUp :
    fabSending.chip.live = true ∧ fabSending.chip.record 0 9 = none ∧ (fabSending.chip.record 0 1).map (fun r => (r.op, r.state)) = some (3, .queued) ∧
    fabSending.chip.sendPort 0 = some 6 ∧ fabSending.chip.sendPort 8 = none ∧ fabSending.chip.maySend 6 1 (flitsOf 0) 0 2 (flitsOf 0) = true ∧
    (fabSending.chip.record 0 2).map (fun r => r.op) = some 4 ∧ (fabSending.chip.engine 0).length = 3 ∧
    (sendingOne 3).chip.live = true ∧ ((sendingOne 3).chip.record 0 1).map (fun r => r.state) = some .reserving ∧
    ((sendingOne 2).chip.record 0 2).map (fun r => (r.op, r.resEn, r.state)) = some (2, true, .sent) ∧
    ((sendingOne 3).chip.record 0 3).map (fun r => r.state) = some (.waiting 5) ∧ (sendingOne 3).chip.time.uptime = 10000000 ∧
    (sendingOne 3).chip.fld R.FAB_CFG F.FAB_CFG.RETRY_LIMIT = 16 ∧ (sendingOne 3).chip.fld R.FAB_CFG F.FAB_CFG.DEAD_TIMEOUT = 2000 ∧
    ((sendingOne 3).chip.command 3).map (fun k => k.ending) = some none ∧ ((sendingOne 5).chip.record 0 3).map (fun r => (r.op, r.state)) = some (5, .queued) := by
  decide +kernel
/-- The first sheet has a remote read, gather or peek under way. -/
def reading (kind : Nat) (sent : Option (Nat × Nat)) : Chip :=
  { (busy (fun sh => { sh with dma := [⟨5, kind, bodyOf [0, 0, 0, 0, 0, 16, 2], [], 0, false, 7, false, [], none, sent⟩] })).chip with
    time := { (busy (fun sh => sh)).chip.time with uptime := 10000000 } }
theorem witness_FabricSenderSendsCompletesAndGivesUp_reads :
    (∀ kind ∈ [8, 9, 10], (reading kind none).live = true ∧ (((reading kind none).sheet sheet0).request 5).map (fun d => (d.kind, d.sent, d.served)) = some (kind, none, false)) ∧
    ((reading 8 none).sheet sheet0).task = some task0 ∧ (reading 8 none).sendPort 0 = some 6 ∧ ((reading 8 none).sheet sheet0).request 6 = none ∧
    (reading 8 none).maySend 6 1 1 0 2 2 = true ∧ ((reading 8 none).command 3).map (fun k => k.ending) = some none ∧
    (((reading 8 (some (6, 0))).sheet sheet0).request 5).map (fun d => d.sent) = some (some (6, 0)) ∧ wordsNat (bodyOf [0, 0, 0, 0, 0, 16, 2]) 36 4 = 16 := by
  decide +kernel

theorem witness_StepTakesTheCommandAtTheFront :
    dark.chip.pins.pwrok = false ∧ live.chip.running = true ∧ (after .resetNAssert live).pins.pwrok = true ∧ (after .resetNAssert live).power.stopped = false ∧
    (after .resetNAssert live).pins.resetN = false := by decide

theorem witness_ResetStateHasTheStatedValues : Instr.beforeOperation (.fabricStore 0) = false ∧ Instr.wf (.fabricStore 0) = true := by decide

theorem witness_RunsTakeCommandsInOrderAndStopOnlyWhereIllFormed :
    Instr.wf (.powerMeasure 4095) = true ∧ Instr.wf (.powerMeasure 4096) = false ∧ [Instr.thermtrip, .monId].all Instr.wf = true := by decide

/-- Without power, with commands waiting. -/
def darkQueue : State := { dark with pending := [.ppsOutPulse, .healthWindowEnd] }
/-- At stage 0, with commands of operation waiting. -/
def quietQueue : State := { State.reset with pending := [.ppsOutPulse, .chipTimeSlew 1] }
theorem witness_EveryStepKeepsAPartOutOfOperation :
    darkQueue.chip.running = false ∧ (∀ i ∈ darkQueue.pending, i.movesPin = false) ∧ quietQueue.chip.live = false ∧
    (∀ i ∈ quietQueue.pending, i.beforeOperation = false) ∧ (hot 115).chip.running = true ∧ 115 ≤ (hot 115).chip.power.junction ∧ (hot 115).pending = [] := by
  decide
theorem witness_EveryStepKeepsAPartOutOfOperation_dark : Dark darkQueue.chip darkQueue := ⟨rfl, by decide, rfl⟩
theorem witness_EveryStepKeepsAPartOutOfOperation_quiet : Quiet quietQueue.chip quietQueue := ⟨rfl, by decide, rfl⟩

theorem witness_SymbolsAndSlotsHaveTheTabledLengths :
    (13 : Nat) < 14 ∧ 1228799 < ticksPerFrame ∧ symLen 3 4 0 = 1160 ∧ symLen 3 5 0 = 1096 ∧ symLen 0 9 7 = 8832 ∧ rtView 3 1228799 = (79, 13, 1095) := by decide +kernel

theorem witness_RadioTimeFollowsChipTime :
    live.chip.rtOffset.natAbs ≤ 1258291200 ∧ live.chip.live = true ∧ live.chip.reaches .host = true ∧ mayReachBar0 .host = true ∧
    (∃ c d : Chip, c.time.chip = d.time.chip ∧ c.reg R.RT_OFFSET = d.reg R.RT_OFFSET) := ⟨by decide, by decide, by decide, by decide, live.chip, live.chip, rfl, rfl⟩
/-- At the GPS epoch, and one nanosecond before it, the frame and tick are these. -/
theorem witness_RadioTimeFollowsChipTime_epoch :
    (frameOf (ticksAt (315964819000000000 * 65536) 0), tickInFrame (ticksAt (315964819000000000 * 65536) 0)) = (0, 0) ∧
    (frameOf (ticksAt (315964819000000000 * 65536 - 65536) 0), tickInFrame (ticksAt (315964819000000000 * 65536 - 65536) 0)) = (1023, 1228799) := by decide

end Sys2Proof.Tests
end

section
/-! SUPPORT. What a command's answer says, and what a requester holds. -/

namespace Sys2Proof.Proofs

open Sys2Proof.Machine Sys2Proof.Laws

/-! ### Outcomes -/

/-- What a command that answers this part yields is what holds of the part. -/
theorem yields_iff {i : Instr} {s : State} {d : Chip} {p : Chip → Prop} (h : exec i s = .next { s with chip := d }) : Yields i s p ↔ p d := by
  constructor
  · rintro ⟨c, hc, hp⟩
    rw [h] at hc
    injection hc with hc
    injection hc with hc
    exact hc ▸ hp
  · exact fun hp => ⟨d, h, hp⟩

/-- A bus access below the end of the map, on a running part and through a port that is up, does its row. -/
theorem busRow_next {s : State} {r : Requester} {a : Nat} (f : Chip → Chip) (hrun : s.chip.running = true) (hport : s.chip.reaches r = true)
    (ha : a < addressSpan) :
    s.guarded (decide (a < addressSpan)) (s.onRunning (fun c => c.onPort r f)) = .next { s with chip := f s.chip } := by
  rw [guarded_true _ _ _ (decide_eq_true ha), onRunning_next _ _ hrun, onPort_reaches _ _ _ hport]

/-! ### What a requester holds -/

theorem getReq_req (c : Chip) (r : Requester) : (c.getReq r).req = r := by
  unfold Chip.getReq
  cases h : c.reqs.find? (fun q => q.req = r) with
  | none => rfl
  | some q => simpa using List.find?_some h

/-- A requester holds what it was made to hold. -/
theorem getReq_setReq_same (c : Chip) (r : Requester) (f : ReqState → ReqState) (hf : ∀ q, (f q).req = q.req := by intro; rfl) :
    (c.setReq r f).getReq r = f (c.getReq r) := by
  show ((f (c.getReq r) :: _).find? _).getD _ = _
  rw [List.find?_cons_of_pos (by simp [hf, getReq_req])]
  rfl

/-- A requester's holdings stand in the table of requesters alone. -/
theorem getReq_congr {c d : Chip} (h : d.reqs = c.reqs) (r : Requester) : d.getReq r = c.getReq r := by
  simp [Chip.getReq, h]

@[simp] theorem setReq_reg (c : Chip) (r : Requester) (f : ReqState → ReqState) (x : RegRef) : (c.setReq r f).reg x = c.reg x := rfl
theorem answer_getReq (c : Chip) (r q : Requester) (v : W64) : (c.answer r v).getReq q = c.getReq q := rfl
theorem setReq_early (c : Chip) (r q : Requester) (f : ReqState → ReqState) : (c.setReq r f).early q = c.early q := rfl

/-- Nothing is latched once an access has superseded it. -/
theorem supersede_highLatch (c : Chip) (p : Requester) : ((c.supersede p).getReq p).highLatch = none := by
  by_cases h : ((c.getReq p).highLatch.isNone && (c.getReq p).lowHalf.isNone) = true
  · obtain ⟨h1, h2⟩ := Bool.and_eq_true_iff.1 h
    rw [supersede_idle c p (Option.isNone_iff_eq_none.1 h1) (Option.isNone_iff_eq_none.1 h2)]
    exact Option.isNone_iff_eq_none.1 h1
  · have hq : (c.supersede p).reqs = (c.setReq p (fun q => { q with highLatch := none, lowHalf := none })).reqs := by
      unfold Chip.supersede
      simp only [h]
      split <;> rfl
    rw [getReq_congr hq, getReq_setReq_same _ _ _]

/-- Superseding keeps what has left the part. -/
theorem supersede_out (c : Chip) (p : Requester) : (c.supersede p).out = c.out := by
  obtain ⟨q, rs, h⟩ := supersede_form c p
  rw [h]

/-- Superseding by name of its fields. -/
theorem supersede_eq (c : Chip) (p : Requester) : c.supersede p = { c with reqs := (c.supersede p).reqs, regs := (c.supersede p).regs } := by
  obtain ⟨q, rs, h⟩ := supersede_form c p
  rw [h]

/-- Superseding counts torn writes in GLB_STAT and leaves its other fields. -/
theorem supersede_glbStat (c : Chip) (p : Requester) (f : Fld) (h1 : F.GLB_STAT.TORN_CNT.lo + F.GLB_STAT.TORN_CNT.w ≤ f.lo) :
    (c.supersede p).fld R.GLB_STAT f = c.fld R.GLB_STAT f := by
  have key : ∀ d : Chip, d.regs = c.regs → (if (c.getReq p).lowHalf.isNone = true then d
      else (d.bump R.GLB_STAT F.GLB_STAT.TORN_CNT 1).mark R.GLB_STAT F.GLB_STAT.STICKY_TORN).fld R.GLB_STAT f = c.fld R.GLB_STAT f := by
    intro d hd
    have hfld : d.fld R.GLB_STAT f = c.fld R.GLB_STAT f := by simp [Chip.fld, Chip.reg, hd]
    split
    · exact hfld
    · rw [Chip.mark, fld_setFld_beside _ _ _ _ _ (.inl (Nat.le_trans (by decide) h1)), Chip.bump, fld_setFld_beside _ _ _ _ _ (.inl h1), hfld]
  refine key _ ?_
  split <;> rfl

/-! ### Halves and whole words of a 64-bit register (R397) -/

theorem accessOk_four {a : Nat} (h : a % 4 = 0) : accessOk a 4 = true := by simp [accessOk, h]
theorem accessOk_eight {a : Nat} (h : a % 8 = 0) : accessOk a 8 = true := by simp [accessOk, h]

theorem halfRead_eq {c : Chip} {r p : Requester} {a : Nat} (hp : accessPath r a = some p) (ha : a % 4 = 0) :
    c.halfRead r a = c.read4 r p a := by
  simp [Chip.halfRead, hp, accessOk_four ha]

theorem halfWrite_eq {c : Chip} {r p : Requester} {a : Nat} {v : W32} (hp : accessPath r a = some p) (ha : a % 4 = 0) :
    c.halfWrite r a v = c.write4 p a v := by
  simp [Chip.halfWrite, hp, accessOk_four ha]

/-- A read of the value word of a pair has no side effect. -/
theorem readWord_value (c : Chip) (p : Requester) {h : RegHit} {a : Nat} {q : PairWord} (hq : h.pairWord a = some q) (hv : q.comp = false) :
    c.readWord p h a = (c.applied h q q.k, c) := by
  simp [Chip.readWord, hq, hv]

/-- A read of the low half of a pair's value word latches the high half. -/
theorem read4_lowHalf {c : Chip} {r p : Requester} {a : Nat} {h : RegHit} {q : PairWord} (hpl : c.place a = .word h a 8)
    (hq : h.pairWord a = some q) (hv : q.comp = false) :
    c.read4 r p a = ((c.supersede p).setReq p (fun x => { x with highLatch := some (a, ((c.supersede p).applied h q q.k >>> 32).setWidth 32) })).answer r
      ((c.supersede p).applied h q q.k &&& 0xFFFFFFFF#64) := by
  simp [Chip.read4, hpl, readWord_value _ _ hq hv]

/-- A read of a high half that its requester has latched returns what is latched. -/
theorem read4_highHalf_latched {c : Chip} {r p : Requester} {a : Nat} {h : RegHit} {hi : W32} (hpl : c.place (a + 4) = .word h a 8)
    (hl : (c.getReq p).highLatch = some (a, hi)) : c.read4 r p (a + 4) = (c.supersede p).answer r (hi.setWidth 64) := by
  simp [Chip.read4, hpl, hl]

/-- A read of a high half with nothing latched reads the value word in full. -/
theorem read4_highHalf_full {c : Chip} {r p : Requester} {a : Nat} {h : RegHit} {q : PairWord} (hpl : c.place (a + 4) = .word h a 8)
    (hq : h.pairWord a = some q) (hv : q.comp = false) (hl : (c.getReq p).highLatch = none) :
    c.read4 r p (a + 4) = (c.supersede p).answer r ((c.supersede p).applied h q q.k >>> 32) := by
  simp [Chip.read4, hpl, hl, readWord_value _ _ hq hv]

/-- A write of a low half is held. -/
theorem write4_lowHalf {c : Chip} {p : Requester} {a : Nat} {h : RegHit} {v : W32} (hpl : c.place a = .word h a 8) :
    c.write4 p a v = (c.supersede p).setReq p (fun q => { q with lowHalf := some (a, v) }) := by
  simp [Chip.write4, hpl]

/-- A write of a high half whose low half is held writes both. -/
theorem write4_highHalf_held {c : Chip} {p : Requester} {a : Nat} {h : RegHit} {v lo : W32} (hpl : c.place (a + 4) = .word h a 8)
    (hl : (c.getReq p).lowHalf = some (a, lo)) :
    c.write4 p (a + 4) v =
      (c.setReq p (fun q => { q with lowHalf := none, highLatch := none })).writeWord p h a (BitVec.ofNat 64 (v.toNat * 2 ^ 32 + lo.toNat)) := by
  simp [Chip.write4, hpl, hl]

/-- A write of a whole 64-bit word. -/
theorem write8_word {c : Chip} {p : Requester} {a : Nat} {h : RegHit} {v : W64} (hpl : c.place a = .word h a 8) :
    c.write8 p a v = (c.supersede p).writeWord p h a v := by
  simp [Chip.write8, hpl]

/-- A word that is no pair, has no rule of its own and comes in time is written under the access words of R6. -/
theorem writeWord_staging {c : Chip} {p : Requester} {h : RegHit} {a : Nat} {v : W64} (hid : h.desc.id ∈ [RegId.EVT_STAGE, .MAP_STAGE, .TAB_STAGE])
    (hlog : h.desc.logged = false) (he : c.early (hostPath p) = false) (hq : h.pairWord a = none) : c.writeWord p h a v = c.writePlain h v := by
  have hreg : c.writeReg p h v = c.writePlain h v := by
    simp only [List.mem_cons, List.not_mem_nil, or_false] at hid
    rcases hid with hid | hid | hid <;> simp [Chip.writeReg, hid, hlog]
  simp [Chip.writeWord, he, hq, hreg]

/-- A write under the access words changes its register alone. -/
theorem writePlain_reg_same (c : Chip) (h : RegHit) (v : W64) :
    (c.writePlain h v).reg h.ref = h.desc.write (c.reg h.ref) v &&& ~~~ (v &&& BitVec.ofNat 64 h.desc.w1c) := reg_setReg_same _ _ _

theorem writePlain_reg_other (c : Chip) (h : RegHit) (v : W64) {x : RegRef} (hx : x.addr ≠ h.ref.addr) : (c.writePlain h v).reg x = c.reg x :=
  reg_setReg_other _ _ _ _ (Ne.symm hx)

/-! ### The rows of R397 and R398 -/

section
variable {s : State} {r p : Requester} {a : Nat} (hrun : s.chip.running = true) (hport : s.chip.reaches r = true) (ha : a < addressSpan)
include hrun hport ha

theorem exec_lowHalfRead (hp : accessPath r a = some p) (h4 : a % 4 = 0) :
    exec (.lowHalfRead r a) s = .next { s with chip := s.chip.read4 r p a } := by
  rw [← halfRead_eq hp h4]
  exact busRow_next _ hrun hport ha

theorem exec_highHalfRead (hp : accessPath r a = some p) (h4 : a % 4 = 0) :
    exec (.highHalfRead r a) s = .next { s with chip := s.chip.read4 r p a } := by
  rw [← halfRead_eq hp h4]
  exact busRow_next _ hrun hport ha

theorem exec_lowHalfWrite (v : W32) (hp : accessPath r a = some p) (h4 : a % 4 = 0) :
    exec (.lowHalfWrite r a v) s = .next { s with chip := s.chip.write4 p a v } := by
  rw [← halfWrite_eq hp h4]
  exact busRow_next _ hrun hport ha

theorem exec_highHalfWrite (v : W32) (hp : accessPath r a = some p) (h4 : a % 4 = 0) :
    exec (.highHalfWrite r a v) s = .next { s with chip := s.chip.write4 p a v } := by
  rw [← halfWrite_eq hp h4]
  exact busRow_next _ hrun hport ha

theorem exec_registerWrite_eight (v : W64) (hp : accessPath r a = some p) (h8 : a % 8 = 0) :
    exec (.registerWrite r a true v) s = .next { s with chip := s.chip.write8 p a v } := by
  have h : registerWrite r a true v s.chip = s.chip.write8 p a v := by simp [registerWrite, hp, accessOk_eight h8]
  rw [← h]
  exact busRow_next _ hrun hport ha

theorem exec_unassignedAccess (w : Bool) (hp : accessPath r a = some p) (hpl : s.chip.place a = .unassigned) :
    exec (.unassignedAccess r a w) s =
      .next { s with chip := if w then (s.chip.supersede p).noteUnmapped else (s.chip.supersede p).noteUnmapped.answer r 0 } := by
  have h : unassignedAccess r a w s.chip = if w then (s.chip.supersede p).noteUnmapped else (s.chip.supersede p).noteUnmapped.answer r 0 := by
    simp [unassignedAccess, hp, hpl]
  rw [← h]
  exact busRow_next _ hrun hport ha

theorem exec_unsupportedRequest (n : Nat) (h : accessOk a n = false) :
    exec (.unsupportedRequest r a n) s = .next { s with chip := s.chip.send (.unsupportedRequest r) } := by
  have h : unsupportedRequest r a n s.chip = s.chip.send (.unsupportedRequest r) := by simp [unsupportedRequest, h]
  rw [← h]
  exact busRow_next _ hrun hport ha

end

/-- An unassigned access is counted, and the count saturates (R392, R398). -/
theorem noteUnmapped_count (c : Chip) : c.noteUnmapped.fld R.GLB_STAT F.GLB_STAT.UNMAPPED_CNT =
    min (fmax F.GLB_STAT.UNMAPPED_CNT) (c.fld R.GLB_STAT F.GLB_STAT.UNMAPPED_CNT + 1) := by
  rw [Chip.noteUnmapped, Chip.mark, fld_setFld_beside _ _ _ _ _ (by decide), Chip.bump, fld_setFld_same _ _ _ _ (by decide)]
  exact Nat.mod_eq_of_lt (Nat.lt_of_le_of_lt (Nat.min_le_left _ _) (by decide))

theorem noteUnmapped_sticky (c : Chip) : c.noteUnmapped.fld R.GLB_STAT F.GLB_STAT.STICKY_UNMAPPED = 1 :=
  fld_setFld_same _ _ _ _ (by decide)

/-- A write that finds an unassigned offset. -/
theorem unassignedWrite_effect (c : Chip) (p : Requester) :
    let d := (c.supersede p).noteUnmapped
    d.fld R.GLB_STAT F.GLB_STAT.UNMAPPED_CNT = min (fmax F.GLB_STAT.UNMAPPED_CNT) (c.fld R.GLB_STAT F.GLB_STAT.UNMAPPED_CNT + 1) ∧
    d.fld R.GLB_STAT F.GLB_STAT.STICKY_UNMAPPED = 1 ∧ d.out = c.out ∧ d = { c with regs := d.regs, reqs := d.reqs, out := d.out } := by
  refine ⟨?_, noteUnmapped_sticky _, supersede_out c p, ?_⟩
  · rw [noteUnmapped_count, supersede_glbStat _ _ _ (by decide)]
  · obtain ⟨q, rs, h⟩ := supersede_form c p
    rw [h]
    rfl

/-- Settles O9: each clause is one row of R397 or R398, whose access is read off the place that it finds. -/
theorem accessesReachRegistersByHalves : Obligations.AccessesReachRegistersByHalves := by
  unfold Obligations.AccessesReachRegistersByHalves
  refine ⟨?unsupported, ?unassigned, ?lowRead, ?highLatched, ?highFull, ?lowWrite, ?highWrite, ?wholeWrite⟩
  case unsupported =>
    intro s r a n hrun hport ha hok
    exact exec_unsupportedRequest hrun hport ha n hok
  case unassigned =>
    intro s r p a w hrun hport ha hp hpl
    rw [yields_iff (exec_unassignedAccess hrun hport ha w hp hpl)]
    obtain ⟨hcnt, hsticky, hout, hrest⟩ := unassignedWrite_effect s.chip p
    cases w with
    | true => exact ⟨hcnt, hsticky, hout, hrest⟩
    | false =>
      refine ⟨hcnt, hsticky, congrArg _ hout, ?_⟩
      show Chip.send _ _ = _
      rw [hrest]
      rfl
  case lowRead =>
    intro s r p a h q hrun hport ha hp h4 hpl hq hv
    rw [yields_iff (exec_lowHalfRead hrun hport ha hp h4), read4_lowHalf hpl hq hv]
    refine ⟨congrArg _ (supersede_out _ _), ?_, ?_⟩
    · rw [answer_getReq, getReq_setReq_same _ _ _]
    · rw [supersede_eq]
      rfl
  case highLatched =>
    intro s r p a h hi hrun hport ha hp h4 hpl hl
    unfold Becomes
    rw [exec_highHalfRead hrun hport ha hp (by omega), read4_highHalf_latched hpl hl, Chip.answer, Chip.send, supersede_out]
  case highFull =>
    intro s r p a h q hrun hport ha hp h4 hpl hq hv hl
    unfold Becomes
    rw [exec_highHalfRead hrun hport ha hp (by omega), read4_highHalf_full hpl hq hv hl, Chip.answer, Chip.send, supersede_out]
  case lowWrite =>
    intro s r p a h v hrun hport ha hp h4 hpl
    rw [yields_iff (exec_lowHalfWrite hrun hport ha v hp h4), write4_lowHalf hpl]
    have hget := getReq_setReq_same (s.chip.supersede p) p (fun q => { q with lowHalf := some (a, v) })
    refine ⟨congrArg ReqState.lowHalf hget, (congrArg ReqState.highLatch hget).trans (supersede_highLatch _ _), ?_⟩
    rw [supersede_eq]
    rfl
  case highWrite =>
    intro s r p a h v lo hrun hport ha hp h4 hpl hl hid hlog he hq
    rw [yields_iff (exec_highHalfWrite hrun hport ha v hp (by omega)), write4_highHalf_held hpl hl,
      writeWord_staging hid hlog ((setReq_early _ _ _ _).trans he) hq]
    refine ⟨writePlain_reg_same _ _ _, ?_, fun x hx => writePlain_reg_other _ _ _ hx, rfl⟩
    exact congrArg ReqState.lowHalf (getReq_setReq_same s.chip p (fun q => { q with lowHalf := none, highLatch := none }))
  case wholeWrite =>
    intro s r p a h v hrun hport ha hp h8 hpl hid hlog he hq
    rw [yields_iff (exec_registerWrite_eight hrun hport ha v hp h8), write8_word hpl, writeWord_staging hid hlog he hq]
    refine ⟨writePlain_reg_same _ _ _, fun x hx => writePlain_reg_other _ _ _ hx, ?_⟩
    rw [supersede_eq]
    rfl

end Sys2Proof.Proofs

end

section
/-! SUPPORT. Writes of the words of a complemented pair (R7, R427). -/

namespace Sys2Proof.Proofs

open Sys2Proof.Machine Sys2Proof.Laws

/-- The value word of a pair of one value word, as the key of what its requester holds. -/
theorem pairAt_word {c : Chip} {a : Nat} {h : RegHit} {q : PairWord} (hpl : c.place a = .word h a 8) (hq : h.pairWord a = some q) :
    c.pairAt a = some (8, q) := by
  simp [Chip.pairAt, hpl, hq]

/-- A write of a whole word of a pair on its row, with nothing held or latched to supersede and in time. -/
theorem pairWordWrite_eq {c : Chip} {r p : Requester} {a : Nat} {h : RegHit} {q : PairWord} {v : W64} (hp : accessPath r a = some p)
    (hpl : c.place a = .word h a 8) (hq : h.pairWord a = some q) (he : c.early (hostPath p) = false) (hl : (c.getReq p).lowHalf = none)
    (hh : (c.getReq p).highLatch = none) : c.pairWordWrite r a q.comp v = c.writePair p h q v := by
  simp [Chip.pairWordWrite, hp, pairAt_word hpl hq, write8_word hpl, supersede_idle c p hh hl, Chip.writeWord, he, hq]

section
variable {s : State} {r p : Requester} {a : Nat} {h : RegHit} {q : PairWord} {v : W64} (hrun : s.chip.running = true) (hport : s.chip.reaches r = true)
  (ha : a < addressSpan) (hp : accessPath r a = some p) (hpl : s.chip.place a = .word h a 8) (hq : h.pairWord a = some q)
  (he : s.chip.early (hostPath p) = false) (hl : (s.chip.getReq p).lowHalf = none) (hh : (s.chip.getReq p).highLatch = none)
include hrun hport ha hp hpl hq he hl hh

theorem exec_valueWordWrite (hv : q.comp = false) : exec (.valueWordWrite r a v) s = .next { s with chip := s.chip.writePair p h q v } := by
  rw [← pairWordWrite_eq hp hpl hq he hl hh, hv]
  exact busRow_next _ hrun hport ha

theorem exec_complementWordWrite (hv : q.comp = true) : exec (.complementWordWrite r a v) s = .next { s with chip := s.chip.writePair p h q v } := by
  rw [← pairWordWrite_eq hp hpl hq he hl hh, hv]
  exact busRow_next _ hrun hport ha

end

/-- The value word of a pair is held. -/
theorem writePair_value {c : Chip} {p : Requester} {h : RegHit} {q : PairWord} {v : W64} (hv : q.comp = false) :
    c.writePair p h q v = c.hold p (q.base + 8 * q.k) v := by
  simp [Chip.writePair, hv]

/-- The complement word of a pair of one value word that matches applies the value, and what is held of the pair is released. -/
theorem writePair_match {c : Chip} {p : Requester} {h : RegHit} {b : Nat} {v : W64} (hv : v = h.complement (c.heldWord p h ⟨b, false, 0, true⟩ 0)) :
    c.writePair p h ⟨b, false, 0, true⟩ v =
      ((applyPair (c.origin p) h (c.heldWord p h ⟨b, false, 0, true⟩ 0) (c.heldWord p h ⟨b, false, 0, true⟩ 1) c).mendPair h ⟨b, false, 0, true⟩
        (c.heldWord p h ⟨b, false, 0, true⟩ 0)).releasePair p b false := by
  simp [Chip.writePair, ← hv]

/-- One that does not match raises INTEGRITY at the level that owns the register, and what is held of the pair is released. -/
theorem writePair_mismatch {c : Chip} {p : Requester} {h : RegHit} {b : Nat} {v : W64}
    (hv : v ≠ h.complement (c.heldWord p h ⟨b, false, 0, true⟩ 0)) :
    c.writePair p h ⟨b, false, 0, true⟩ v = (c.integrity h.errAt).releasePair p b false := by
  simp [Chip.writePair, hv]

/-- A pair of these registers has no rule of its own: codes in range are logged and stored (R8, R427). -/
theorem applyPair_stored {o : Nat} {h : RegHit} {v0 v1 : W64} {c : Chip} (hid : h.desc.id ∈ [RegId.RADIO_CFG, .PTP_DOM_CFG, .STRM_GRID, .STRM_AGC])
    (hlog : h.desc.logged = true) (hfit : h.desc.fits v0 = true) : applyPair o h v0 v1 c = c.setLogged o h.ref (h.desc.write (c.reg h.ref) v0) := by
  have hplain : applyPlain o h v0 c = c.setLogged o h.ref (h.desc.write (c.reg h.ref) v0) := by simp [applyPlain, hfit, hlog]
  rw [← hplain]
  simp only [List.mem_cons, List.not_mem_nil, or_false] at hid
  rcases hid with hid | hid | hid | hid <;> simp [applyPair, hid]

/-- Mending a pair changes the broken objects alone. -/
theorem mendPair_form (c : Chip) (h : RegHit) (q : PairWord) (v : W64) : ∃ l, c.mendPair h q v = { c with damaged := l } := by
  unfold Chip.mendPair
  simp only []
  split
  · exact ⟨_, rfl⟩
  · exact ⟨c.damaged, rfl⟩

/-- A released pair of one value word is not held. -/
theorem releasePair_held (c : Chip) (r : Requester) (b : Nat) : tabGet ((c.releasePair r b false).getReq r).held b = none := by
  rw [Chip.releasePair, getReq_setReq_same _ _ _]
  exact tabGet_del_same _ _

/-- Settles O10: a value word is held, and a complement word is compared with the word held or applied. -/
theorem complementedPairsTakeMatchingWords : Obligations.ComplementedPairsTakeMatchingWords := by
  unfold Obligations.ComplementedPairsTakeMatchingWords
  refine ⟨?value, ?matching, ?mismatch⟩
  case value =>
    intro s r p a h q v hrun hport ha hp hpl hq hv he hl hh
    rw [yields_iff (exec_valueWordWrite hrun hport ha hp hpl hq he hl hh hv), writePair_value hv]
    refine ⟨?_, rfl⟩
    rw [Chip.hold, getReq_setReq_same _ _ _]
    exact tabGet_put_same _ _ _
  case matching =>
    intro s r p a h b v hrun hport ha hp hpl hq he hl hh hv hid hlog hfit
    rw [yields_iff (exec_complementWordWrite hrun hport ha hp hpl hq he hl hh rfl), writePair_match hv, applyPair_stored hid hlog hfit]
    obtain ⟨l, hmend⟩ := mendPair_form (s.chip.setLogged (s.chip.origin p) h.ref
      (h.desc.write (s.chip.reg h.ref) (s.chip.heldWord p h ⟨b, false, 0, true⟩ 0))) h ⟨b, false, 0, true⟩ (s.chip.heldWord p h ⟨b, false, 0, true⟩ 0)
    rw [hmend]
    refine ⟨reg_setLogged_same _ _ _ _, releasePair_held _ _ _, ?_⟩
    obtain ⟨rs, g, n, hset⟩ := setLogged_form s.chip (s.chip.origin p) h.ref
      (h.desc.write (s.chip.reg h.ref) (s.chip.heldWord p h ⟨b, false, 0, true⟩ 0))
    rw [hset]
    rfl
  case mismatch =>
    intro s r p a h b v hrun hport ha hp hpl hq he hl hh hv
    rw [yields_iff (exec_complementWordWrite hrun hport ha hp hpl hq he hl hh rfl), writePair_mismatch hv]
    exact ⟨releasePair_held _ _ _, rfl⟩

end Sys2Proof.Proofs

end

section
/-! SUPPORT. A joined group killed for a class 0 task (R205), and a sheet table that lists a key twice. -/

namespace Sys2Proof.Proofs

open Sys2Proof.Machine Sys2Proof.Laws

theorem sheetK_updKey_other (c : Chip) {k j : Nat} (f : Sheet → Sheet) (h : k ≠ j) : (c.updKey k f).sheetK j = c.sheetK j :=
  tabGetD_put_other _ _ _ h

theorem perf_sheetK (c : Chip) (u : CounterUnit) (code inc : Nat) (x : CntCause) (k : Nat) : (c.perf u code inc x).sheetK k = c.sheetK k := by
  obtain ⟨rs, o, h⟩ := perf_form c u code inc x
  rw [h]
  rfl

/-- Where the best source of a ream is a joined group, every other sheet stands as the kill of that group leaves it. -/
theorem class0TaskPlace_joinedGroup {c : Chip} {ream : Fin 4} {t : Task} {k : Nat} {p : List Nat}
    (hready : (c.sheets.filter (fun x => keyQuire x.1 / 8 == ream.val && x.2.acquired.isSome)).length < ((c.radioAt ream.val).filter c.runnable).length)
    (hnext : c.nextRadio ream.val = some t) (hsource : c.radioSource ream.val = some (k, p)) (hrank : p.headD 0 = 4) {j : Nat} (hj : k ≠ j) :
    (class0TaskPlace ream c).sheetK j = (c.killTask k true).sheetK j := by
  unfold class0TaskPlace
  simp only [if_neg (Nat.not_le.2 hready), hnext, hsource, hrank]
  rw [sheetK_updKey_other _ _ hj, perf_sheetK]
  rfl

/-- An accepted command of slot 0 by its number, class, mode and number of tasks. -/
def acceptedCommand (uid cls mode tasks : Nat) : Command :=
  { uid, slot := 0, source := .sq 0 0 0 0,
    desc := { program := 1, ctx := 0, cls, flags := 0, footprint := 1, mode, version := 1, tasks, tensorTab := 0, seed := 0, deadline := 0,
              token := 0, waitToken := 0, job := 0, step := 0, rslots := 0, params := [], reservedOk := true }
    tensors := [], accepted := 0, placed := true, committed := [], drained := 0, flags := 0, late := false, nonrepro := false, reruns := 0,
    partials := [], deferred := [], ending := none, digests := [], fabricOpen := 0, cell := none }

/-- A class 0 task of command 3. -/
def waitingRadioTask : Task := ⟨3, 0, 0, 0, 0, 0, 0⟩

/-- Task i of the joined command 4. -/
def joinedTask (i : Nat) : Task := ⟨4, i, 0, 0, 0, 1, i⟩

/-- The sheets of quire 0: sheet 0 runs task 0 of the joined command and the others are spare. Key 2 is listed a second time, behind the
entry that counts, with task 1 of the same group. -/
def twiceListedSheets : Tab Sheet :=
  (0, { sheetReset 0 with task := some (joinedTask 0) }) ::
    (List.range 65).map (fun p => (2 * (p + 1), { sheetReset 0 with role := .spare })) ++ [(2, { sheetReset 2 with task := some (joinedTask 1) })]

/-- A part in operation with these sheets, whose other quires of ream 0 are isolated, and with a class 0 task ready on ream 0. -/
def twiceListed : State :=
  ⟨(List.range 7).foldl (fun (c : Chip) i => c.setFld (R.QUIRE_HEALTH (i + 1)) F.QUIRE_HEALTH.STATE 1)
    ({ Chip.reset with
        sheets := twiceListedSheets
        commands := [acceptedCommand 3 0 1 1, acceptedCommand 4 1 2 64]
        radioReady := [(0, [waitingRadioTask])] }.setFld R.BOOT_STAT F.BOOT_STAT.STAGE 5), []⟩

theorem twiceListed_live : twiceListed.chip.live = true := by decide +kernel

/-- One class 0 task is ready, and no sheet is on the way. -/
theorem twiceListed_ready :
    (twiceListed.chip.sheets.filter (fun x => keyQuire x.1 / 8 == 0 && x.2.acquired.isSome)).length <
      ((twiceListed.chip.radioAt 0).filter twiceListed.chip.runnable).length := by decide +kernel

theorem twiceListed_nextRadio : twiceListed.chip.nextRadio 0 = some waitingRadioTask := by decide +kernel

/-- The joined group is the one source of the ream. -/
theorem twiceListed_radioSource : twiceListed.chip.radioSource 0 = some (0, [4, 0, 0]) := by decide +kernel

/-- The second entry of key 2 counts among the sheets of the group. -/
theorem twiceListed_groupKeys : 2 ∈ twiceListed.chip.groupKeys 4 0 := by decide +kernel

/-- The kill of the group reads the first entry of key 2, which runs nothing, and leaves it. -/
theorem twiceListed_notKilled : ((twiceListed.chip.killTask 0 true).sheetK 2).killing = false := by decide +kernel

/-- Refutes O37: the clause of a joined group holds every sheet of `groupKeys` killed, for every state, and `groupKeys` goes through all
entries of the sheet table, while a kill goes to the entry that the table's key finds. In a table that lists a key twice (which `tabSorted`
excludes, and the statement does not ask for) an entry behind another of its key names a sheet that nothing kills. -/
theorem not_floorsAreSetAndClassZeroTakesSheets : ¬ Obligations.FloorsAreSetAndClassZeroTakesSheets := by
  unfold Obligations.FloorsAreSetAndClassZeroTakesSheets
  intro h
  obtain ⟨-, hplace, -, -⟩ := h
  obtain ⟨-, hsources⟩ := hplace twiceListed 0 twiceListed_live
  obtain ⟨-, -, -, -, hgroup⟩ := hsources waitingRadioTask (acceptedCommand 3 0 1 1) 0 [4, 0, 0] twiceListed_ready twiceListed_nextRadio
    rfl twiceListed_radioSource
  have hyields := hgroup rfl (joinedTask 0) rfl
  rw [yields_iff (i := .class0TaskPlace 0) (onLive_next _ _ twiceListed_live)] at hyields
  obtain ⟨-, hkilled, -⟩ := hyields
  have hkilling := hkilled 2 twiceListed_groupKeys
  rw [class0TaskPlace_joinedGroup (ream := 0) twiceListed_ready twiceListed_nextRadio twiceListed_radioSource rfl (by decide),
    twiceListed_notKilled] at hkilling
  exact Bool.false_ne_true hkilling

end Sys2Proof.Proofs

end

section
/-! SUPPORT. The tenants' registers (R305) and the operations that leave them and what slots own as they are. -/

namespace Sys2Proof.Proofs

open Sys2Proof.Machine Sys2Proof.Laws

/-! ### Folds -/

/-- A fold whose steps keep a property has it once a step of its list has brought it about. -/
theorem foldl_reaches {α : Type} (p : Chip → Prop) (f : Chip → α → Chip) {a : α} (hset : ∀ c, p (f c a)) (hkeep : ∀ c x, p c → p (f c x)) :
    ∀ (l : List α), a ∈ l → ∀ c, p (l.foldl f c)
  | x :: t, h, c => by
    rcases List.mem_cons.1 h with rfl | h
    · exact foldl_inv p f hkeep t _ (hset c)
    · exact foldl_reaches p f hset hkeep t h _

/-! ### The tenants' block -/

/-- A register of the tenants' block: deckles, keys, TEN_STAT and the slice table. -/
def TenantReg (x : RegRef) : Prop := 0x400000 ≤ x.addr ∧ x.addr < 0x500000

theorem tenantReg_dckCtl (n : Fin 64) : TenantReg (R.DCK_CTL n.val) := by simp only [TenantReg, R.DCK_CTL]; omega
theorem tenantReg_tenStat {n : Nat} (h : n < 64) : TenantReg (R.TEN_STAT n) := by simp only [TenantReg, R.TEN_STAT]; omega
theorem tenantReg_slice (i : Fin 1024) : TenantReg (R.SLICE i.val) := by simp only [TenantReg, R.SLICE]; omega
theorem tenantReg_keyV (n : Fin 64) {k : Nat} (h : k < 8) : TenantReg (R.KEY_V n.val k) := by simp only [TenantReg, R.KEY_V]; omega

/-- The part without its registers, what requesters hold, the log and its draws, the sheets and walks, the mailbox queues, the broken
objects and what has left it. -/
def estate (c : Chip) : Chip :=
  { c with regs := [], reqs := [], log := ⟨[], [], 0, [], none⟩, freeCtr := 0, sheets := [], walks := [], walkWait := [], mbxQueue := [], damaged := [],
           out := [] }

section
variable {c d : Chip}
theorem estate_health (h : estate d = estate c) : d.health = c.health := congrArg Chip.health (a₁ := estate d) (a₂ := estate c) h
theorem estate_keys (h : estate d = estate c) : d.keys = c.keys := congrArg Chip.keys (a₁ := estate d) (a₂ := estate c) h
theorem estate_pages (h : estate d = estate c) : d.pages = c.pages := congrArg Chip.pages (a₁ := estate d) (a₂ := estate c) h
theorem estate_commands (h : estate d = estate c) : d.commands = c.commands := congrArg Chip.commands (a₁ := estate d) (a₂ := estate c) h
theorem estate_contexts (h : estate d = estate c) : d.contexts = c.contexts := congrArg Chip.contexts (a₁ := estate d) (a₂ := estate c) h
theorem estate_drains (h : estate d = estate c) : d.drains = c.drains := congrArg Chip.drains (a₁ := estate d) (a₂ := estate c) h
theorem estate_rings (h : estate d = estate c) : d.rings = c.rings := congrArg Chip.rings (a₁ := estate d) (a₂ := estate c) h
theorem estate_cells (h : estate d = estate c) : d.cells = c.cells := congrArg Chip.cells (a₁ := estate d) (a₂ := estate c) h
theorem estate_locks (h : estate d = estate c) : d.locks = c.locks := congrArg Chip.locks (a₁ := estate d) (a₂ := estate c) h
theorem estate_weights (h : estate d = estate c) : d.weights = c.weights := congrArg Chip.weights (a₁ := estate d) (a₂ := estate c) h
theorem estate_mem (h : estate d = estate c) : d.mem = c.mem := congrArg Chip.mem (a₁ := estate d) (a₂ := estate c) h
end

/-- The tenants' registers stand, and so does the part but for what `estate` leaves out. -/
structure KeepsTenants (c d : Chip) : Prop where
  reg : ∀ x, TenantReg x → d.reg x = c.reg x
  rest : estate d = estate c

/-- The first value word of a deckle register lies in the tenants' block, apart from TEN_STAT. -/
theorem deckleRef_tenantReg (slot : Fin 64) (reg : DeckleReg) : TenantReg (deckleRef slot.val reg) := by
  cases reg <;> simp only [TenantReg, deckleRef, R.DCK_CTL, R.DCK_QUOTA, R.DCK_LIMITS, R.DCK_SHP, R.DCK_FAB, R.DCK_RADIO, R.WIN0] <;> omega

theorem win1_tenantReg (slot : Fin 64) (w : Fin 16) : TenantReg (R.WIN1 slot.val w.val) := by
  simp only [TenantReg, R.WIN1]
  omega

/-- A slot's deckle stands in the value words of its registers. -/
theorem deckle_congr {c d : Chip} {slot : Fin 64} (h : ∀ reg, d.reg (deckleRef slot.val reg) = c.reg (deckleRef slot.val reg))
    (h1 : ∀ w : Fin 16, d.reg (R.WIN1 slot.val w.val) = c.reg (R.WIN1 slot.val w.val)) : d.deckle slot.val = c.deckle slot.val := by
  have hctl : d.reg (R.DCK_CTL slot.val) = c.reg (R.DCK_CTL slot.val) := h .ctl
  have hquota : d.reg (R.DCK_QUOTA slot.val) = c.reg (R.DCK_QUOTA slot.val) := h .quota
  have hlim : d.reg (R.DCK_LIMITS slot.val) = c.reg (R.DCK_LIMITS slot.val) := h .limits
  have hradio : d.reg (R.DCK_RADIO slot.val) = c.reg (R.DCK_RADIO slot.val) := h .radio
  have hwins : d.wins slot.val = c.wins slot.val := by
    refine List.map_congr_left fun w hw => ?_
    have hw := List.mem_range.1 hw
    have h0 : d.reg (R.WIN0 slot.val w) = c.reg (R.WIN0 slot.val w) := h (.win ⟨w, hw⟩)
    rw [Chip.win, h0, h1 ⟨w, hw⟩, Chip.win]
  rw [Chip.deckle, hctl, hquota, hlim, hradio, hwins, Chip.deckle]

/-- It stands where the tenants' registers do. -/
theorem deckle_of_tenantRegs {c d : Chip} (h : ∀ x, TenantReg x → d.reg x = c.reg x) (slot : Fin 64) : d.deckle slot.val = c.deckle slot.val :=
  deckle_congr (fun reg => h _ (deckleRef_tenantReg slot reg)) (fun w => h _ (win1_tenantReg slot w))

namespace KeepsTenants

theorem refl (c : Chip) : KeepsTenants c c := ⟨fun _ _ => rfl, rfl⟩

theorem trans {c d e : Chip} (h : KeepsTenants c d) (g : KeepsTenants d e) : KeepsTenants c e :=
  ⟨fun x hx => (g.reg x hx).trans (h.reg x hx), g.rest.trans h.rest⟩

/-- A fold keeps the tenants where each step does. -/
theorem foldl {α : Type} {f : Chip → α → Chip} (h : ∀ c x, KeepsTenants c (f c x)) (l : List α) (c : Chip) : KeepsTenants c (l.foldl f c) :=
  foldl_inv (KeepsTenants c) f (fun d x hd => hd.trans (h d x)) l c (refl c)

variable {c d : Chip} (h : KeepsTenants c d)
include h

theorem fld {x : RegRef} (hx : TenantReg x) (f : Fld) : d.fld x f = c.fld x f := by rw [Chip.fld, h.reg x hx, Chip.fld]
theorem flag {x : RegRef} (hx : TenantReg x) (f : Fld) : d.flag x f = c.flag x f := by rw [Chip.flag, h.fld hx, Chip.flag]
theorem slotState {n : Nat} (hn : n < 64) : d.slotState n = c.slotState n := h.fld (tenantReg_tenStat hn) _
theorem health : d.health = c.health := estate_health h.rest
theorem keys : d.keys = c.keys := estate_keys h.rest
theorem pages : d.pages = c.pages := estate_pages h.rest
theorem commands : d.commands = c.commands := estate_commands h.rest
theorem contexts : d.contexts = c.contexts := estate_contexts h.rest
theorem drains : d.drains = c.drains := estate_drains h.rest
theorem rings : d.rings = c.rings := estate_rings h.rest
theorem cells : d.cells = c.cells := estate_cells h.rest

end KeepsTenants

/-! ### Operations that keep the tenants -/

theorem keeps_setReg (c : Chip) {r : RegRef} (v : W64) (h : ¬ TenantReg r) : KeepsTenants c (c.setReg r v) :=
  ⟨fun x hx => reg_setReg_other _ _ _ _ (fun e => h (by unfold TenantReg at *; omega)), rfl⟩

theorem keeps_bump (c : Chip) {r : RegRef} (f : Fld) (n : Nat) (h : ¬ TenantReg r) : KeepsTenants c (c.bump r f n) := keeps_setReg _ _ h

theorem keeps_supersede (c : Chip) (r : Requester) : KeepsTenants c (c.supersede r) := by
  refine ⟨fun x hx => supersede_reg c r x (fun e => ?_), ?_⟩
  · rw [TenantReg, ← e] at hx
    exact absurd hx (by decide)
  · obtain ⟨q, rs, h⟩ := supersede_form c r
    rw [h]
    rfl

theorem keeps_releasePair (c : Chip) (r : Requester) (a : Nat) (two : Bool) : KeepsTenants c (c.releasePair r a two) := ⟨fun _ _ => rfl, rfl⟩

/-- Mending what a row wrote changes the broken objects alone. -/
theorem mendWritten_form (c : Chip) (r : Requester) (m : Bool) (a : Nat) (v : W64) : ∃ l, c.mendWritten r m a v = { c with damaged := l } := by
  unfold Chip.mendWritten
  split
  · exact ⟨c.damaged, rfl⟩
  · split
    · exact ⟨c.damaged, rfl⟩
    · split
      · exact mendPair_form _ _ _ _
      · exact ⟨c.damaged, rfl⟩

theorem keeps_mendWritten (c : Chip) (r : Requester) (m : Bool) (a : Nat) (v : W64) : KeepsTenants c (c.mendWritten r m a v) := by
  obtain ⟨l, h⟩ := mendWritten_form c r m a v
  rw [h]
  exact ⟨fun _ _ => rfl, rfl⟩

/-- A log entry changes the stall counter alone of all registers. -/
theorem logStall_ne {x : RegRef} (h : TenantReg x) : R.LOG_STALL_US.addr ≠ x.addr := fun e => by
  rw [TenantReg, ← e] at h
  exact absurd h (by decide)

theorem keeps_logOp (c : Chip) (origin op obj : Nat) (old new : W32) : KeepsTenants c (c.logOp origin op obj old new) := by
  refine ⟨fun x hx => logOp_reg _ _ _ _ _ _ _ (logStall_ne hx), ?_⟩
  obtain ⟨rs, g, n, h⟩ := logOp_form c origin op obj old new
  rw [h]
  rfl

/-- A logged register changes itself alone of the tenants' registers. -/
theorem estate_setLogged (c : Chip) (origin : Nat) (r : RegRef) (v : W64) : estate (c.setLogged origin r v) = estate c := by
  obtain ⟨rs, g, n, h⟩ := setLogged_form c origin r v
  rw [h]
  rfl

theorem setLogged_tenantReg (c : Chip) (origin : Nat) {r x : RegRef} (v : W64) (hx : TenantReg x) (h : r.addr ≠ x.addr) :
    (c.setLogged origin r v).reg x = c.reg x := setLogged_reg_other _ _ _ _ _ h (logStall_ne hx)

/-- A signalled interrupt leaves the tenants' registers. -/
theorem keeps_irq (c : Chip) {k : Nat} (h : k < 64) : KeepsTenants c (c.irq k) := by
  have h0 : (R.MSIX_PBA (k / 64)).addr = 0xf8000 := by simp only [R.MSIX_PBA, Nat.div_eq_of_lt h]
  refine ⟨fun x hx => irq_reg c k x ?_ ?_, ?_⟩
  · intro e
    rw [TenantReg, ← e] at hx
    exact absurd hx (by decide)
  · rw [h0]
    intro e
    rw [TenantReg, ← e] at hx
    exact absurd hx (by decide)
  · rw [irq_eq]
    rfl

theorem keeps_irqLevel (c : Chip) {k : Nat} (b : Bool) (h : k < 64) : KeepsTenants c (c.irqLevel k b) := by
  unfold Chip.irqLevel
  split
  · exact keeps_irq c h
  · exact keeps_setReg _ _ (by unfold TenantReg; decide)

/-! ### INTEGRITY -/

theorem healthChanged_tenantReg (c : Chip) (before : Nat) {x : RegRef} (hx : TenantReg x) : (c.healthChanged before).reg x = c.reg x := by
  unfold Chip.healthChanged
  split
  · rfl
  · exact (keeps_irq _ (by decide)).reg x hx

theorem recordError_tenantReg (c : Chip) (a : ErrAt) (code cls points : Nat) {x : RegRef} (hx : TenantReg x) :
    (c.recordError a code cls points).reg x = c.reg x := by
  have hstat : ¬ TenantReg R.ERR_STAT := by unfold TenantReg; decide
  have hcount := (keeps_bump c F.ERR_STAT.ERR_CNT 1 hstat).reg x hx
  unfold Chip.recordError
  simp only []
  split
  · rw [(keeps_irq _ (by decide)).reg x hx, Chip.setFld, (keeps_setReg _ _ hstat).reg x hx]
    exact hcount
  · rw [Chip.mark, Chip.setFld, (keeps_setReg _ _ hstat).reg x hx, (keeps_bump _ _ _ hstat).reg x hx]
    exact hcount

/-- An INTEGRITY error leaves the tenants' registers. -/
theorem integrity_tenantReg (c : Chip) (a : ErrAt) {x : RegRef} (hx : TenantReg x) : (c.integrity a).reg x = c.reg x := by
  show ((c.charge .complementMismatch 1).2.recordError a 0x09 1 (c.charge .complementMismatch 1).1).reg x = c.reg x
  rw [recordError_tenantReg _ _ _ _ _ hx, Chip.charge]
  exact healthChanged_tenantReg _ _ hx

/-- It leaves every table of the part. -/
theorem integrity_form (c : Chip) (a : ErrAt) :
    ∃ h rs o p e, c.integrity a = { c with health := h, regs := rs, out := o, pins := p, errRing := e } := softError_form _ _ _ _ _

/-- It is evidence of one complement mismatch (R345). -/
theorem integrity_counted (c : Chip) (a : ErrAt) :
    tabGetD (c.integrity a).health.counts 9 0 = tabGetD c.health.counts 9 0 + 1 := by
  have hrecord : (c.integrity a).health = (c.charge .complementMismatch 1).2.health := by
    show ((c.charge .complementMismatch 1).2.recordError a 0x09 1 (c.charge .complementMismatch 1).1).health = _
    obtain ⟨rs, o, e, h⟩ := recordError_form (c.charge .complementMismatch 1).2 a 0x09 1 (c.charge .complementMismatch 1).1
    rw [h]
  rw [hrecord, Chip.charge]
  simp only []
  obtain ⟨rs, o, p, h⟩ := healthChanged_form _ _
  rw [h]
  exact tabGetD_put_same _ _ _ _

/-! ### Counters of sheets, and the kill of a task that does not run again -/

/-- The counter registers of a sheet lie past the tenants' block. -/
theorem counterReg_notTenant (u : SheetAt) (n : Nat) :
    ¬ TenantReg (cntCfg (.sheet u) n) ∧ ¬ TenantReg (cntCount (.sheet u) n) ∧ ¬ TenantReg (cntSample (.sheet u) n) := by
  simp only [TenantReg, cntCfg, cntCount, cntSample, R.SC_CFG, R.SC_COUNT, R.SC_SAMPLE]
  omega

theorem keeps_cntSampleTake (c : Chip) (u : SheetAt) (n : Nat) (k : CntCause) : KeepsTenants c (cntSampleTake c (.sheet u) n k) := by
  obtain ⟨-, -, hs⟩ := counterReg_notTenant u n
  have hput : ∀ (d : Chip) (f : Fld) (v : Nat), KeepsTenants d (d.setFld (cntSample (.sheet u) n) f v) := fun d f v => keeps_setReg d _ hs
  unfold cntSampleTake
  split
  · exact KeepsTenants.refl c
  · refine KeepsTenants.trans ?_ (hput _ _ _)
    refine KeepsTenants.trans (KeepsTenants.trans ?_ (hput _ _ _)) (hput _ _ _)
    split
    · exact keeps_bump c _ _ hs
    · exact KeepsTenants.refl c

/-- Putting counter registers of a sheet leaves the tenants. -/
theorem keeps_cntCfg_setFld (c : Chip) (u : SheetAt) (n : Nat) (f : Fld) (v : Nat) : KeepsTenants c (c.setFld (cntCfg (.sheet u) n) f v) :=
  keeps_setReg c _ (counterReg_notTenant u n).1

theorem keeps_cntCount_setFld (c : Chip) (u : SheetAt) (n : Nat) (f : Fld) (v : Nat) : KeepsTenants c (c.setFld (cntCount (.sheet u) n) f v) :=
  keeps_setReg c _ (counterReg_notTenant u n).2.1

/-- A counter that passes its end samples, sets OVF and takes a value. -/
theorem keeps_cntOverflow (c : Chip) (u : SheetAt) (n : Nat) (k : CntCause) (v : Nat) :
    KeepsTenants c (((cntSampleTake c (.sheet u) n k).mark (cntCfg (.sheet u) n) F.SC_CFG.OVF).setFld (cntCount (.sheet u) n) F.SC_COUNT.VALUE v) :=
  ((keeps_cntSampleTake c u n k).trans (keeps_cntCfg_setFld _ u n _ _)).trans (keeps_cntCount_setFld _ u n _ _)

theorem keeps_cntAdd (u : SheetAt) (k : CntCause) (fuel n inc : Nat) (c : Chip) : KeepsTenants c (cntAdd c (.sheet u) k fuel n inc) := by
  induction fuel generalizing n inc c with
  | zero =>
    unfold cntAdd
    simp only []
    split
    · exact KeepsTenants.refl c
    · split
      · exact keeps_cntCount_setFld c u n _ _
      · exact (keeps_cntOverflow c u n k _).trans (keeps_cntCfg_setFld _ u n _ _)
  | succ f ih =>
    unfold cntAdd
    simp only []
    split
    · exact KeepsTenants.refl c
    · split
      · exact keeps_cntCount_setFld c u n _ _
      · split
        · exact (keeps_cntOverflow c u n k _).trans (ih _ _ _)
        · exact (keeps_cntOverflow c u n k _).trans (keeps_cntCfg_setFld _ u n _ _)

theorem keeps_perf (c : Chip) (u : SheetAt) (code inc : Nat) (k : CntCause) : KeepsTenants c (c.perf (.sheet u) code inc k) := by
  unfold Chip.perf
  simp only []
  split
  · exact KeepsTenants.refl c
  · exact (KeepsTenants.foldl (fun d n => keeps_cntAdd u k _ n inc d) _ c).trans (keeps_irqLevel _ _ (by decide))

/-- The kill of a task that does not run again leaves the tenants. -/
theorem keeps_killSheet (c : Chip) (k : Nat) : KeepsTenants c (c.killSheet k false) := by
  have hcnt : ¬ TenantReg (R.SCHED_CNT0 (keyQuire k / 8)) := by simp only [TenantReg, R.SCHED_CNT0]; omega
  unfold Chip.killSheet
  simp only []
  split
  · exact KeepsTenants.refl c
  · have hdrop : ∀ (d : Chip) (sh : Sheet), KeepsTenants d ((d.setSheetK k sh).freeWalks k) := fun _ _ => ⟨fun _ _ => rfl, rfl⟩
    simp only [Bool.false_eq_true, if_false]
    exact ((keeps_perf c _ _ _ _).trans (hdrop _ _)).trans (keeps_bump _ _ _ hcnt)

/-! ### Mailboxes -/

theorem keeps_mbxPost (c : Chip) (i : Fin 1024) (n : Nat) (w : W32) : KeepsTenants c (c.mbxPost (.slice i) n w) := by
  unfold Chip.mbxPost
  simp only []
  split
  · exact keeps_bump c _ _ (by simp only [TenantReg, mbxStat, R.MBX_STAT]; omega)
  · exact ⟨fun _ _ => rfl, rfl⟩

theorem keeps_mbxTell (c : Chip) (slot type data : Nat) : KeepsTenants c (c.mbxTell slot type data) :=
  KeepsTenants.foldl (fun d i => keeps_mbxPost d (Fin.ofNat 1024 i) 0 _) _ c

end Sys2Proof.Proofs

end

section
/-! SUPPORT. The checks of a deckle and of the slice table after an access has superseded what its requester held, and the rows that write a
pair in one command. -/

namespace Sys2Proof.Proofs

open Sys2Proof.Machine Sys2Proof.Laws

/-! ### What superseding leaves -/

theorem supersede_regs (c : Chip) (r : Requester) :
    (∀ n, (c.supersede r).reg (R.DCK_CTL n) = c.reg (R.DCK_CTL n)) ∧ (∀ n, (c.supersede r).reg (R.DCK_LIMITS n) = c.reg (R.DCK_LIMITS n)) ∧
    (∀ n, (c.supersede r).reg (R.DCK_RADIO n) = c.reg (R.DCK_RADIO n)) ∧ (∀ n, (c.supersede r).reg (R.DCK_QUOTA n) = c.reg (R.DCK_QUOTA n)) ∧
    (∀ n, (c.supersede r).reg (R.TEN_STAT n) = c.reg (R.TEN_STAT n)) ∧ (∀ n, (c.supersede r).reg (R.CELL_STAT n) = c.reg (R.CELL_STAT n)) ∧
    (∀ n, (c.supersede r).reg (R.SLICE n) = c.reg (R.SLICE n)) ∧ (∀ n, (c.supersede r).wins n = c.wins n) := by
  have hwin : ∀ n w, (c.supersede r).win n w = c.win n w := by
    intro n w
    rw [Chip.win, Chip.win, supersede_reg c r (R.WIN0 n w) (by simp only [R.GLB_STAT, R.WIN0]; omega),
      supersede_reg c r (R.WIN1 n w) (by simp only [R.GLB_STAT, R.WIN1]; omega)]
  refine ⟨?_, ?_, ?_, ?_, ?_, ?_, ?_, fun n => List.map_congr_left fun w _ => hwin n w⟩ <;> intros <;> refine supersede_reg c r _ ?_ <;>
    simp only [R.GLB_STAT, R.DCK_CTL, R.DCK_LIMITS, R.DCK_RADIO, R.DCK_QUOTA, R.TEN_STAT, R.CELL_STAT, R.SLICE] <;> omega

theorem slotState_supersede (c : Chip) (r : Requester) : (c.supersede r).slotState = c.slotState := by
  funext n
  exact supersede_fld c r _ _ (by simp only [R.GLB_STAT, R.TEN_STAT]; omega)

/-- The checks of a slot's deckle read nothing that superseding changes. -/
theorem deckleChecks_supersede (c : Chip) (r : Requester) (slot : Nat) :
    (c.supersede r).deckle slot = c.deckle slot ∧ (∀ v, (c.supersede r).ctlBad slot v = c.ctlBad slot v) ∧
    (∀ n, (c.supersede r).cellsLeft slot n = c.cellsLeft slot n) ∧ (∀ o n, (c.supersede r).windowBusy slot o n = c.windowBusy slot o n) ∧
    (∀ l, (c.supersede r).limitBelow slot l = c.limitBelow slot l) ∧ (∀ d, (c.supersede r).deckleConflict slot d = c.deckleConflict slot d) := by
  obtain ⟨hctl, hlim, hradio, hquota, hten, hcell, -, hwins⟩ := supersede_regs c r
  have hkeep := keeps_supersede c r
  have hrings : (c.supersede r).ringCount = c.ringCount := by
    funext n k
    rw [Chip.ringCount, hkeep.rings, Chip.ringCount]
  have hkinds : (c.supersede r).slotKind = c.slotKind := by
    funext n
    rw [Chip.slotKind, Chip.fld, hctl, Chip.slotKind, Chip.fld]
  have hstates := slotState_supersede c r
  refine ⟨?_, fun v => ?_, fun n => ?_, fun o n => ?_, fun l => ?_, fun d => ?_⟩
  · simp only [Chip.deckle, hctl, hquota, hlim, hradio, hwins]
  · simp only [Chip.ctlBad, Chip.slotState, Chip.slotKind, Chip.slotCellsUp, Chip.cellUp, Chip.cellRange, Chip.fld, hctl, hten, hradio, hcell]
  · simp only [Chip.cellsLeft, Chip.cellUp, Chip.cellRange, Chip.fld, hradio, hcell]
  · simp only [Chip.windowBusy, Chip.pinnedRanges, Chip.flag, Chip.fld, hctl, hkeep.pages, hkeep.rings, hkeep.cells, hkeep.commands]
  · rw [Chip.limitBelow, hrings, Chip.limitBelow]
  · unfold Chip.deckleConflict
    rw [hkinds, hstates]
    simp only [hlim, hradio]

theorem deckleErr_supersede (c : Chip) (r : Requester) (slot : Nat) (reg : DeckleReg) (v0 v1 : W64) :
    (c.supersede r).deckleErr slot reg v0 v1 = c.deckleErr slot reg v0 v1 := by
  obtain ⟨hdeckle, hctl, hcells, hbusy, hlim, hconf⟩ := deckleChecks_supersede c r slot
  simp only [Chip.deckleErr, hdeckle, hctl, hcells, hbusy, hlim, hconf]

theorem sliceErr_supersede (c : Chip) (r : Requester) (i : Nat) (v : W64) : (c.supersede r).sliceErr i v = c.sliceErr i v := by
  obtain ⟨-, -, -, -, -, -, hslice, hwins⟩ := supersede_regs c r
  have hnamed : (c.supersede r).sliceNamed i = c.sliceNamed i := by simp only [Chip.sliceNamed, hwins, (keeps_supersede c r).rings]
  have hflags : ∀ f n, (c.supersede r).flag (R.SLICE n) f = c.flag (R.SLICE n) f := by simp only [Chip.flag, Chip.fld, hslice, implies_true]
  have hflds : ∀ f n, (c.supersede r).fld (R.SLICE n) f = c.fld (R.SLICE n) f := by simp only [Chip.fld, hslice, implies_true]
  unfold Chip.sliceErr
  rw [hslice, hnamed, slotState_supersede]
  simp only [hflags, hflds]

theorem early_supersede (c : Chip) (r q : Requester) : (c.supersede r).early q = c.early q := by
  simp only [Chip.early, supersede_fld c r R.BOOT_STAT F.BOOT_STAT.STAGE (by decide)]

/-! ### Rows that write a pair in one command -/

/-- A row of a live part through a port that is up acts on the part with what its requester held superseded. -/
theorem liveRow_next {s : State} {r : Requester} (f : Chip → Chip) (hlive : s.chip.live = true) (hport : s.chip.reaches r = true) :
    s.onLive (fun d => d.access r f) = .next { s with chip := f (s.chip.supersede r) } := by
  rw [onLive_next _ _ hlive, access_reaches _ _ _ hport]

/-- A write that is not taken mends nothing. -/
theorem mendWritten_untaken {c : Chip} {r : Requester} (m : Bool) (a : Nat) (v : W64) (h : (mayReachBar0 r && !c.early r) = false) :
    c.mendWritten r m a v = c := by
  unfold Chip.mendWritten
  split
  · rfl
  · split
    · rfl
    · rw [if_neg (by rw [Bool.and_assoc, h, Bool.and_false]; exact Bool.false_ne_true)]

theorem pairWrite_taken {r : Requester} {at_ : ErrAt} {a : Nat} {two ok : Bool} {f : Chip → Chip} {c : Chip} (hbar : mayReachBar0 r = true)
    (he : c.early r = false) : pairWrite r at_ a two ok f c = (if ok then f c else c.integrity at_).releasePair r a two := by
  simp [pairWrite, hbar, he]

theorem pairWrite_noPath {r : Requester} {at_ : ErrAt} {a : Nat} {two ok : Bool} {f : Chip → Chip} {c : Chip} (hbar : mayReachBar0 r = false) :
    pairWrite r at_ a two ok f c = c := by
  simp [pairWrite, hbar]

theorem pairWrite_early {r : Requester} {at_ : ErrAt} {a : Nat} {two ok : Bool} {f : Chip → Chip} {c : Chip} (hbar : mayReachBar0 r = true)
    (he : c.early r = true) : pairWrite r at_ a two ok f c = c.noteEarly := by
  simp [pairWrite, hbar, he]

/-- An ignored early write is counted and leaves the stage. -/
theorem noteEarly_early (c : Chip) (r : Requester) : c.noteEarly.early r = c.early r := by
  have hstage : c.noteEarly.fld R.BOOT_STAT F.BOOT_STAT.STAGE = c.fld R.BOOT_STAT F.BOOT_STAT.STAGE := by
    rw [Chip.noteEarly, Chip.mark, fld_setFld_beside _ _ _ _ _ (by decide), Chip.bump, fld_setFld_beside _ _ _ _ _ (by decide)]
  rw [Chip.early, hstage, Chip.early]

/-- A pair row without a path to BAR0 or too early mends nothing. -/
theorem pairRow_ignored {c : Chip} {r : Requester} {at_ : ErrAt} {a : Nat} {two ok m : Bool} {f : Chip → Chip} {b : Nat} {v : W64} :
    (mayReachBar0 r = false → (pairWrite r at_ a two ok f c).mendWritten r m b v = c) ∧
    (mayReachBar0 r = true → c.early r = true → (pairWrite r at_ a two ok f c).mendWritten r m b v = c.noteEarly) := by
  constructor
  · intro hbar
    rw [pairWrite_noPath hbar, mendWritten_untaken _ _ _ (by simp [hbar])]
  · intro hbar he
    rw [pairWrite_early hbar he, mendWritten_untaken _ _ _ (by simp [noteEarly_early, he])]

/-- A pair row that is taken yields what holds of every part that keeps the tenants of what it applied, or of the INTEGRITY error. -/
theorem pairRow_yields {i : Instr} {s : State} {r : Requester} {at_ : ErrAt} {a : Nat} {two ok m : Bool} {f : Chip → Chip} {b : Nat} {v : W64}
    {p : Chip → Prop}
    (hexec : exec i s = .next { s with chip := (pairWrite r at_ a two ok f (s.chip.supersede r)).mendWritten r m b v })
    (hbar : mayReachBar0 r = true) (he : s.chip.early r = false)
    (hp : ∀ c, KeepsTenants (if ok then f (s.chip.supersede r) else (s.chip.supersede r).integrity at_) c → p c) : Yields i s p := by
  rw [yields_iff hexec, pairWrite_taken hbar (by rw [early_supersede, he])]
  exact hp _ ((keeps_releasePair _ _ _ _).trans (keeps_mendWritten _ _ _ _ _))

/-- What a mismatched pair of the tenants' block comes to: the registers and tables stand, and the mismatch counts. -/
theorem mismatch_keeps {b : Chip} {r : Requester} {at_ : ErrAt} {c : Chip} (h : KeepsTenants ((b.supersede r).integrity at_) c) :
    (∀ x, TenantReg x → c.reg x = b.reg x) ∧ tabGetD c.health.counts 9 0 = tabGetD b.health.counts 9 0 + 1 := by
  refine ⟨fun x hx => ?_, ?_⟩
  · rw [h.reg x hx, integrity_tenantReg _ _ hx, (keeps_supersede _ _).reg x hx]
  · rw [h.health, integrity_counted, (keeps_supersede _ _).health]

end Sys2Proof.Proofs

end

section
/-! SUPPORT. What a deckle write, a slot's enabling and its release come to (R286, R287, R289, R305). -/

namespace Sys2Proof.Proofs

open Sys2Proof.Machine Sys2Proof.Laws

/-! ### Words under a mask -/

/-- A field under a mask that covers it reads as before. -/
theorem fget_and_covered (x m : W64) (f : Fld) (h : ∀ i < f.w, m.getLsbD (f.lo + i) = true) : fget (x &&& m) f = fget x f := by
  apply Nat.eq_of_testBit_eq
  intro i
  rw [fget_bit, fget_bit, BitVec.getLsbD_and]
  by_cases hi : i < f.w
  · rw [h i hi, Bool.and_true]
  · simp [hi]

/-- DCK_CTL takes its writable bits (R8). -/
theorem regWrite_dckCtl (v : W64) : regWrite .DCK_CTL 0 v = v &&& 0xfc0ffffffff0000#64 := by
  show (0#64 &&& _) ||| (v &&& _) = _
  rw [BitVec.zero_and, BitVec.zero_or]

/-- ENABLE and RELEASE written to DCK_CTL read as written. -/
theorem dckCtl_enable (x : W64) : fget (regWrite .DCK_CTL 0 (fput x F.DCK_CTL.ENABLE 1)) F.DCK_CTL.ENABLE = 1 := by
  rw [regWrite_dckCtl, fget_and_covered _ _ _ (by decide), fget_fput _ _ _ (by decide)]
  rfl

theorem dckCtl_release (x : W64) : fget (regWrite .DCK_CTL 0 (fput x F.DCK_CTL.RELEASE 1)) F.DCK_CTL.RELEASE = 1 := by
  rw [regWrite_dckCtl, fget_and_covered _ _ _ (by decide), fget_fput _ _ _ (by decide)]
  rfl

/-! ### TEN_STAT -/

/-- A refusal shows its reason in TEN_STAT. -/
theorem tenRefuse_err (c : Chip) (slot : Nat) {err : Nat} (h : err < 16) : (c.tenRefuse slot err).fld (R.TEN_STAT slot) F.TEN_STAT.ERR = err := by
  rw [Chip.tenRefuse, fld_setFld_same _ _ _ _ (by decide)]
  exact Nat.mod_eq_of_lt h

theorem tenRefuse_flag (c : Chip) (slot err : Nat) : (c.tenRefuse slot err).flag (R.TEN_STAT slot) F.TEN_STAT.CFG_REFUSED = true := by
  rw [Chip.flag, Chip.tenRefuse, fld_setFld_beside _ _ _ _ _ (by decide), Chip.mark, fld_setFld_same _ _ _ _ (by decide)]
  rfl

/-- It leaves the slot's state, and every other register. -/
theorem tenRefuse_slotState (c : Chip) (slot err : Nat) : (c.tenRefuse slot err).slotState slot = c.slotState slot := by
  rw [Chip.slotState, Chip.tenRefuse, fld_setFld_beside _ _ _ _ _ (by decide), Chip.mark, fld_setFld_beside _ _ _ _ _ (by decide), Chip.slotState]

theorem tenRefuse_reg (c : Chip) (slot err : Nat) {x : RegRef} (h : (R.TEN_STAT slot).addr ≠ x.addr) : (c.tenRefuse slot err).reg x = c.reg x := by
  rw [Chip.tenRefuse, Chip.setFld, reg_setReg_other _ _ _ _ h, Chip.mark, Chip.setFld, reg_setReg_other _ _ _ _ h]

theorem tenDone_err (c : Chip) (slot : Nat) : (c.tenDone slot).fld (R.TEN_STAT slot) F.TEN_STAT.ERR = 0 := fld_setFld_same _ _ _ _ (by decide)

theorem tenDone_slotState (c : Chip) (slot : Nat) : (c.tenDone slot).slotState slot = c.slotState slot :=
  fld_setFld_beside _ _ _ _ _ (by decide)

theorem tenDone_flag (c : Chip) (slot : Nat) : (c.tenDone slot).flag (R.TEN_STAT slot) F.TEN_STAT.KEY_VALID = c.flag (R.TEN_STAT slot) F.TEN_STAT.KEY_VALID := by
  rw [Chip.flag, Chip.tenDone, fld_setFld_beside _ _ _ _ _ (by decide), Chip.flag]

theorem tenDone_reg (c : Chip) (slot : Nat) {x : RegRef} (h : (R.TEN_STAT slot).addr ≠ x.addr) : (c.tenDone slot).reg x = c.reg x :=
  reg_setReg_other _ _ _ _ h

/-- TEN_STAT is no register of a deckle. -/
theorem tenStat_ne_deckleRef (slot : Fin 64) (reg : DeckleReg) (n : Nat) : (R.TEN_STAT n).addr ≠ (deckleRef slot.val reg).addr := by
  cases reg <;> simp only [deckleRef, R.TEN_STAT, R.DCK_CTL, R.DCK_QUOTA, R.DCK_LIMITS, R.DCK_SHP, R.DCK_FAB, R.DCK_RADIO, R.WIN0] <;> omega

theorem tenStat_ne_dckCtl (n m : Nat) (h : m < 64) : (R.TEN_STAT n).addr ≠ (R.DCK_CTL m).addr := tenStat_ne_deckleRef ⟨m, h⟩ .ctl n

theorem tenStat_ne_win1 (n m : Nat) (w : Fin 16) : (R.TEN_STAT n).addr ≠ (R.WIN1 m w.val).addr := by
  simp only [R.TEN_STAT, R.WIN1]
  omega

/-- A refusal leaves every deckle. -/
theorem tenRefuse_deckle (c : Chip) (n : Nat) (slot : Fin 64) (err : Nat) : (c.tenRefuse n err).deckle slot.val = c.deckle slot.val :=
  deckle_congr (fun reg => tenRefuse_reg c n err (tenStat_ne_deckleRef slot reg n)) (fun w => tenRefuse_reg c n err (tenStat_ne_win1 n _ w))

/-! ### A deckle write that is applied -/

/-- The reasons of a refused deckle write fit ERR. -/
theorem deckleErr_lt (c : Chip) (slot : Nat) (reg : DeckleReg) (v0 v1 : W64) : c.deckleErr slot reg v0 v1 < 16 := by
  unfold Chip.deckleErr
  simp only []
  repeat' split
  all_goals decide

/-- A refused deckle write shows its reason. -/
theorem applyDeckle_refused {o slot : Nat} {reg : DeckleReg} {v0 v1 : W64} {c : Chip}
    (h : c.deckleErr slot reg (regWrite (deckleIds reg).1 0 v0) (regWrite (deckleIds reg).2 0 v1) ≠ 0) :
    applyDeckle o slot reg v0 v1 c = c.tenRefuse slot (c.deckleErr slot reg (regWrite (deckleIds reg).1 0 v0) (regWrite (deckleIds reg).2 0 v1)) := by
  unfold applyDeckle
  exact if_pos h

/-- One logged register put after ERR reads done. -/
theorem setLogged_tenDone (c : Chip) (o : Nat) (slot : Fin 64) {r : RegRef} (v : W64) (h : (R.TEN_STAT slot.val).addr ≠ r.addr) :
    ((c.tenDone slot.val).setLogged o r v).reg (R.TEN_STAT slot.val) = (c.tenDone slot.val).reg (R.TEN_STAT slot.val) :=
  setLogged_tenantReg _ _ _ (tenantReg_tenStat slot.isLt) (Ne.symm h)

end Sys2Proof.Proofs

end

section
/-! SUPPORT. A deckle write that is stored, a slot's enabling and its release (R286, R287). -/

namespace Sys2Proof.Proofs

open Sys2Proof.Machine Sys2Proof.Laws

/-- An accepted deckle write but of DCK_CTL: its words are stored, ERR reads done, and the slot's state, pages and keys stand. -/
theorem applyDeckle_stored {o : Nat} {slot : Fin 64} {reg : DeckleReg} {v0 v1 : W64} {c : Chip} (hctl : reg ≠ .ctl)
    (h : c.deckleErr slot.val reg (regWrite (deckleIds reg).1 0 v0) (regWrite (deckleIds reg).2 0 v1) = 0) :
    let d := applyDeckle o slot.val reg v0 v1 c
    d.reg (deckleRef slot.val reg) = regWrite (deckleIds reg).1 0 v0 ∧
    (∀ w, deckleWin reg = some w → d.reg (R.WIN1 slot.val w.val) = regWrite (deckleIds reg).2 0 v1) ∧
    d.reg (R.TEN_STAT slot.val) = (c.tenDone slot.val).reg (R.TEN_STAT slot.val) ∧ estate d = estate c := by
  have hput : ∀ (r : RegRef) (v : W64), (R.TEN_STAT slot.val).addr ≠ r.addr →
      ((c.tenDone slot.val).setLogged o r v).reg r = v ∧
      ((c.tenDone slot.val).setLogged o r v).reg (R.TEN_STAT slot.val) = (c.tenDone slot.val).reg (R.TEN_STAT slot.val) ∧
      estate ((c.tenDone slot.val).setLogged o r v) = estate c :=
    fun r v hr => ⟨reg_setLogged_same _ _ _ _, setLogged_tenDone c o slot v hr, estate_setLogged _ _ _ _⟩
  have hne := tenStat_ne_deckleRef slot reg slot.val
  unfold applyDeckle
  simp only [h, ne_eq, not_true_eq_false, if_false]
  cases reg with
  | ctl => exact absurd rfl hctl
  | quota | limits | shp | fab | radio =>
    obtain ⟨hreg, hten, hrest⟩ := hput _ (regWrite _ 0 v0) hne
    exact ⟨hreg, fun w hw => absurd hw (by simp [deckleWin]), hten, hrest⟩
  | win w =>
    obtain ⟨hreg, hten, hrest⟩ := hput _ (regWrite _ 0 v0) hne
    have hwin : (R.WIN1 slot.val w.val).addr ≠ (R.WIN0 slot.val w.val).addr := by simp only [R.WIN0, R.WIN1]; omega
    refine ⟨?_, fun w' hw' => ?_, ?_, ?_⟩
    · exact (setLogged_tenantReg _ _ _ (deckleRef_tenantReg slot (.win w)) hwin).trans hreg
    · cases hw'
      exact reg_setLogged_same _ _ _ _
    · exact (setLogged_tenantReg _ _ _ (tenantReg_tenStat slot.isLt) (Ne.symm (tenStat_ne_win1 _ _ w))).trans hten
    · exact (estate_setLogged _ _ _ _).trans hrest

/-! ### Enabling a slot -/

theorem drawKey_length (n : Nat) (c : Chip) : (c.drawKey n).1.length = n := by
  induction n generalizing c with
  | zero => rfl
  | succ n ih => exact congrArg (· + 1) (ih _)

/-- Drawing a key changes the draws alone. -/
theorem drawKey_form (n : Nat) (c : Chip) : ∃ k, (c.drawKey n).2 = { c with freeCtr := k } := by
  induction n generalizing c with
  | zero => exact ⟨c.freeCtr, rfl⟩
  | succ n ih =>
    obtain ⟨k, h⟩ := ih c.free.2
    exact ⟨k, h⟩

/-- A slot's key put, after draws of it. -/
def withKey (c : Chip) (slot : Nat) (ws : List W64) (k : Nat) : Chip := { c with freeCtr := k, keys := tabPut c.keys slot ws }

/-- A generated key has eight words, and TEN_STAT shows it. -/
theorem generateKey_form (c : Chip) (slot : Nat) : ∃ (ws : List W64) (k : Nat), ws.length = 8 ∧
    c.generateKey slot = (withKey c slot ws k).mark (R.TEN_STAT slot) F.TEN_STAT.KEY_VALID := by
  obtain ⟨k, h⟩ := drawKey_form 8 c
  refine ⟨(c.drawKey 8).1, k, drawKey_length 8 c, ?_⟩
  show ({ (c.drawKey 8).2 with keys := tabPut (c.drawKey 8).2.keys slot (c.drawKey 8).1 } : Chip).mark _ _ = _
  rw [h]
  rfl

/-- The part once an accepted DCK_CTL word has moved a slot to a state. -/
def slotMoved (o slot : Nat) (w : W64) (st : Nat) (c : Chip) : Chip :=
  ((c.tenDone slot).setLogged o (R.DCK_CTL slot) w).setFld (R.TEN_STAT slot) F.TEN_STAT.STATE st

/-- What an accepted DCK_CTL word leaves of the slot before it moves. -/
theorem ctlStored_slotState (c : Chip) (o : Nat) (slot : Fin 64) (w : W64) :
    ((c.tenDone slot.val).setLogged o (R.DCK_CTL slot.val) w).slotState slot.val = c.slotState slot.val := by
  rw [Chip.slotState, Chip.fld, setLogged_tenDone c o slot w (tenStat_ne_dckCtl _ _ slot.isLt)]
  exact tenDone_slotState c slot.val

theorem slotMoved_slotState (c : Chip) (o slot : Nat) (w : W64) {st : Nat} (h : st < 4) : (slotMoved o slot w st c).slotState slot = st :=
  (fld_setFld_same _ _ _ _ (by decide)).trans (Nat.mod_eq_of_lt h)

theorem slotMoved_dckCtl (c : Chip) (o : Nat) (slot : Fin 64) (w : W64) (st : Nat) : (slotMoved o slot.val w st c).reg (R.DCK_CTL slot.val) = w := by
  rw [slotMoved, Chip.setFld, reg_setReg_other _ _ _ _ (tenStat_ne_dckCtl _ _ slot.isLt), reg_setLogged_same]

theorem slotMoved_keyValid (c : Chip) (o : Nat) (slot : Fin 64) (w : W64) (st : Nat) :
    (slotMoved o slot.val w st c).flag (R.TEN_STAT slot.val) F.TEN_STAT.KEY_VALID = c.flag (R.TEN_STAT slot.val) F.TEN_STAT.KEY_VALID := by
  rw [← tenDone_flag c slot.val, Chip.flag, slotMoved, fld_setFld_beside _ _ _ _ _ (by decide), Chip.fld,
    setLogged_tenDone c o slot w (tenStat_ne_dckCtl _ _ slot.isLt), Chip.flag, Chip.fld]

theorem estate_slotMoved (c : Chip) (o slot : Nat) (w : W64) (st : Nat) : estate (slotMoved o slot w st c) = estate c := estate_setLogged _ _ _ _

section
variable {o : Nat} {slot : Fin 64} {v : W64} {c : Chip} (herr : c.deckleErr slot.val .ctl (regWrite .DCK_CTL 0 v) 0 = 0)
include herr

/-- An accepted ENABLE of a free slot moves it to active, and draws a key where it holds none. -/
theorem applyDeckle_enable_eq (hrel : fget (regWrite .DCK_CTL 0 v) F.DCK_CTL.RELEASE = 0) (hen : fget (regWrite .DCK_CTL 0 v) F.DCK_CTL.ENABLE ≠ 0)
    (hfree : c.slotState slot.val = 0) :
    applyDeckle o slot.val .ctl v 0 c =
      if c.flag (R.TEN_STAT slot.val) F.TEN_STAT.KEY_VALID then slotMoved o slot.val (regWrite .DCK_CTL 0 v) 1 c
      else (slotMoved o slot.val (regWrite .DCK_CTL 0 v) 1 c).generateKey slot.val := by
  have herr' : c.deckleErr slot.val .ctl (regWrite (deckleIds .ctl).1 0 v) (regWrite (deckleIds .ctl).2 0 0) = 0 := herr
  rw [← slotMoved_keyValid c o slot (regWrite .DCK_CTL 0 v) 1]
  unfold applyDeckle
  simp only [herr', ne_eq, not_true_eq_false, if_false]
  rw [if_neg (fun h => h.1 hrel), if_pos ⟨hen, (ctlStored_slotState c o slot _).trans hfree⟩]
  rfl

/-- An accepted RELEASE moves the slot to draining, tells its slices and begins the drain. -/
theorem applyDeckle_release_eq (hrel : fget (regWrite .DCK_CTL 0 v) F.DCK_CTL.RELEASE ≠ 0)
    (hold : fget (c.reg (R.DCK_CTL slot.val)) F.DCK_CTL.RELEASE = 0) :
    applyDeckle o slot.val .ctl v 0 c = ((slotMoved o slot.val (regWrite .DCK_CTL 0 v) 2 c).mbxTell slot.val 4 0).beginDrain slot.val := by
  have herr' : c.deckleErr slot.val .ctl (regWrite (deckleIds .ctl).1 0 v) (regWrite (deckleIds .ctl).2 0 0) = 0 := herr
  unfold applyDeckle
  simp only [herr', ne_eq, not_true_eq_false, if_false]
  rw [if_pos ⟨hrel, by rw [tenDone_reg _ _ (tenStat_ne_dckCtl _ _ slot.isLt)]; exact hold⟩]
  rfl

/-- Enabling a free slot makes it active and gives it a key where it holds none. -/
theorem applyDeckle_enable (hrel : fget (regWrite .DCK_CTL 0 v) F.DCK_CTL.RELEASE = 0) (hen : fget (regWrite .DCK_CTL 0 v) F.DCK_CTL.ENABLE ≠ 0)
    (hfree : c.slotState slot.val = 0) :
    let d := applyDeckle o slot.val .ctl v 0 c
    d.slotState slot.val = 1 ∧ d.reg (R.DCK_CTL slot.val) = regWrite .DCK_CTL 0 v ∧ d.flag (R.TEN_STAT slot.val) F.TEN_STAT.KEY_VALID = true ∧
    (c.flag (R.TEN_STAT slot.val) F.TEN_STAT.KEY_VALID = true → d.keys = c.keys) ∧
    (c.flag (R.TEN_STAT slot.val) F.TEN_STAT.KEY_VALID = false → (tabGet d.keys slot.val).map List.length = some 8) := by
  rw [applyDeckle_enable_eq herr hrel hen hfree]
  have hstate := slotMoved_slotState c o slot.val (regWrite .DCK_CTL 0 v) (st := 1) (by decide)
  have hctl := slotMoved_dckCtl c o slot (regWrite .DCK_CTL 0 v) 1
  cases hkey : c.flag (R.TEN_STAT slot.val) F.TEN_STAT.KEY_VALID with
  | true =>
    refine ⟨hstate, hctl, (slotMoved_keyValid _ _ _ _ _).trans hkey, fun _ => ?_, fun h => absurd h (by decide)⟩
    exact estate_keys (estate_slotMoved c o slot.val (regWrite .DCK_CTL 0 v) 1)
  | false =>
    obtain ⟨ws, k, hws, hgen⟩ := generateKey_form (slotMoved o slot.val (regWrite .DCK_CTL 0 v) 1 c) slot.val
    simp only [Bool.false_eq_true, if_false, hgen]
    refine ⟨?_, ?_, ?_, fun h => h.elim, fun _ => ?_⟩
    · exact (fld_setFld_beside _ _ _ _ _ (by decide)).trans hstate
    · exact (reg_setReg_other _ _ _ _ (tenStat_ne_dckCtl _ _ slot.isLt)).trans hctl
    · rw [Chip.flag, Chip.mark, fld_setFld_same _ _ _ _ (by decide)]
      rfl
    · show (tabGet (tabPut _ slot.val ws) slot.val).map List.length = some 8
      rw [tabGet_put_same, Option.map_some, hws]

end

/-! ### Releasing a slot -/

/-- The drain begins with the tasks of the slot gone: none waits, and no sheet runs one. -/
def withoutTasks (c : Chip) (slot : Nat) : Chip :=
  let d := c.dropTasks (fun t => t.slot == slot)
  (d.keysWhere (fun t => t.slot == slot)).foldl (fun c k => c.killSheet k false) d

theorem keeps_withoutTasks (c : Chip) (slot : Nat) : KeepsTenants (c.dropTasks (fun t => t.slot == slot)) (withoutTasks c slot) :=
  KeepsTenants.foldl keeps_killSheet _ _

theorem mem_tabDel_key {α : Type} {t : Tab α} {k : Nat} {x : Nat × α} (h : x ∈ tabDel t k) : x.1 ≠ k := by
  induction t with
  | nil => cases h
  | cons y t ih =>
    obtain ⟨j, w⟩ := y
    simp only [tabDel] at h
    split at h
    · exact ih h
    · rename_i hj
      rcases List.mem_cons.1 h with rfl | h
      · exact hj
      · exact ih h

/-- A context is gone once it has been freed, with all others of a list. -/
theorem freeContexts_gone (l : List Nat) (c : Chip) {x : Nat × Context} (h : x ∈ (l.foldl (fun c n => c.freeContext n) c).contexts) :
    x ∈ c.contexts ∧ x.1 ∉ l := by
  induction l generalizing c with
  | nil => exact ⟨h, List.not_mem_nil⟩
  | cons n t ih =>
    obtain ⟨hmem, hnot⟩ := ih (c.freeContext n) h
    have hmem : x ∈ tabDel c.contexts n := hmem
    exact ⟨mem_tabDel hmem, fun hin => (List.mem_cons.1 hin).elim (mem_tabDel_key hmem) hnot⟩

/-- Freeing contexts leaves the registers, keys, pages, commands and drains. -/
theorem freeContexts_keeps {β : Type} (g : Chip → β) (hg : ∀ c n, g (c.freeContext n) = g c) (l : List Nat) (c : Chip) :
    g (l.foldl (fun c n => c.freeContext n) c) = g c := foldl_keeps g _ hg l c

/-- A release empties the slot: its contexts go, what is left of its commands has ended, and it drains. -/
theorem beginDrain_effect (c : Chip) (slot : Nat) :
    let d := c.beginDrain slot
    (∀ x, TenantReg x → d.reg x = c.reg x) ∧ d.keys = c.keys ∧ d.pages = c.pages ∧ (∃ e ∈ d.drains, e.slot = slot) ∧
    (∀ x ∈ d.contexts, x.2.slot ≠ slot) ∧
    (∀ u m, d.command u = some m → m.slot = slot → m.ending = some ⟨0, 0, 0⟩ ∧ m.deferred = []) := by
  have hkeep := keeps_withoutTasks c slot
  unfold Chip.beginDrain
  simp only []
  change KeepsTenants _ _ at hkeep
  refine ⟨fun x hx => ?_, ?_, ?_, ?_, fun x hx hslot => ?_, fun u m hm hslot => ?_⟩
  · exact (freeContexts_keeps (fun c => c.reg x) (fun _ _ => rfl) _ _).trans (hkeep.reg x hx)
  · exact (freeContexts_keeps Chip.keys (fun _ _ => rfl) _ _).trans hkeep.keys
  · exact (freeContexts_keeps Chip.pages (fun _ _ => rfl) _ _).trans hkeep.pages
  · rw [freeContexts_keeps Chip.drains (fun _ _ => rfl)]
    exact ⟨⟨slot, _⟩, List.mem_append_right _ (List.mem_singleton.2 rfl), rfl⟩
  · obtain ⟨hmem, hnot⟩ := freeContexts_gone _ _ hx
    exact hnot (List.mem_map.2 ⟨x, List.mem_filter.2 ⟨hmem, beq_iff_eq.2 hslot⟩, rfl⟩)
  · rw [Chip.command, freeContexts_keeps Chip.commands (fun _ _ => rfl)] at hm
    obtain ⟨k, -, rfl⟩ := List.mem_map.1 (List.mem_of_find?_eq_some hm)
    by_cases hk : k.slot = slot
    · rw [if_pos hk]
      exact ⟨rfl, rfl⟩
    · rw [if_neg hk] at hslot
      exact absurd hslot hk

end Sys2Proof.Proofs

end

section
/-! SUPPORT. KEY_CMD (R293), the slice table (R295) and the end of a drain (R287). -/

namespace Sys2Proof.Proofs

open Sys2Proof.Machine Sys2Proof.Laws

/-- A fold keeps a property that each step of its list keeps. -/
theorem foldl_inv_mem {α : Type} (p : Chip → Prop) (f : Chip → α → Chip) :
    ∀ (l : List α), (∀ c, ∀ x ∈ l, p c → p (f c x)) → ∀ c, p c → p (l.foldl f c)
  | [], _, _, hc => hc
  | x :: t, h, c, hc =>
    foldl_inv_mem p f t (fun d y hy => h d y (List.mem_cons_of_mem x hy)) _ (h c x (List.mem_cons_self ..) hc)

/-! ### The staging words of a key -/

/-- A register that reads 0 still does when a register of the same reset word is put to 0. -/
theorem reg_setReg_zero {c : Chip} {r q : RegRef} (hrst : r.rst = q.rst) (h : c.reg q = 0) : (c.setReg r 0).reg q = 0 := by
  by_cases e : r.addr = q.addr
  · obtain rfl : r = q := by cases r; cases q; simp_all
    exact reg_setReg_same _ _ _
  · rw [reg_setReg_other _ _ _ _ e, h]

theorem clearKeyStage_zero (c : Chip) (slot : Nat) {k : Nat} (hk : k < 8) :
    (c.clearKeyStage slot).reg (R.KEY_V slot k) = 0 ∧ (c.clearKeyStage slot).reg (R.KEY_C slot k) = 0 := by
  unfold Chip.clearKeyStage
  refine foldl_reaches (fun d => d.reg (R.KEY_V slot k) = 0 ∧ d.reg (R.KEY_C slot k) = 0) _ (a := k) (fun d => ⟨?_, ?_⟩) (fun d x h => ⟨?_, ?_⟩) _
    (List.mem_range.2 hk) c
  · exact reg_setReg_zero rfl (reg_setReg_same _ _ _)
  · exact reg_setReg_same _ _ _
  · exact reg_setReg_zero rfl (reg_setReg_zero rfl h.1)
  · exact reg_setReg_zero rfl (reg_setReg_zero rfl h.2)

/-- Clearing the staging words leaves TEN_STAT. -/
theorem clearKeyStage_tenStat (c : Chip) (slot n : Nat) : (c.clearKeyStage slot).reg (R.TEN_STAT n) = c.reg (R.TEN_STAT n) := by
  unfold Chip.clearKeyStage
  refine foldl_inv_mem (fun d => d.reg (R.TEN_STAT n) = c.reg (R.TEN_STAT n)) _ _ (fun d k hk hd => ?_) c rfl
  have hk := List.mem_range.1 hk
  rw [reg_setReg_other _ _ _ _ (by simp only [R.KEY_C, R.TEN_STAT]; omega), reg_setReg_other _ _ _ _ (by simp only [R.KEY_V, R.TEN_STAT]; omega), hd]

theorem clearKeyStage_fld (c : Chip) (slot n : Nat) (f : Fld) : (c.clearKeyStage slot).fld (R.TEN_STAT n) f = c.fld (R.TEN_STAT n) f := by
  rw [Chip.fld, clearKeyStage_tenStat, Chip.fld]

theorem estate_setReg (c : Chip) (r : RegRef) (v : W64) : estate (c.setReg r v) = estate c := rfl

theorem estate_clearKeyStage (c : Chip) (slot : Nat) : estate (c.clearKeyStage slot) = estate c := by
  unfold Chip.clearKeyStage
  refine foldl_keeps estate _ (fun d k => ?_) _ c
  rw [estate_setReg, estate_setReg]

theorem keyStaged_supersede (c : Chip) (r : Requester) (slot : Nat) : (c.supersede r).keyStaged slot = c.keyStaged slot := by
  have hv : ∀ k, (c.supersede r).reg (R.KEY_V slot k) = c.reg (R.KEY_V slot k) :=
    fun k => supersede_reg _ _ _ (by simp only [R.GLB_STAT, R.KEY_V]; omega)
  have hc : ∀ k, (c.supersede r).reg (R.KEY_C slot k) = c.reg (R.KEY_C slot k) :=
    fun k => supersede_reg _ _ _ (by simp only [R.GLB_STAT, R.KEY_C]; omega)
  simp only [Chip.keyStaged, hv, hc]

/-! ### KEY_CMD -/

/-- An accepted KEY_CMD is logged with zeros, ERR reads done, and the key RAM's word is sound again. -/
def keyLogged (r : Requester) (slot : Nat) (c : Chip) : Chip :=
  ((c.logOp (c.origin r) 4 slot 0 0).tenDone slot).mend (.keyRam (Fin.ofNat 64 slot))

theorem keyLogged_err (r : Requester) (slot : Nat) (c : Chip) : (keyLogged r slot c).fld (R.TEN_STAT slot) F.TEN_STAT.ERR = 0 :=
  tenDone_err (c.logOp (c.origin r) 4 slot 0 0) slot

theorem keys_keyLogged (r : Requester) (slot : Nat) (c : Chip) : (keyLogged r slot c).keys = c.keys := (keeps_logOp c (c.origin r) 4 slot 0 0).keys

section
variable {r : Requester} {c : Chip} (hbar : mayReachBar0 r = true) (he : c.early r = false)
include hbar he

/-- On a slot that is not free, or with mismatched words, KEY_CMD loads nothing. -/
theorem keyCmd_busy {slot : Nat} (load : Bool) (h : c.slotState slot ≠ 0) : keyCmd r slot load c = (c.tenRefuse slot 2).clearKeyStage slot := by
  simp [keyCmd, hbar, he, h]

theorem keyCmd_mismatch {slot : Nat} (h : c.slotState slot = 0) (hs : c.keyStaged slot = false) :
    keyCmd r slot true c = ((c.integrity atChip).setFld (R.TEN_STAT slot) F.TEN_STAT.ERR 1).clearKeyStage slot := by
  simp [keyCmd, hbar, he, h, hs]

/-- Otherwise the slot takes eight words as its key, the staged ones where they are loaded. -/
theorem keyCmd_taken {slot : Nat} (load : Bool) (h : c.slotState slot = 0) (hs : load = true → c.keyStaged slot = true) :
    ∃ (ws : List W64) (k : Nat), ws.length = 8 ∧ (load = true → ws = (List.range 8).map (fun k => c.reg (R.KEY_V slot k))) ∧
      keyCmd r slot load c = ((withKey (keyLogged r slot c) slot ws k).mark (R.TEN_STAT slot) F.TEN_STAT.KEY_VALID).clearKeyStage slot := by
  cases load with
  | true =>
    refine ⟨(List.range 8).map (fun k => c.reg (R.KEY_V slot k)), (keyLogged r slot c).freeCtr, ?_, fun _ => rfl, ?_⟩
    · rw [List.length_map, List.length_range]
    · simp only [keyCmd, hbar, he, h, hs rfl, not_true_eq_false, Bool.false_eq_true, if_false, ne_eq, and_false, if_true]
      rfl
  | false =>
    obtain ⟨ws, k, hws, hgen⟩ := generateKey_form (keyLogged r slot c) slot
    refine ⟨ws, k, hws, nofun, ?_⟩
    rw [← hgen]
    simp only [keyCmd, hbar, he, h, not_true_eq_false, Bool.false_eq_true, if_false, ne_eq, false_and]
    rfl

end

/-- A key that is taken: its slot holds it and shows it, no other slot's key moves, and the staging words read 0. -/
theorem keyTaken_effect (r : Requester) (c : Chip) (slot : Nat) (ws : List W64) (n : Nat) :
    let e := ((withKey (keyLogged r slot c) slot ws n).mark (R.TEN_STAT slot) F.TEN_STAT.KEY_VALID).clearKeyStage slot
    (∀ k < 8, e.reg (R.KEY_V slot k) = 0 ∧ e.reg (R.KEY_C slot k) = 0) ∧ tabGet e.keys slot = some ws ∧
    (∀ j, j ≠ slot → tabGet e.keys j = tabGet c.keys j) ∧ e.flag (R.TEN_STAT slot) F.TEN_STAT.KEY_VALID = true ∧
    e.fld (R.TEN_STAT slot) F.TEN_STAT.ERR = 0 := by
  intro e
  have hkeys : e.keys = tabPut c.keys slot ws := by
    rw [estate_keys (estate_clearKeyStage _ _)]
    exact congrArg (tabPut · slot ws) (keys_keyLogged r slot c)
  refine ⟨fun k h => clearKeyStage_zero _ _ h, ?_, fun j hj => ?_, ?_, ?_⟩
  · rw [hkeys, tabGet_put_same]
  · rw [hkeys, tabGet_put_other _ _ (Ne.symm hj)]
  · rw [Chip.flag, clearKeyStage_fld, Chip.mark, fld_setFld_same _ _ _ _ (by decide)]
    rfl
  · rw [clearKeyStage_fld, Chip.mark, fld_setFld_beside _ _ _ _ _ (by decide)]
    exact keyLogged_err r slot c

/-! ### The slice table -/

theorem sliceErr_lt (c : Chip) (i : Nat) (v : W64) : c.sliceErr i v < 16 := by
  unfold Chip.sliceErr
  simp only []
  repeat' split
  all_goals decide

theorem tenStat_ne_slice (n i : Nat) : (R.TEN_STAT n).addr ≠ (R.SLICE i).addr := by
  simp only [R.TEN_STAT, R.SLICE]
  omega

/-- An accepted slice write is stored. -/
theorem applySlice_stored {o i : Nat} {v : W64} {c : Chip} (h : c.sliceErr i (regWrite .SLICE 0 v) = 0) :
    applySlice o i v c = c.setLogged o (R.SLICE i) (regWrite .SLICE 0 v) := by
  unfold applySlice
  exact if_pos h

/-- A refused one shows its reason in the slots it concerns, and the slice table stands. -/
theorem applySlice_refused {o i : Nat} {v : W64} {c : Chip} (h : c.sliceErr i (regWrite .SLICE 0 v) ≠ 0) :
    let d := applySlice o i v c
    d.reg (R.SLICE i) = c.reg (R.SLICE i) ∧
    ∀ t, t = fget (regWrite .SLICE 0 v) F.SLICE.SLOT ∨ t = c.sliceSlot i →
      d.fld (R.TEN_STAT t) F.TEN_STAT.ERR = c.sliceErr i (regWrite .SLICE 0 v) ∧ d.flag (R.TEN_STAT t) F.TEN_STAT.CFG_REFUSED = true := by
  have hlt := sliceErr_lt c i (regWrite .SLICE 0 v)
  unfold applySlice
  simp only [if_neg h]
  split
  · rename_i hsame
    refine ⟨tenRefuse_reg _ _ _ (tenStat_ne_slice _ _), fun t ht => ?_⟩
    obtain rfl : t = c.sliceSlot i := ht.elim (fun h => h.trans hsame) id
    exact ⟨tenRefuse_err _ _ hlt, tenRefuse_flag _ _ _⟩
  · rename_i hdiff
    refine ⟨?_, fun t ht => ?_⟩
    · rw [tenRefuse_reg _ _ _ (tenStat_ne_slice _ _), tenRefuse_reg _ _ _ (tenStat_ne_slice _ _)]
    · rcases ht with rfl | rfl
      · exact ⟨tenRefuse_err _ _ hlt, tenRefuse_flag _ _ _⟩
      · have hne : (R.TEN_STAT (fget (regWrite .SLICE 0 v) F.SLICE.SLOT)).addr ≠ (R.TEN_STAT (c.sliceSlot i)).addr := by
          simp only [R.TEN_STAT]
          omega
        have hreg := tenRefuse_reg (c.tenRefuse (c.sliceSlot i) (c.sliceErr i (regWrite .SLICE 0 v))) _ (c.sliceErr i (regWrite .SLICE 0 v)) hne
        simp only [Chip.flag, Chip.fld, hreg]
        exact ⟨tenRefuse_err _ _ hlt, tenRefuse_flag _ _ _⟩

/-! ### The end of a drain -/

/-- The part without its pages and what is held of them, the cache and the registers. -/
def withoutPages (c : Chip) : Chip := { c with pages := [], mem := [], migrations := [], kvSealed := [], poison := [], pfxPool := [], regs := [] }

/-- A page that is dropped where it is mapped. -/
def dropMapped (c : Chip) (k : Nat) : Chip :=
  match tabGet c.pages k with
  | some p => c.dropPage k p
  | none => c

/-- A cached entry that is forgotten and counted. -/
def forgetEntry (e : PfxEntry) (c : Chip) : Chip :=
  ({ c with pfxPool := c.pfxPool.filter (fun x => x != e) } : Chip).bump R.PFX_CNT F.PFX_CNT.EVICTED 1

theorem pfxEvict_eq (c : Chip) (e : PfxEntry) :
    c.pfxEvict e = forgetEntry e ((c.objectPages e.slot e.object (geometryBytes e.geometry)).foldl dropMapped c) := rfl

theorem withoutPages_dropMapped (c : Chip) (k : Nat) : withoutPages (dropMapped c k) = withoutPages c := by
  unfold dropMapped
  split <;> rfl

theorem withoutPages_forgetEntry (e : PfxEntry) (c : Chip) : withoutPages (forgetEntry e c) = withoutPages c := rfl

/-- Evicting cached entries leaves all else. -/
theorem withoutPages_pfxEvict (c : Chip) (e : PfxEntry) : withoutPages (c.pfxEvict e) = withoutPages c := by
  rw [pfxEvict_eq, withoutPages_forgetEntry]
  exact foldl_keeps withoutPages _ withoutPages_dropMapped _ c

theorem withoutPages_evictSlot (c : Chip) (slot : Nat) : withoutPages (c.evictSlot slot) = withoutPages c := by
  unfold Chip.evictSlot
  exact foldl_keeps withoutPages _ withoutPages_pfxEvict _ c

/-- A mailbox pair of a slice is emptied. -/
def clearBoxes (i : Nat) (c : Chip) (n : Nat) : Chip :=
  (({ c with mbxQueue := tabDel c.mbxQueue (mbxKey (.slice (Fin.ofNat 1024 i)) n) } : Chip).setReg (mbxIn (.slice (Fin.ofNat 1024 i)) n) 0).setReg
    (mbxOut (.slice (Fin.ofNat 1024 i)) n) 0

theorem sliceOff_eq (c : Chip) (o i : Nat) :
    c.sliceOff o i = (List.range 4).foldl (clearBoxes i) (c.setLogged o (R.SLICE i) (fput (c.reg (R.SLICE i)) F.SLICE.ENABLE 0)) := rfl

/-- Switching a slice off changes registers, the log and its mailbox queues. -/
theorem estate_sliceOff (c : Chip) (o i : Nat) : estate (c.sliceOff o i) = estate c := by
  have hboxes : ∀ (d : Chip) (n : Nat), estate (clearBoxes i d n) = estate d := fun _ _ => rfl
  rw [sliceOff_eq, foldl_keeps estate _ hboxes, estate_setLogged]

/-- A lock that is set free, or another. -/
theorem lock_setLock_same (c : Chip) (n : Nat) (l : Lock) : (c.setLock n l).lock n = l := by
  obtain ⟨owner, broken⟩ := l
  unfold Chip.setLock Chip.lock
  split
  · rename_i h
    obtain ⟨rfl, rfl⟩ := h
    exact tabGetD_del_same _ _ _
  · exact tabGetD_put_same _ _ _ _

theorem lock_setLock_other (c : Chip) {n m : Nat} (l : Lock) (h : n ≠ m) : (c.setLock n l).lock m = c.lock m := by
  unfold Chip.setLock Chip.lock
  split
  · exact tabGetD_del_other _ _ h
  · exact tabGetD_put_other _ _ _ h

/-- The locks of an owner are set free. -/
def freeLocks (owner : Nat) (c : Chip) : Chip :=
  (List.range 16).foldl (fun (c : Chip) n => if (c.lock n).owner = owner then c.setLock n ⟨0, false⟩ else c) c

theorem freeLocks_owned {owner : Nat} (h0 : owner ≠ 0) (c : Chip) {n : Nat} (hn : n < 16) : ((freeLocks owner c).lock n).owner ≠ owner := by
  refine foldl_reaches (fun d => (d.lock n).owner ≠ owner) _ (a := n) (fun d => ?_) (fun d m hd => ?_) _ (List.mem_range.2 hn) c
  · split
    · rw [lock_setLock_same]
      exact Ne.symm h0
    · assumption
  · split
    · by_cases e : m = n
      · rw [e, lock_setLock_same]
        exact Ne.symm h0
      · rwa [lock_setLock_other _ _ e]
    · exact hd

theorem freeLocks_other {owner : Nat} (c : Chip) {n : Nat} (h : (c.lock n).owner ≠ owner) : (freeLocks owner c).lock n = c.lock n := by
  refine foldl_inv (fun d => d.lock n = c.lock n) _ (fun d m hd => ?_) _ c rfl
  split
  · rename_i hm
    rwa [lock_setLock_other _ _ (fun e => h (by rw [← hd, ← e, hm]))]
  · exact hd

/-- Setting locks free leaves all else. -/
theorem freeLocks_form (owner : Nat) (c : Chip) : ∃ l, freeLocks owner c = { c with locks := l } := by
  refine foldl_inv (fun d => ∃ l, d = { c with locks := l }) _ (fun d n hd => ?_) _ c ⟨c.locks, rfl⟩
  obtain ⟨l, rfl⟩ := hd
  split
  · exact ⟨_, rfl⟩
  · exact ⟨l, rfl⟩

end Sys2Proof.Proofs

end

section
/-! SUPPORT. The rows of slots, deckles, keys and slices, and the obligation on them. -/

namespace Sys2Proof.Proofs

open Sys2Proof.Machine Sys2Proof.Laws

/-! ### The end of a drain, in its steps -/

/-- The slot has no drain to end yet: it does not drain, or a begun command or commit of it remains. -/
def DrainWaits (c : Chip) (slot : Nat) : Prop :=
  (∀ d ∈ c.drains, d.slot ≠ slot) ∨ c.slotState slot ≠ 2 ∨ (∃ k ∈ c.commands, k.slot = slot) ∨
    (∃ x ∈ c.quires, ∃ y ∈ x.2.slots, y.task.slot = slot)

/-- The pages and what is held of them, the weights, rings and messages of a slot go. -/
def withoutSlot (slot : Nat) (c : Chip) : Chip :=
  { c with pages := c.pages.filter (fun x => keySlot x.1 != slot), weights := tabDel c.weights slot,
           mem := c.mem.filter (fun x => keySlot x.1 != slot), kvSealed := c.kvSealed.filter (fun k => keySlot k != slot),
           poison := c.poison.filter (fun l => keySlot l != slot), migrations := c.migrations.filter (fun m => keySlot m.key != slot),
           rings := c.rings.filter (fun r => r.slot != slot), fapiHeld := tabDel c.fapiHeld slot, fapiArrived := tabDel c.fapiArrived slot }

/-- The enabled slices of a slot are switched off. -/
def slicesOff (slot : Nat) (c : Chip) : Chip :=
  ((List.range 1024).filter (fun i => c.flag (R.SLICE i) F.SLICE.ENABLE && c.sliceSlot i == slot)).foldl (fun c i => c.sliceOff (slot + 2) i) c

/-- The key of a slot and its drain go. -/
def withoutKey (slot : Nat) (c : Chip) : Chip := { c with keys := tabDel c.keys slot, drains := c.drains.filter (fun d => d.slot != slot) }

/-- A slot without its key is shown as free. -/
def slotFreed (slot : Nat) (c : Chip) : Chip :=
  let d := (c.setFlag (R.TEN_STAT slot) F.TEN_STAT.KEY_VALID false).setFld (R.TEN_STAT slot) F.TEN_STAT.STATE 0
  d.setLogged (slot + 2) (R.DCK_CTL slot) (fput (fput (d.reg (R.DCK_CTL slot)) F.DCK_CTL.ENABLE 0) F.DCK_CTL.RELEASE 0)

/-- What SLOT_DRAIN_COMPLETE asks before it acts. -/
theorem drainWaits_iff (c : Chip) (slot : Nat) : DrainWaits c slot ↔
    (¬ c.drains.any (fun d => d.slot == slot) = true ∨ c.slotState slot ≠ 2 ∨ c.commands.any (fun k => k.slot == slot) = true ∨
      c.quires.any (fun x => x.2.slots.any (fun y => y.task.slot == slot)) = true) := by
  simp [DrainWaits]

theorem slotDrainComplete_waits {c : Chip} {slot : Fin 64} (h : DrainWaits c slot.val) : slotDrainComplete slot c = c :=
  if_pos ((drainWaits_iff c slot.val).1 h)

theorem slotDrainComplete_ends {c : Chip} {slot : Fin 64} (h : ¬ DrainWaits c slot.val) :
    slotDrainComplete slot c =
      slotFreed slot.val (withoutKey slot.val (freeLocks (slot.val + 2) (slicesOff slot.val (withoutSlot slot.val (c.evictSlot slot.val))))) :=
  if_neg (fun hw => h ((drainWaits_iff c slot.val).2 hw))

theorem estate_slicesOff (slot : Nat) (c : Chip) : estate (slicesOff slot c) = estate c :=
  foldl_keeps estate _ (fun d i => estate_sliceOff d _ i) _ c

theorem estate_slotFreed (slot : Nat) (c : Chip) : estate (slotFreed slot c) = estate c := by
  rw [slotFreed, estate_setLogged]
  rfl

/-- A freed slot is free, shows no key, and its DCK_CTL is neither enabled nor in release. -/
theorem slotFreed_regs (slot : Fin 64) (c : Chip) :
    (slotFreed slot.val c).slotState slot.val = 0 ∧ (slotFreed slot.val c).flag (R.TEN_STAT slot.val) F.TEN_STAT.KEY_VALID = false ∧
    (slotFreed slot.val c).flag (R.DCK_CTL slot.val) F.DCK_CTL.ENABLE = false ∧ (slotFreed slot.val c).flag (R.DCK_CTL slot.val) F.DCK_CTL.RELEASE = false := by
  have hten : (slotFreed slot.val c).reg (R.TEN_STAT slot.val) =
      ((c.setFlag (R.TEN_STAT slot.val) F.TEN_STAT.KEY_VALID false).setFld (R.TEN_STAT slot.val) F.TEN_STAT.STATE 0).reg (R.TEN_STAT slot.val) :=
    setLogged_tenantReg _ _ _ (tenantReg_tenStat slot.isLt) (Ne.symm (tenStat_ne_dckCtl _ _ slot.isLt))
  refine ⟨?_, ?_, ?_, ?_⟩
  · rw [Chip.slotState, Chip.fld, hten]
    exact fld_setFld_same _ _ _ _ (by decide)
  · rw [Chip.flag, Chip.fld, hten, ← Chip.fld, fld_setFld_beside _ _ _ _ _ (by decide), Chip.setFlag, fld_setFld_same _ _ _ _ (by decide)]
    rfl
  · rw [Chip.flag, Chip.fld, slotFreed, reg_setLogged_same, fget_fput_other _ _ _ _ (by decide), fget_fput _ _ _ (by decide)]
    rfl
  · rw [Chip.flag, Chip.fld, slotFreed, reg_setLogged_same, fget_fput _ _ _ (by decide)]
    rfl

/-- What a slot owns of the part beside keys and locks, and the commands. -/
def belongings (c : Chip) : Tab Page × Memory × List Ring × Tab (List Weight) × List Command := (c.pages, c.mem, c.rings, c.weights, c.commands)

theorem belongings_of_estate {c d : Chip} (h : estate d = estate c) : belongings d = belongings c := by
  simp only [belongings, estate_pages h, estate_mem h, estate_rings h, estate_weights h, estate_commands h]

theorem belongings_freeLocks (owner : Nat) (c : Chip) : belongings (freeLocks owner c) = belongings c := by
  obtain ⟨l, h⟩ := freeLocks_form owner c
  rw [h]
  rfl

theorem lock_congr {c d : Chip} (h : d.locks = c.locks) (n : Nat) : d.lock n = c.lock n := by rw [Chip.lock, h, Chip.lock]

theorem belongings_withoutKey (slot : Nat) (c : Chip) : belongings (withoutKey slot c) = belongings c := rfl

/-- What the last steps of a drain leave of what they find. -/
theorem lastSteps_effect (slot : Nat) (c : Chip) :
    let e := slotFreed slot (withoutKey slot c)
    belongings e = belongings c ∧ e.locks = c.locks ∧ tabGet e.keys slot = none ∧ ∀ d ∈ e.drains, d.slot ≠ slot := by
  have hfreed := estate_slotFreed slot (withoutKey slot c)
  refine ⟨(belongings_of_estate hfreed).trans (belongings_withoutKey slot c), estate_locks (c := withoutKey slot c) hfreed, ?_, ?_⟩
  · rw [estate_keys hfreed]
    exact tabGet_del_same _ _
  · rw [estate_drains hfreed]
    exact fun d hd => bne_iff_ne.1 (List.mem_filter.1 hd).2

/-- Evicting the cached entries of a slot and dropping what it owns leaves the locks and the commands. -/
theorem withoutSlot_effect (slot : Nat) (c : Chip) :
    let b := withoutSlot slot (c.evictSlot slot)
    (∀ x ∈ b.pages, keySlot x.1 ≠ slot) ∧ (∀ x ∈ b.mem, keySlot x.1 ≠ slot) ∧ (∀ x ∈ b.rings, x.slot ≠ slot) ∧ tabGet b.weights slot = none ∧
    b.commands = c.commands ∧ b.locks = c.locks := by
  have hevict := withoutPages_evictSlot c slot
  refine ⟨fun x hx => bne_iff_ne.1 (List.mem_filter.1 hx).2, fun x hx => bne_iff_ne.1 (List.mem_filter.1 hx).2,
    fun x hx => bne_iff_ne.1 (List.mem_filter.1 hx).2, tabGet_del_same _ _, ?_, ?_⟩
  · exact congrArg Chip.commands (a₁ := withoutPages (c.evictSlot slot)) (a₂ := withoutPages c) hevict
  · exact congrArg Chip.locks (a₁ := withoutPages (c.evictSlot slot)) (a₂ := withoutPages c) hevict

/-- Once a drain ends, the slot owns nothing, other locks stand, and so do the commands. -/
theorem drainEnd_effect (slot : Nat) (c : Chip) :
    let e := slotFreed slot (withoutKey slot (freeLocks (slot + 2) (slicesOff slot (withoutSlot slot (c.evictSlot slot)))))
    (∀ x ∈ e.pages, keySlot x.1 ≠ slot) ∧ (∀ x ∈ e.mem, keySlot x.1 ≠ slot) ∧ (∀ x ∈ e.rings, x.slot ≠ slot) ∧ tabGet e.weights slot = none ∧
    tabGet e.keys slot = none ∧ (∀ n < 16, (e.lock n).owner ≠ slot + 2) ∧ (∀ d ∈ e.drains, d.slot ≠ slot) ∧
    (∀ n < 16, (c.lock n).owner ≠ slot + 2 → e.lock n = c.lock n) ∧ e.commands = c.commands := by
  intro e
  obtain ⟨hpages, hmem, hrings, hweights, hcommands, hlocks⟩ := withoutSlot_effect slot c
  have hoff := estate_slicesOff slot (withoutSlot slot (c.evictSlot slot))
  obtain ⟨hlast, hlast_locks, hkeys, hdrains⟩ :=
    lastSteps_effect slot (freeLocks (slot + 2) (slicesOff slot (withoutSlot slot (c.evictSlot slot))))
  have hown : belongings e = belongings (withoutSlot slot (c.evictSlot slot)) :=
    (hlast.trans (belongings_freeLocks _ _)).trans (belongings_of_estate hoff)
  simp only [belongings, Prod.mk.injEq] at hown
  obtain ⟨hp, hm, hr, hw, hc⟩ := hown
  have hlock : ∀ n, e.lock n = (freeLocks (slot + 2) (slicesOff slot (withoutSlot slot (c.evictSlot slot)))).lock n :=
    lock_congr hlast_locks
  have hbefore : ∀ n, (slicesOff slot (withoutSlot slot (c.evictSlot slot))).lock n = c.lock n :=
    lock_congr ((estate_locks hoff).trans hlocks)
  refine ⟨hp ▸ hpages, hm ▸ hmem, hr ▸ hrings, hw ▸ hweights, hkeys, fun n hn => ?_, hdrains, fun n _ hn => ?_, hc.trans hcommands⟩
  · rw [hlock]
    exact freeLocks_owned (by omega) _ hn
  · rw [hlock, freeLocks_other _ (by rwa [hbefore]), hbefore]

/-! ### The rows -/

/-- A row that writes one word to DCK_CTL. -/
def ctlRow (r : Requester) (slot : Nat) (v : W64) (c : Chip) : Chip :=
  (pairWrite r atChip (R.DCK_CTL slot).addr false true (applyDeckle (c.origin r) slot .ctl v 0) c).mendWritten r true (R.DCK_CTL slot).addr v

section
variable {s : State} {r : Requester} (hlive : s.chip.live = true) (hport : s.chip.reaches r = true)
include hlive hport

/-- DECKLE_WRITE compares one word, and two of a window. -/
theorem exec_deckleWrite (slot : Fin 64) (reg : DeckleReg) (v0 v1 c0 c1 : W64) :
    exec (.deckleWrite r slot reg v0 v1 c0 c1) s =
      .next { s with chip := (pairWrite r atChip (deckleAddr slot.val reg) (deckleWin reg).isSome
        (c0 == ~~~ v0 && (!(deckleWin reg).isSome || c1 == ~~~ v1))
        (applyDeckle ((s.chip.supersede r).origin r) slot.val reg v0 v1) (s.chip.supersede r)).mendWritten r (c0 == ~~~ v0) (deckleAddr slot.val reg) v0 } := by
  cases reg <;> exact liveRow_next _ hlive hport

/-- SLOT_ENABLE and SLOT_RELEASE write DCK_CTL as it stands with their bit set. -/
theorem exec_slotEnable (slot : Fin 64) :
    exec (.slotEnable r slot) s = .next { s with chip := ctlRow r slot.val (fput (s.chip.reg (R.DCK_CTL slot.val)) F.DCK_CTL.ENABLE 1) (s.chip.supersede r) } := by
  rw [← (supersede_regs s.chip r).1]
  exact liveRow_next _ hlive hport

theorem exec_slotRelease (slot : Fin 64) :
    exec (.slotRelease r slot) s = .next { s with chip := ctlRow r slot.val (fput (s.chip.reg (R.DCK_CTL slot.val)) F.DCK_CTL.RELEASE 1) (s.chip.supersede r) } := by
  rw [← (supersede_regs s.chip r).1]
  exact liveRow_next _ hlive hport

theorem exec_keyLoad (slot : Fin 64) : exec (.keyLoad r slot) s = .next { s with chip := keyCmd r slot.val true (s.chip.supersede r) } :=
  liveRow_next _ hlive hport

theorem exec_keyGenerate (slot : Fin 64) : exec (.keyGenerate r slot) s = .next { s with chip := keyCmd r slot.val false (s.chip.supersede r) } :=
  liveRow_next _ hlive hport

theorem exec_sliceWrite (i : Fin 1024) (v k : W64) :
    exec (.sliceWrite r i v k) s =
      .next { s with chip := (pairWrite r atChip (R.SLICE i.val).addr false (k == ~~~ v) (applySlice ((s.chip.supersede r).origin r) i.val v)
        (s.chip.supersede r)).mendWritten r (k == ~~~ v) (R.SLICE i.val).addr v } := liveRow_next _ hlive hport

/-- A row of a slot without a path to BAR0, or before stage 2 from the host, changes nothing but a count. -/
theorem slotRows_ignored (slot : Fin 64) {i : Instr} (hi : i ∈ [Instr.slotEnable r slot, .slotRelease r slot, .keyLoad r slot, .keyGenerate r slot]) :
    (mayReachBar0 r = false → Becomes i s (s.chip.supersede r)) ∧
    (mayReachBar0 r = true → (s.chip.supersede r).early r = true → Becomes i s (s.chip.supersede r).noteEarly) := by
  have hkey : ∀ load, (mayReachBar0 r = false → keyCmd r slot.val load (s.chip.supersede r) = s.chip.supersede r) ∧
      (mayReachBar0 r = true → (s.chip.supersede r).early r = true → keyCmd r slot.val load (s.chip.supersede r) = (s.chip.supersede r).noteEarly) :=
    fun load => ⟨fun hbar => by simp [keyCmd, hbar], fun hbar he => by simp [keyCmd, hbar, he]⟩
  simp only [List.mem_cons, List.not_mem_nil, or_false] at hi
  unfold Becomes
  rcases hi with rfl | rfl | rfl | rfl
  · rw [exec_slotEnable hlive hport, ctlRow]
    exact ⟨fun hbar => by rw [pairRow_ignored.1 hbar], fun hbar he => by rw [pairRow_ignored.2 hbar he]⟩
  · rw [exec_slotRelease hlive hport, ctlRow]
    exact ⟨fun hbar => by rw [pairRow_ignored.1 hbar], fun hbar he => by rw [pairRow_ignored.2 hbar he]⟩
  · rw [exec_keyLoad hlive hport]
    exact ⟨fun hbar => by rw [(hkey true).1 hbar], fun hbar he => by rw [(hkey true).2 hbar he]⟩
  · rw [exec_keyGenerate hlive hport]
    exact ⟨fun hbar => by rw [(hkey false).1 hbar], fun hbar he => by rw [(hkey false).2 hbar he]⟩

end

/-! ### What a refused deckle leaves -/

/-- A refused deckle write leaves the deckle, the slot's state, its keys and its commands, and shows its reason. -/
theorem refused_effect {b c : Chip} {r : Requester} {slot : Fin 64} {err : Nat} (herr : err < 16)
    (h : KeepsTenants ((b.supersede r).tenRefuse slot.val err) c) :
    c.deckle slot.val = b.deckle slot.val ∧ (∀ reg, c.reg (deckleRef slot.val reg) = b.reg (deckleRef slot.val reg)) ∧
    c.flag (R.TEN_STAT slot.val) F.TEN_STAT.CFG_REFUSED = true ∧ c.fld (R.TEN_STAT slot.val) F.TEN_STAT.ERR = err ∧
    c.slotState slot.val = b.slotState slot.val ∧ c.keys = b.keys ∧ c.commands = b.commands := by
  have hold := keeps_supersede b r
  have hten := tenantReg_tenStat slot.isLt
  refine ⟨?_, fun reg => ?_, ?_, ?_, ?_, h.keys.trans hold.keys, h.commands.trans hold.commands⟩
  · rw [deckle_of_tenantRegs h.reg, tenRefuse_deckle, deckle_of_tenantRegs hold.reg]
  · rw [h.reg _ (deckleRef_tenantReg slot reg), tenRefuse_reg _ _ _ (tenStat_ne_deckleRef slot reg slot.val), hold.reg _ (deckleRef_tenantReg slot reg)]
  · rw [h.flag hten, tenRefuse_flag]
  · rw [h.fld hten, tenRefuse_err _ _ herr]
  · rw [h.slotState slot.isLt, tenRefuse_slotState, hold.slotState slot.isLt]

/-- The words of a mismatched deckle write stand, and the mismatch counts. -/
theorem mismatched_effect {b c : Chip} {r : Requester} {slot : Fin 64} (h : KeepsTenants ((b.supersede r).integrity atChip) c) (reg : DeckleReg) :
    c.deckle slot.val = b.deckle slot.val ∧ c.reg (deckleRef slot.val reg) = b.reg (deckleRef slot.val reg) ∧
    tabGetD c.health.counts 9 0 = tabGetD b.health.counts 9 0 + 1 := by
  obtain ⟨hreg, hcount⟩ := mismatch_keeps h
  exact ⟨deckle_of_tenantRegs hreg slot, hreg _ (deckleRef_tenantReg slot reg), hcount⟩

section
variable {s : State} {r : Requester} {slot : Fin 64} (hlive : s.chip.live = true) (hport : s.chip.reaches r = true) (hbar : mayReachBar0 r = true)
  (he : s.chip.early r = false)
include hlive hport hbar he

/-- A deckle write whose words match is judged (R289). -/
theorem deckleWrite_matching (reg : DeckleReg) (v0 v1 c1 : W64) (hc1 : (deckleWin reg).isSome = false ∨ c1 = ~~~ v1) :
    let w0 := regWrite (deckleIds reg).1 0 v0
    let w1 := regWrite (deckleIds reg).2 0 v1
    let err := s.chip.deckleErr slot.val reg w0 w1
    (err ≠ 0 → Yields (.deckleWrite r slot reg v0 v1 (~~~ v0) c1) s (fun c => c.deckle slot.val = s.chip.deckle slot.val ∧
      c.reg (deckleRef slot.val reg) = s.chip.reg (deckleRef slot.val reg) ∧
      c.flag (R.TEN_STAT slot.val) F.TEN_STAT.CFG_REFUSED = true ∧ c.fld (R.TEN_STAT slot.val) F.TEN_STAT.ERR = err ∧ c.slotState slot.val = s.chip.slotState slot.val)) ∧
    (err = 0 → reg ≠ .ctl → Yields (.deckleWrite r slot reg v0 v1 (~~~ v0) c1) s (fun c => c.reg (deckleRef slot.val reg) = w0 ∧
      c.fld (R.TEN_STAT slot.val) F.TEN_STAT.ERR = 0 ∧ (∀ w, deckleWin reg = some w → c.reg (R.WIN1 slot.val w.val) = w1) ∧
      c.slotState slot.val = s.chip.slotState slot.val ∧ c.pages = s.chip.pages ∧ c.keys = s.chip.keys)) := by
  have hok : ((~~~ v0 == ~~~ v0) && (!(deckleWin reg).isSome || c1 == ~~~ v1)) = true := by
    rcases hc1 with h | h <;> simp [h]
  have hsame := deckleErr_supersede s.chip r slot.val reg (regWrite (deckleIds reg).1 0 v0) (regWrite (deckleIds reg).2 0 v1)
  have hold := keeps_supersede s.chip r
  have hten := tenantReg_tenStat slot.isLt
  refine ⟨fun herr => ?_, fun herr hctl => ?_⟩
  · refine pairRow_yields (exec_deckleWrite hlive hport slot reg v0 v1 _ c1) hbar he fun c hc => ?_
    rw [if_pos hok, applyDeckle_refused (by rwa [hsame]), hsame] at hc
    obtain ⟨hdeckle, hfirst, hflag, hreason, hstate, -, -⟩ := refused_effect (deckleErr_lt _ _ _ _ _) hc
    exact ⟨hdeckle, hfirst reg, hflag, hreason, hstate⟩
  · refine pairRow_yields (exec_deckleWrite hlive hport slot reg v0 v1 _ c1) hbar he fun c hc => ?_
    rw [if_pos hok] at hc
    obtain ⟨hfirst, hsecond, hstat, hrest⟩ := applyDeckle_stored (o := (s.chip.supersede r).origin r) hctl (hsame.trans herr)
    refine ⟨(hc.reg _ (deckleRef_tenantReg slot reg)).trans hfirst, ?_, fun w hw => ?_, ?_, ?_, ?_⟩
    · rw [hc.fld hten, Chip.fld, hstat, ← Chip.fld, tenDone_err]
    · exact (hc.reg _ (win1_tenantReg slot w)).trans (hsecond w hw)
    · rw [hc.slotState slot.isLt, Chip.slotState, Chip.fld, hstat, ← Chip.fld, ← Chip.slotState, tenDone_slotState, hold.slotState slot.isLt]
    · exact (hc.pages.trans (estate_pages hrest)).trans hold.pages
    · exact (hc.keys.trans (estate_keys hrest)).trans hold.keys

/-- A deckle write with a mismatched complement keeps the deckle and raises INTEGRITY (R7). -/
theorem deckleWrite_mismatched (reg : DeckleReg) (v0 v1 c0 c1 : W64) (h : (c0 == ~~~ v0 && (!(deckleWin reg).isSome || c1 == ~~~ v1)) = false) :
    Yields (.deckleWrite r slot reg v0 v1 c0 c1) s (fun c => c.deckle slot.val = s.chip.deckle slot.val ∧
      c.reg (deckleRef slot.val reg) = s.chip.reg (deckleRef slot.val reg) ∧ tabGetD c.health.counts 9 0 = tabGetD s.chip.health.counts 9 0 + 1) := by
  refine pairRow_yields (exec_deckleWrite hlive hport slot reg v0 v1 c0 c1) hbar he fun c hc => ?_
  rw [if_neg (by rw [h]; exact Bool.false_ne_true)] at hc
  exact mismatched_effect hc reg

end

end Sys2Proof.Proofs

end

section
/-! SUPPORT. What the rows of DCK_CTL, keys, the slice table and drains yield, and the obligation on them. -/

namespace Sys2Proof.Proofs

open Sys2Proof.Machine Sys2Proof.Laws

/-! ### The reasons of a refused write -/

/-- A chain of tests whose answer is 0 has passed the first. -/
theorem passed_of_zero {p : Prop} [Decidable p] {n m : Nat} (h : (if p then n + 1 else m) = 0) : ¬ p ∧ m = 0 := by
  split at h
  · cases h
  · exact ⟨‹_›, h⟩

theorem deckleErr_ctlBad {c : Chip} {slot : Nat} {v0 : W64} (v1 : W64) (h : c.ctlBad slot v0 = true) : c.deckleErr slot .ctl v0 v1 = 2 :=
  if_pos ⟨rfl, h⟩

/-- An accepted deckle is valid, leaves no busy window, no ring past its limits and no conflict. -/
theorem deckleErr_zero {c : Chip} {slot : Nat} {reg : DeckleReg} {v0 v1 : W64} (h : c.deckleErr slot reg v0 v1 = 0) :
    let d := (c.deckle slot).put reg v0 v1
    d.invalid slot = false ∧ c.windowBusy slot (c.wins slot) d.wins = false ∧ c.limitBelow slot d.limits = false ∧ c.deckleConflict slot d = false := by
  obtain ⟨-, h⟩ := passed_of_zero h
  obtain ⟨hvalid, h⟩ := passed_of_zero h
  obtain ⟨-, h⟩ := passed_of_zero h
  obtain ⟨hwindow, h⟩ := passed_of_zero h
  obtain ⟨hlimit, h⟩ := passed_of_zero h
  obtain ⟨hconflict, -⟩ := passed_of_zero h
  exact ⟨eq_false_of_ne_true hvalid, eq_false_of_ne_true hwindow, eq_false_of_ne_true hlimit,
    eq_false_of_ne_true hconflict⟩

/-- The kind of a slot that is not free does not change. -/
theorem deckleErr_kindChange {c : Chip} {slot : Nat} {v0 : W64} (v1 : W64) (hkind : fget (c.reg (R.DCK_CTL slot)) F.DCK_CTL.KIND ≠ fget v0 F.DCK_CTL.KIND)
    (hst : c.slotState slot ≠ 0) : c.deckleErr slot .ctl v0 v1 = 2 :=
  deckleErr_ctlBad v1 (by simp [Chip.ctlBad, hkind, hst])

/-- Slot 0, or a slot that is not active, is not released. -/
theorem ctlBad_release {c : Chip} {slot : Nat} {w : W64} (h : c.slotState slot ≠ 1 ∨ slot = 0)
    (hold : fget (c.reg (R.DCK_CTL slot)) F.DCK_CTL.RELEASE = 0) (hnew : fget w F.DCK_CTL.RELEASE ≠ 0) : c.ctlBad slot w = true := by
  have hbad : (slot == 0 || c.slotState slot != 1 || (c.slotKind slot == 1 && c.slotCellsUp slot)) = true := by
    rcases h with h | h <;> simp [h]
  simp only [Chip.ctlBad, hbad, hold, beq_self_eq_true, bne_iff_ne.2 hnew, Bool.and_self, Bool.or_true]

theorem deckleErr_release {c : Chip} {slot : Nat} (h : c.slotState slot ≠ 1 ∨ slot = 0) (hold : fget (c.reg (R.DCK_CTL slot)) F.DCK_CTL.RELEASE = 0) :
    c.deckleErr slot .ctl (regWrite .DCK_CTL 0 (fput (c.reg (R.DCK_CTL slot)) F.DCK_CTL.RELEASE 1)) 0 = 2 :=
  deckleErr_ctlBad 0 (ctlBad_release h hold (by rw [dckCtl_release]; exact Nat.one_ne_zero))

/-- A slice is enabled for an active slot only. -/
theorem sliceErr_inactive {c : Chip} {i : Nat} {w : W64} (hen : fget w F.SLICE.ENABLE ≠ 0) (hold : c.flag (R.SLICE i) F.SLICE.ENABLE = false)
    (hst : c.slotState (fget w F.SLICE.SLOT) ≠ 1) : c.sliceErr i w = 2 := by
  have hold : fget (c.reg (R.SLICE i)) F.SLICE.ENABLE = 0 := bne_eq_false_iff_eq.1 hold
  exact if_pos (by simp [hen, hold, hst])

/-- A slice with rings is not disabled unless its slot drains. -/
theorem sliceErr_ringed {c : Chip} {i : Nat} {w : W64} (hold : c.flag (R.SLICE i) F.SLICE.ENABLE = true) (hen : fget w F.SLICE.ENABLE = 0)
    (hst : c.slotState (c.sliceSlot i) ≠ 2) (hring : ∃ g ∈ c.rings, g.slice = i) : c.sliceErr i w = 2 := by
  have hold : fget (c.reg (R.SLICE i)) F.SLICE.ENABLE ≠ 0 := bne_iff_ne.1 hold
  have hst : c.slotState (fget (c.reg (R.SLICE i)) F.SLICE.SLOT) ≠ 2 := hst
  have hnamed : c.sliceNamed i = true := by
    obtain ⟨g, hg, hi⟩ := hring
    simp only [Chip.sliceNamed, Bool.or_eq_true, List.any_eq_true]
    exact .inl ⟨g, hg, beq_iff_eq.2 hi⟩
  unfold Chip.sliceErr
  simp [hen, hold, hst, hnamed]

/-! ### DCK_CTL -/

section
variable {i : Instr} {s : State} {r : Requester} {slot : Fin 64} {v : W64}
  (hexec : exec i s = .next { s with chip := ctlRow r slot.val v (s.chip.supersede r) }) (hbar : mayReachBar0 r = true) (he : s.chip.early r = false)
include hexec hbar he

/-- What holds of every part that keeps the tenants of an applied DCK_CTL word, its row yields. -/
theorem ctlRow_yields {p : Chip → Prop}
    (hp : ∀ c, KeepsTenants (applyDeckle ((s.chip.supersede r).origin r) slot.val .ctl v 0 (s.chip.supersede r)) c → p c) : Yields i s p :=
  pairRow_yields hexec hbar he fun c hc => hp c (by rwa [if_pos rfl] at hc)

/-- A refused DCK_CTL word leaves the slot and shows its reason. -/
theorem ctlRow_refused (herr : s.chip.deckleErr slot.val .ctl (regWrite .DCK_CTL 0 v) 0 ≠ 0) :
    Yields i s (fun c => c.slotState slot.val = s.chip.slotState slot.val ∧
      c.fld (R.TEN_STAT slot.val) F.TEN_STAT.ERR = s.chip.deckleErr slot.val .ctl (regWrite .DCK_CTL 0 v) 0 ∧
      c.reg (R.DCK_CTL slot.val) = s.chip.reg (R.DCK_CTL slot.val) ∧ c.keys = s.chip.keys ∧ c.commands = s.chip.commands) := by
  have hsame : (s.chip.supersede r).deckleErr slot.val .ctl (regWrite (deckleIds .ctl).1 0 v) (regWrite (deckleIds .ctl).2 0 0) =
      s.chip.deckleErr slot.val .ctl (regWrite .DCK_CTL 0 v) 0 := deckleErr_supersede _ _ _ _ _ _
  refine ctlRow_yields hexec hbar he fun c hc => ?_
  rw [applyDeckle_refused (by rwa [hsame]), hsame] at hc
  obtain ⟨-, hreg, -, herrc, hstate, hkeys, hcommands⟩ := refused_effect (deckleErr_lt _ _ _ _ _) hc
  exact ⟨hstate, herrc, hreg .ctl, hkeys, hcommands⟩

/-- An accepted word that enables a free slot. -/
theorem ctlRow_enabled (herr : s.chip.deckleErr slot.val .ctl (regWrite .DCK_CTL 0 v) 0 = 0) (hrel : fget (regWrite .DCK_CTL 0 v) F.DCK_CTL.RELEASE = 0)
    (hen : fget (regWrite .DCK_CTL 0 v) F.DCK_CTL.ENABLE ≠ 0) (hfree : s.chip.slotState slot.val = 0) :
    Yields i s (fun c => c.slotState slot.val = 1 ∧ c.reg (R.DCK_CTL slot.val) = regWrite .DCK_CTL 0 v ∧
      c.flag (R.TEN_STAT slot.val) F.TEN_STAT.KEY_VALID = true ∧
      (s.chip.flag (R.TEN_STAT slot.val) F.TEN_STAT.KEY_VALID = true → c.keys = s.chip.keys) ∧
      (s.chip.flag (R.TEN_STAT slot.val) F.TEN_STAT.KEY_VALID = false → (tabGet c.keys slot.val).map List.length = some 8)) := by
  have hold := keeps_supersede s.chip r
  have hten := tenantReg_tenStat slot.isLt
  refine ctlRow_yields hexec hbar he fun c hc => ?_
  obtain ⟨hstate, hctl, hvalid, hheld, hdrawn⟩ := applyDeckle_enable (o := (s.chip.supersede r).origin r) ((deckleErr_supersede _ _ _ _ _ _).trans herr)
    hrel hen ((hold.slotState slot.isLt).trans hfree)
  rw [hold.flag hten, hold.keys] at hheld
  rw [hold.flag hten] at hdrawn
  refine ⟨?_, ?_, ?_, fun h => hc.keys.trans (hheld h), fun h => ?_⟩
  · rw [hc.slotState slot.isLt, hstate]
  · rw [hc.reg _ (tenantReg_dckCtl slot), hctl]
  · rw [hc.flag hten, hvalid]
  · rw [hc.keys, hdrawn h]

/-- An accepted word that releases a slot. -/
theorem ctlRow_released (herr : s.chip.deckleErr slot.val .ctl (regWrite .DCK_CTL 0 v) 0 = 0) (hrel : fget (regWrite .DCK_CTL 0 v) F.DCK_CTL.RELEASE ≠ 0)
    (hrelOld : fget (s.chip.reg (R.DCK_CTL slot.val)) F.DCK_CTL.RELEASE = 0) :
    Yields i s (fun c => c.slotState slot.val = 2 ∧ c.reg (R.DCK_CTL slot.val) = regWrite .DCK_CTL 0 v ∧ (∃ e ∈ c.drains, e.slot = slot.val) ∧
      (∀ x ∈ c.contexts, x.2.slot ≠ slot.val) ∧ c.keys = s.chip.keys ∧ c.pages = s.chip.pages ∧
      (∀ u m, c.command u = some m → m.slot = slot.val → m.ending = some ⟨0, 0, 0⟩ ∧ m.deferred = [])) := by
  have hold := keeps_supersede s.chip r
  have hctl := tenantReg_dckCtl slot
  have hten := tenantReg_tenStat slot.isLt
  refine ctlRow_yields hexec hbar he fun c hc => ?_
  rw [applyDeckle_release_eq ((deckleErr_supersede _ _ _ _ _ _).trans herr) hrel (by rwa [hold.reg _ hctl])] at hc
  have hmoved := estate_slotMoved (s.chip.supersede r) ((s.chip.supersede r).origin r) slot.val (regWrite .DCK_CTL 0 v) 2
  have htold := keeps_mbxTell (slotMoved ((s.chip.supersede r).origin r) slot.val (regWrite .DCK_CTL 0 v) 2 (s.chip.supersede r)) slot.val 4 0
  obtain ⟨hregs, hkeys, hpages, hdrains, hcontexts, hcommands⟩ := beginDrain_effect
    ((slotMoved ((s.chip.supersede r).origin r) slot.val (regWrite .DCK_CTL 0 v) 2 (s.chip.supersede r)).mbxTell slot.val 4 0) slot.val
  refine ⟨?_, ?_, ?_, ?_, ?_, ?_, fun u m hm => hcommands u m ?_⟩
  · rw [hc.slotState slot.isLt, Chip.slotState, Chip.fld, hregs _ hten, htold.reg _ hten, ← Chip.fld, ← Chip.slotState,
      slotMoved_slotState _ _ _ _ (by decide)]
  · rw [hc.reg _ hctl, hregs _ hctl, htold.reg _ hctl, slotMoved_dckCtl]
  · rwa [hc.drains]
  · rwa [hc.contexts]
  · rw [hc.keys, hkeys, htold.keys, estate_keys hmoved, hold.keys]
  · rw [hc.pages, hpages, htold.pages, estate_pages hmoved, hold.pages]
  · rw [← hm, Chip.command, ← hc.commands, Chip.command]

end

/-! ### Keys -/

section
variable {s : State} {r : Requester} {slot : Fin 64} (hbar : mayReachBar0 r = true) (he : s.chip.early r = false)
include hbar he

/-- KEY_CMD on a slot that is not free clears the staging words and shows 2. -/
theorem keyCmd_notFree (load : Bool) (hst : s.chip.slotState slot.val ≠ 0) :
    let e := keyCmd r slot.val load (s.chip.supersede r)
    (∀ k < 8, e.reg (R.KEY_V slot.val k) = 0 ∧ e.reg (R.KEY_C slot.val k) = 0) ∧ e.keys = s.chip.keys ∧ e.fld (R.TEN_STAT slot.val) F.TEN_STAT.ERR = 2 := by
  rw [keyCmd_busy hbar (by rw [early_supersede, he]) load (by rwa [slotState_supersede])]
  refine ⟨fun k hk => clearKeyStage_zero _ _ hk, ?_, ?_⟩
  · rw [estate_keys (estate_clearKeyStage _ _)]
    exact (keeps_supersede s.chip r).keys
  · rw [clearKeyStage_fld, tenRefuse_err _ _ (by decide)]

/-- With mismatched words it shows 1 and raises INTEGRITY. -/
theorem keyCmd_notMatching (hst : s.chip.slotState slot.val = 0) (hs : s.chip.keyStaged slot.val = false) :
    let e := keyCmd r slot.val true (s.chip.supersede r)
    (∀ k < 8, e.reg (R.KEY_V slot.val k) = 0 ∧ e.reg (R.KEY_C slot.val k) = 0) ∧ e.keys = s.chip.keys ∧ e.fld (R.TEN_STAT slot.val) F.TEN_STAT.ERR = 1 ∧
    tabGetD e.health.counts 9 0 = tabGetD s.chip.health.counts 9 0 + 1 := by
  have hold := keeps_supersede s.chip r
  rw [keyCmd_mismatch hbar (by rw [early_supersede, he]) (by rwa [slotState_supersede]) (by rwa [keyStaged_supersede])]
  have hclear := estate_clearKeyStage (((s.chip.supersede r).integrity atChip).setFld (R.TEN_STAT slot.val) F.TEN_STAT.ERR 1) slot.val
  have hput := estate_setReg ((s.chip.supersede r).integrity atChip) (R.TEN_STAT slot.val)
  refine ⟨fun k hk => clearKeyStage_zero _ _ hk, ?_, ?_, ?_⟩
  · obtain ⟨h, rs, o, p, e, hint⟩ := integrity_form (s.chip.supersede r) atChip
    rw [estate_keys hclear, Chip.setFld, estate_keys (hput _), hint, ← hold.keys]
  · rw [clearKeyStage_fld, fld_setFld_same _ _ _ _ (by decide)]
    rfl
  · rw [estate_health hclear, Chip.setFld, estate_health (hput _), integrity_counted, hold.health]

/-- Otherwise the slot holds a key of eight words, the staged ones where they are loaded. -/
theorem keyCmd_holds (load : Bool) (hst : s.chip.slotState slot.val = 0) (hs : load = true → s.chip.keyStaged slot.val = true) :
    let e := keyCmd r slot.val load (s.chip.supersede r)
    (∀ k < 8, e.reg (R.KEY_V slot.val k) = 0 ∧ e.reg (R.KEY_C slot.val k) = 0) ∧
    (∃ ws, tabGet e.keys slot.val = some ws ∧ ws.length = 8 ∧ (load = true → ws = (List.range 8).map (fun k => s.chip.reg (R.KEY_V slot.val k)))) ∧
    (∀ j, j ≠ slot.val → tabGet e.keys j = tabGet s.chip.keys j) ∧ e.flag (R.TEN_STAT slot.val) F.TEN_STAT.KEY_VALID = true ∧
    e.fld (R.TEN_STAT slot.val) F.TEN_STAT.ERR = 0 := by
  have hold := keeps_supersede s.chip r
  obtain ⟨ws, n, hlen, hstaged, hcmd⟩ := keyCmd_taken (c := s.chip.supersede r) (slot := slot.val) hbar (by rw [early_supersede, he]) load
    (by rwa [slotState_supersede]) (by rwa [keyStaged_supersede])
  obtain ⟨hclear, hkey, hother, hvalid, herr⟩ := keyTaken_effect r (s.chip.supersede r) slot.val ws n
  rw [hold.keys] at hother
  rw [hcmd]
  refine ⟨hclear, ⟨ws, hkey, hlen, fun h => (hstaged h).trans ?_⟩, hother, hvalid, herr⟩
  exact List.map_congr_left fun k hk => hold.reg _ (tenantReg_keyV slot (List.mem_range.1 hk))

end

/-! ### The slice table -/

section
variable {s : State} {r : Requester} (hlive : s.chip.live = true) (hport : s.chip.reaches r = true) (hbar : mayReachBar0 r = true)
  (he : s.chip.early r = false) (i : Fin 1024) (v : W64)
include hlive hport hbar he

theorem sliceWrite_stored (herr : s.chip.sliceErr i.val (regWrite .SLICE 0 v) = 0) :
    Yields (.sliceWrite r i v (~~~ v)) s (fun c => c.reg (R.SLICE i.val) = regWrite .SLICE 0 v ∧ c.rings = s.chip.rings) := by
  have hold := keeps_supersede s.chip r
  refine pairRow_yields (exec_sliceWrite hlive hport i v _) hbar he fun c hc => ?_
  rw [if_pos (beq_iff_eq.2 rfl), applySlice_stored ((sliceErr_supersede _ _ _ _).trans herr)] at hc
  refine ⟨?_, ?_⟩
  · rw [hc.reg _ (tenantReg_slice i), reg_setLogged_same]
  · rw [hc.rings, estate_rings (estate_setLogged _ _ _ _), hold.rings]

theorem sliceWrite_refused (herr : s.chip.sliceErr i.val (regWrite .SLICE 0 v) ≠ 0) :
    Yields (.sliceWrite r i v (~~~ v)) s (fun c => c.reg (R.SLICE i.val) = s.chip.reg (R.SLICE i.val) ∧
      (∀ t, t = fget (regWrite .SLICE 0 v) F.SLICE.SLOT ∨ t = s.chip.sliceSlot i.val →
        c.fld (R.TEN_STAT t) F.TEN_STAT.ERR = s.chip.sliceErr i.val (regWrite .SLICE 0 v) ∧ c.flag (R.TEN_STAT t) F.TEN_STAT.CFG_REFUSED = true)) := by
  have hold := keeps_supersede s.chip r
  have hslice := tenantReg_slice i
  have hsame := sliceErr_supersede s.chip r i.val (regWrite .SLICE 0 v)
  have hslot : (s.chip.supersede r).sliceSlot i.val = s.chip.sliceSlot i.val := hold.fld hslice _
  refine pairRow_yields (exec_sliceWrite hlive hport i v _) hbar he fun c hc => ?_
  rw [if_pos (beq_iff_eq.2 rfl)] at hc
  obtain ⟨hkept, hshown⟩ := applySlice_refused (o := (s.chip.supersede r).origin r) (c := s.chip.supersede r) (v := v) (by rwa [hsame])
  rw [hsame, hslot] at hshown
  refine ⟨?_, fun t ht => ?_⟩
  · rw [hc.reg _ hslice, hkept, hold.reg _ hslice]
  · have hten : TenantReg (R.TEN_STAT t) := by
      rcases ht with rfl | rfl
      · exact tenantReg_tenStat (fget_lt _ _)
      · exact tenantReg_tenStat (fget_lt _ _)
    rw [hc.fld hten, hc.flag hten]
    exact hshown t ht

theorem sliceWrite_mismatched {k : W64} (hk : k ≠ ~~~ v) :
    Yields (.sliceWrite r i v k) s (fun c => c.reg (R.SLICE i.val) = s.chip.reg (R.SLICE i.val) ∧
      tabGetD c.health.counts 9 0 = tabGetD s.chip.health.counts 9 0 + 1) := by
  refine pairRow_yields (exec_sliceWrite hlive hport i v k) hbar he fun c hc => ?_
  rw [if_neg (fun h => hk (beq_iff_eq.1 h))] at hc
  obtain ⟨hreg, hcount⟩ := mismatch_keeps hc
  exact ⟨hreg _ (tenantReg_slice i), hcount⟩

end

/-! ### The obligation -/

/-- SLOT_DRAIN_COMPLETE of a live part. -/
theorem exec_slotDrainComplete {s : State} (slot : Fin 64) (hlive : s.chip.live = true) :
    exec (.slotDrainComplete slot) s = .next { s with chip := slotDrainComplete slot s.chip } := onLive_next _ _ hlive

/-- What the end of a drain leaves of a slot. -/
theorem slotDrainComplete_effect {c : Chip} {slot : Fin 64} (h : ¬ DrainWaits c slot.val) :
    let e := slotDrainComplete slot c
    e.slotState slot.val = 0 ∧ e.flag (R.TEN_STAT slot.val) F.TEN_STAT.KEY_VALID = false ∧
    (∀ x ∈ e.pages, keySlot x.1 ≠ slot.val) ∧ (∀ x ∈ e.mem, keySlot x.1 ≠ slot.val) ∧ (∀ x ∈ e.rings, x.slot ≠ slot.val) ∧ tabGet e.weights slot.val = none ∧
    tabGet e.keys slot.val = none ∧ (∀ n < 16, (e.lock n).owner ≠ slot.val + 2) ∧ (∀ d ∈ e.drains, d.slot ≠ slot.val) ∧
    e.flag (R.DCK_CTL slot.val) F.DCK_CTL.ENABLE = false ∧ e.flag (R.DCK_CTL slot.val) F.DCK_CTL.RELEASE = false ∧
    (∀ n < 16, (c.lock n).owner ≠ slot.val + 2 → e.lock n = c.lock n) ∧ e.commands = c.commands := by
  rw [slotDrainComplete_ends h]
  obtain ⟨hstate, hkeyValid, henable, hrelease⟩ := slotFreed_regs slot
    (withoutKey slot.val (freeLocks (slot.val + 2) (slicesOff slot.val (withoutSlot slot.val (c.evictSlot slot.val)))))
  obtain ⟨hpages, hmem, hrings, hweights, hkeys, hlocks, hdrains, hothers, hcommands⟩ := drainEnd_effect slot.val c
  exact ⟨hstate, hkeyValid, hpages, hmem, hrings, hweights, hkeys, hlocks, hdrains, henable, hrelease, hothers, hcommands⟩

/-- Settles O49: every row comes to a part that keeps the tenants' registers and belongings of what the row applied, so each clause follows
from what a deckle write, a KEY_CMD, a slice write or the end of a drain does to a slot. -/
theorem slotsDecklesKeysAndSlicesFollowTheirRules : Obligations.SlotsDecklesKeysAndSlicesFollowTheirRules := by
  unfold Obligations.SlotsDecklesKeysAndSlicesFollowTheirRules
  refine ⟨?ignored, ?deckles, ?slots, ?drains, ?keys, ?slices, ?reasons⟩
  case ignored =>
    intro s r slot hlive hport d i hi
    obtain ⟨hpath, hearly⟩ := slotRows_ignored hlive hport slot hi
    exact ⟨hpath, hearly⟩
  case deckles =>
    intro s r slot reg v0 v1 c1 hlive hport hbar he
    refine ⟨deckleWrite_matching hlive hport hbar he reg v0 v1 c1, fun htwo hc1 => ?_, fun c0 hc0 => ?_⟩
    · exact deckleWrite_mismatched hlive hport hbar he reg v0 v1 _ c1 (by simp [htwo, hc1])
    · exact deckleWrite_mismatched hlive hport hbar he reg v0 v1 c0 c1 (by simp [hc0])
  case slots =>
    intro s r slot hlive hport hbar he old on off
    have henable := exec_slotEnable hlive hport slot
    have hrelease := exec_slotRelease hlive hport slot
    refine ⟨fun herr => ?_, fun herr hrel hfree => ?_, deckleErr_release, fun herr => ?_, fun herr hold => ?_⟩
    · obtain ⟨c, hexec, hstate, hreason, hctl, hkeys, -⟩ := ctlRow_refused henable hbar he herr
      exact ⟨c, hexec, hstate, hreason, hctl, hkeys⟩
    · exact ctlRow_enabled henable hbar he herr hrel (by rw [dckCtl_enable]; exact Nat.one_ne_zero) hfree
    · obtain ⟨c, hexec, hstate, hreason, hctl, -, hcommands⟩ := ctlRow_refused hrelease hbar he herr
      exact ⟨c, hexec, hstate, hreason, hctl, hcommands⟩
    · exact ctlRow_released hrelease hbar he herr (by rw [dckCtl_release]; exact Nat.one_ne_zero) hold
  case drains =>
    intro s slot hlive
    have hexec := exec_slotDrainComplete slot hlive
    refine ⟨fun hwaits => ?_, fun hends => ?_⟩
    · rwa [slotDrainComplete_waits hwaits] at hexec
    · exact ⟨_, hexec, slotDrainComplete_effect hends⟩
  case keys =>
    intro s r slot hlive hport hbar he
    have hload := exec_keyLoad hlive hport slot
    have hgen := exec_keyGenerate hlive hport slot
    refine ⟨fun i hi hst => ?_, fun hst hs => ?_, fun hst hs => ?_, fun hst => ?_⟩
    · simp only [List.mem_cons, List.not_mem_nil, or_false] at hi
      rcases hi with rfl | rfl
      · exact ⟨_, hload, keyCmd_notFree hbar he true hst⟩
      · exact ⟨_, hgen, keyCmd_notFree hbar he false hst⟩
    · exact ⟨_, hload, keyCmd_notMatching hbar he hst hs⟩
    · obtain ⟨hclear, ⟨ws, hkey, -, hstaged⟩, hother, hvalid, herr⟩ := keyCmd_holds hbar he true hst (fun _ => hs)
      exact ⟨_, hload, hclear, hkey.trans (congrArg some (hstaged rfl)), hother, hvalid, herr⟩
    · obtain ⟨hclear, ⟨ws, hkey, hlen, -⟩, hother, hvalid, herr⟩ := keyCmd_holds (s := s) (slot := slot) hbar he false hst nofun
      exact ⟨_, hgen, hclear, by rw [hkey, Option.map_some, hlen], hother, hvalid, herr⟩
  case slices =>
    intro s r i v hlive hport hbar he
    exact ⟨sliceWrite_stored hlive hport hbar he i v, sliceWrite_refused hlive hport hbar he i v,
      fun k hk => sliceWrite_mismatched hlive hport hbar he i v hk, sliceErr_inactive, sliceErr_ringed⟩
  case reasons =>
    intro c slot reg v0 v1
    refine ⟨?_, deckleErr_zero⟩
    rintro rfl hkind hst
    exact deckleErr_kindChange v1 hkind hst

end Sys2Proof.Proofs

end
